-- ==== Sys2Proof/Word.lean ====
section
/-! DEFINITION. Word types and the shape of sparse tables. -/

namespace Sys2Proof

/-- A byte of memory. -/
abbrev Byte := BitVec 8

/-- A register of the register space, 32 bits (R8). -/
abbrev Word := BitVec 32

/-- A sparse table: key and value pairs. In canonical form its keys rise strictly and no entry holds the value an
unlisted key has. -/
abbrev Tab (α : Type) := List (Nat × α)

end Sys2Proof
end

