-- ==== Sys2Proof/Syntax.lean ====
section
/-! DEFINITION. The commands the block takes, and the types of their operands. Unit numbers are bounded by their
types; WellFormed.lean holds the checks that types do not make. -/

namespace Sys2Proof

/-- Who makes a register access: a PCIe function (0 is the physical function), a management core, a tile
supervisor through configuration space (R40), the SPI port or the I3C port (R515). -/
inductive Requester where
  | fn (f : Fin 32)
  | mc (i : Fin 4)
  | sup (t : Fin 128)
  | spi
  | i3c
deriving DecidableEq, Repr

/-- Size of a register access in bytes (R8). -/
inductive AccSize where
  | byte | half | word
deriving DecidableEq, Repr

/-- Response codes of the fabric. -/
inductive Resp where
  | okay | parerr | decerr | denied | fenced | timeout
deriving DecidableEq, Repr

/-- A palette of a timeline, named by the slot it serves. -/
structure PalRef where
  tl : Fin 64
  slot : BitVec 32
deriving DecidableEq, Repr

/-- A task of a palette. -/
structure TaskRef where
  tl : Fin 64
  slot : BitVec 32
  id : Fin 8192
deriving DecidableEq, Repr

/-- Why a tile is lost (R496, R505): retirement or the fault limit, or a fault of its supervisor or router. -/
inductive TileFault where
  | limit | parity | illegal | router
deriving DecidableEq, Repr

/-- Kind of a tile fault (R505). -/
def TileFault.code : TileFault → Nat
  | .limit => 0
  | .parity => 1
  | .illegal => 3
  | .router => 7

/-- How a request is answered: by its target; by TIMEOUT because the request, or its response, is lost (R314); by the PCIe side
with an error. -/
inductive Delivery where
  | delivered | requestLost | responseLost | hostErr
deriving DecidableEq, Repr

/-- The kinds of units that take jobs. -/
inductive JobKind where
  | ldpcDec | ldpcEnc | polar | turbo | fft
deriving DecidableEq, Repr

/-- Number of a kind: KIND of its descriptors, 6 for the FFT units. -/
def JobKind.code : JobKind → Nat
  | .ldpcDec => 1
  | .ldpcEnc => 2
  | .polar => 3
  | .turbo => 4
  | .fft => 6

/-- Who posts a job: the task's engine, or a DMA channel. -/
inductive Poster where
  | eng (e : Fin 1024)
  | dma (c : Fin 128)
deriving DecidableEq, Repr

/-- The commands of the block: one constructor per row of the table of operations and events. -/
inductive Instr where
  /-- TL_BOUNDARY, R50: An enabled timeline's boundary fires, which activates the chosen palette and advances TL_NEXT and TL_SLOTNUM. -/
  | tlBoundary (t : Fin 64)
  /-- TL_PREPARE_POINT, R56: At TL_PREP before a slot start, the timeline unit walks its ring and chooses a valid entry, a repeat entry or an empty slot. -/
  | tlPreparePoint (t : Fin 64)
  /-- PALETTE_BIND, R57: The chosen entry and palette are checked, INGRESS and EGRESS buffers are bound to streams, and delivery of records begins. -/
  | paletteBind (t : Fin 64)
  /-- RECORD_DELIVERY, R68: A task record is checked and delivered to its home tile or the next qualifying tile of its mask, or the task is parked. -/
  | recordDelivery
  /-- QFULL_RELEASE, R69: Space frees in a full tile queue, so the held records of that palette are delivered again. -/
  | qfullRelease (p : PalRef)
  /-- PARKED_TASK_DELIVERY, R70: A tile in a parked task's mask returns through the ready handshake, so the task is delivered. -/
  | parkedTaskDelivery (k : TaskRef)
  /-- TASK_START_TIME, R71: The copy of TIM_RAW reaches a queued task's slot start plus START, which may make the task ready. -/
  | taskStartTime (k : TaskRef)
  /-- INGRESS_CLOSE, R64: An INGRESS buffer reaches its CLOSE time and closes, complete or incomplete. -/
  | ingressClose (p : PalRef) (idx : Fin 16384)
  /-- TASK_DISPATCH, R72: A supervisor with a READY engine dispatches the first ready task by priority, deadline, slot and TASK_ID, and binds its buffers. -/
  | taskDispatch (t : Fin 128) (e : Fin 8)
  /-- PROGRAM_LOAD_DONE, R76: A program image load from the cache or from HBM ends, and the IMG_CRC check either passes or misses the task with PROG_BAD. -/
  | programLoadDone (e : Fin 1024)
  /-- DMA_TASK_DISPATCH, R342: A DMA-class task is dispatched once free dispatch channels exist for all its pairs, which are programmed in register mode. -/
  | dmaTaskDispatch (t : Fin 128)
  /-- PARAM_ENTRY_READ, R343: The read of a PARAM entry for a DMA-class pair returns, and it sets COUNT or misses the task. -/
  | paramEntryRead (k : TaskRef) (j : Fin 4) (out lost : Bool)
  /-- STEAL, R81: A thief supervisor takes one task of a class from a victim tile in mesh-distance order. -/
  | steal (thief : Fin 128) (cls : Fin 4)
  /-- TASK_COMPLETION, R77: A task has executed TEND and all its writes and jobs have finished, so it is judged on time and committed, or missed. -/
  | taskCompletion (e : Fin 1024)
  /-- HARQ_COMMIT_RESPONSE, R254: The response to a HARQ commit header write arrives, which lets the task resolve or counts COMMIT_ERR. -/
  | harqCommitResponse (k : TaskRef) (lost performed : Bool)
  /-- TASK_DEADLINE, R83: A task's absolute deadline is reached, so it is missed, or its engine or channels are stopped. -/
  | taskDeadline (k : TaskRef)
  /-- TSK_LIMIT_EXPIRY, R78: TSU_TSK_LIMIT expires on a running task, which is treated as an engine fault, or misses a recoat run with OVERRUN. -/
  | tskLimitExpiry (e : Fin 1024)
  /-- ENGINE_HALTED, R127: A halted engine has drained at a bundle boundary, so the stopping task resolves and the engine returns to READY. -/
  | engineHalted (e : Fin 1024)
  /-- SLOT_DONE, R89: When the last task of a palette resolves, or a slot is refused or late, the status block is written and a SLOT_DONE completion is posted. -/
  | slotDone (p : PalRef)
  /-- TL_ENABLE, R52: A write of TL_CTL.EN from 0 to 1 loads TL_NEXT from TL_START and skips periods in the past. -/
  | tlEnable (w : Requester) (n : Fin 64)
  /-- TL_DISABLE, R53: A write of TL_CTL.EN from 1 to 0 stops the timeline's boundaries and prepare points. -/
  | tlDisable (w : Requester) (n : Fin 64)
  /-- TLN_ENABLE, R566: A write of TLN_CTL.EN from 0 to 1 re-bases the TL_NEXT of every enabled timeline. -/
  | tlnEnable (w : Requester)
  /-- TLN_DISABLE, R566: A write of TLN_CTL.EN from 1 to 0 stops every prepare point and boundary. -/
  | tlnDisable (w : Requester)
  /-- TL_TAIL_WRITE, R54: In direct mode the host writes TL_TAIL, which publishes ring entries. -/
  | tlTailWrite (w : Requester) (n : Fin 64) (v : Word)
  /-- NOP, R186: The engine does nothing in this slot. -/
  | nop (e : Fin 1024) (bad inB : Bool)
  /-- TEND, R128: The task ends, and no later bundle issues. -/
  | tend (e : Fin 1024) (bad : Bool)
  /-- RTE, R124: The engine returns from its handler to EPC and restores IE. -/
  | rte (e : Fin 1024) (bad : Bool)
  /-- ISYNC, R103: Earlier stores to the image become visible to fetch, and the loop buffer empties. -/
  | isync (e : Fin 1024) (bad : Bool)
  /-- BRK, R186: The engine raises BRK. -/
  | brk (e : Fin 1024) (bad : Bool)
  /-- TRAP, R186: The engine raises TRAP after the bundle completes, with EADDR = imm8. -/
  | trap (e : Fin 1024) (bad : Bool) (imm : Fin 256)
  /-- JR, R186: The engine jumps to the address held in a register. -/
  | jr (e : Fin 1024) (bad : Bool) (rs : Fin 64)
  /-- ADD_SUB, R185: Scalar sum or difference modulo 2^32. -/
  | addSub (e : Fin 1024) (sub : Bool) (rd ra rb : Fin 64)
  /-- AND_OR_XOR_ANDN, R185: Scalar bitwise operations. -/
  | andOrXorAndn (e : Fin 1024) (op : Fin 4) (rd ra rb : Fin 64)
  /-- SLL_SRL_SRA, R185: Scalar register shifts. -/
  | sllSrlSra (e : Fin 1024) (op : Fin 3) (rd ra rb : Fin 64)
  /-- ADDS_SUBS, R185: Saturating scalar sum or difference. -/
  | addsSubs (e : Fin 1024) (sub : Bool) (rd ra rb : Fin 64)
  /-- MIN_MAX, R185: Signed scalar minimum or maximum. -/
  | minMax (e : Fin 1024) (mx : Bool) (rd ra rb : Fin 64)
  /-- SEQ_SNE, R185: Scalar equality compares. -/
  | seqSne (e : Fin 1024) (ne : Bool) (rd ra rb : Fin 64)
  /-- SLT_SLTU, R185: Scalar less-than compares. -/
  | sltSltu (e : Fin 1024) (u : Bool) (rd ra rb : Fin 64)
  /-- SLE_SLEU, R185: Scalar less-or-equal compares. -/
  | sleSleu (e : Fin 1024) (u : Bool) (rd ra rb : Fin 64)
  /-- MUL, R185: Low 32 bits of a scalar product. -/
  | mul (e : Fin 1024) (rd ra rb : Fin 64)
  /-- MULH_MULHU, R185: High 32 bits of a scalar product. -/
  | mulhMulhu (e : Fin 1024) (u : Bool) (rd ra rb : Fin 64)
  /-- MULQ, R185: Q1.15 multiply with rounding and saturation. -/
  | mulq (e : Fin 1024) (rd ra rb : Fin 64)
  /-- NORMS, R185: Redundant sign bits of a 32-bit value. -/
  | norms (e : Fin 1024) (bad : Bool) (rd ra : Fin 64)
  /-- ADDI_SLTI, R185: Operations with a sign-extended immediate. -/
  | addiSlti (e : Fin 1024) (slt : Bool) (rd ra : Fin 64) (imm : BitVec 14)
  /-- ANDI_ORI_XORI_SLTIU, R185: Operations with a zero-extended immediate. -/
  | andiOriXoriSltiu (e : Fin 1024) (op : Fin 4) (rd ra : Fin 64) (imm : BitVec 14)
  /-- SLLI_SRLI_SRAI, R185: Scalar shifts by an immediate. -/
  | slliSrliSrai (e : Fin 1024) (bad : Bool) (op : Fin 4) (rd ra : Fin 64) (sh : Fin 32)
  /-- MOVI, R185: Loads a sign-extended 20-bit immediate. -/
  | movi (e : Fin 1024) (rd : Fin 64) (imm : BitVec 20)
  /-- MOVHI, R185: Sets the upper 16 bits of a register. -/
  | movhi (e : Fin 1024) (bad : Bool) (rd : Fin 64) (imm : BitVec 16)
  /-- BEQZ_BNEZ_BLTZ_BGEZ_BGTZ_BLEZ, R186: Conditional branch on a G register compared with zero. -/
  | beqzBnezBltzBgezBgtzBlez (e : Fin 1024) (cond : Fin 8) (gs : Fin 32) (off : BitVec 18)
  /-- J, R186: Unconditional jump. -/
  | j (e : Fin 1024) (bad : Bool) (off : BitVec 24)
  /-- CALL, R186: The engine writes G31 and jumps. -/
  | call (e : Fin 1024) (bad : Bool) (off : BitVec 24)
  /-- LOOP, R115: Sets up a hardware loop level, or branches past the body when the count is 0. -/
  | loop (e : Fin 1024) (n : Fin 4) (rot g : Bool) (count : BitVec 12) (last : BitVec 10)
  /-- MTS, R186: Writes a special register. -/
  | mts (e : Fin 1024) (bad : Bool) (sr : Fin 128) (rs : Fin 64)
  /-- MFS, R186: Reads a special register. -/
  | mfs (e : Fin 1024) (bad : Bool) (rd : Fin 64) (sr : Fin 128)
  /-- LD, R189: Scalar load of a byte, halfword, word or F register. -/
  | ld (e : Fin 1024) (rt : Fin 64) (an : Fin 16) (mode sz : Fin 8) (disp : BitVec 10)
  /-- ST, R189: Scalar store. -/
  | st (e : Fin 1024) (rt : Fin 64) (an : Fin 16) (mode sz : Fin 8) (disp : BitVec 10)
  /-- VLD, R156: Contiguous vector load. -/
  | vld (e : Fin 1024) (vd : Fin 32) (an : Fin 16) (mode pg : Fin 8) (disp : BitVec 11)
  /-- VLD_FF, R160: First-faulting contiguous vector load. -/
  | vldFf (e : Fin 1024) (vd : Fin 32) (an : Fin 16) (mode pg : Fin 8) (disp : BitVec 11)
  /-- VSTR, R156: Contiguous vector store. -/
  | vstr (e : Fin 1024) (vs : Fin 32) (an : Fin 16) (mode pg : Fin 8) (disp : BitVec 11)
  /-- LD2_LD3_LD4, R161: Structure load of n-field records. -/
  | ld2Ld3Ld4 (e : Fin 1024) (vd : Fin 32) (an : Fin 16) (mode pg : Fin 8) (nf : Fin 4) (disp : BitVec 9)
  /-- ST2_ST3_ST4, R161: Structure store of n-field records. -/
  | st2St3St4 (e : Fin 1024) (vs : Fin 32) (an : Fin 16) (mode pg : Fin 8) (nf : Fin 4) (disp : BitVec 9)
  /-- VGATH, R163: All-or-nothing gather. -/
  | vgath (e : Fin 1024) (bad : Bool) (vd : Fin 32) (an : Fin 16) (vi : Fin 32) (pg : Fin 8)
  /-- VGATH_FF, R160: First-faulting gather. -/
  | vgathFf (e : Fin 1024) (bad : Bool) (vd : Fin 32) (an : Fin 16) (vi : Fin 32) (pg : Fin 8)
  /-- VSCAT, R163: Scatter. -/
  | vscat (e : Fin 1024) (bad ff : Bool) (vs : Fin 32) (an : Fin 16) (vi : Fin 32) (pg : Fin 8)
  /-- VADD_VSUB, R194: Vector sum or difference modulo 2^size. -/
  | vaddVsub (e : Fin 1024) (sub : Bool) (vd va vb : Fin 32) (pg t : Fin 8)
  /-- VADDS_VSUBS, R194: Saturating vector sum or difference. -/
  | vaddsVsubs (e : Fin 1024) (sub : Bool) (vd va vb : Fin 32) (pg t : Fin 8)
  /-- VAND_VOR_VXOR_VANDN, R194: Vector bitwise operations. -/
  | vandVorVxorVandn (e : Fin 1024) (op : Fin 4) (vd va vb : Fin 32) (pg t : Fin 8)
  /-- VMOV, R194: Vector copy. -/
  | vmov (e : Fin 1024) (bad : Bool) (vd va : Fin 32) (pg t : Fin 8)
  /-- VMIN_VMAX, R194: Vector signed minimum or maximum. -/
  | vminVmax (e : Fin 1024) (mx : Bool) (vd va vb : Fin 32) (pg t : Fin 8)
  /-- VABS_VNEG, R194: Saturating vector absolute value or negation. -/
  | vabsVneg (e : Fin 1024) (bad neg : Bool) (vd va : Fin 32) (pg t : Fin 8)
  /-- VCONJ, R194: Complex conjugate. -/
  | vconj (e : Fin 1024) (bad : Bool) (vd va : Fin 32) (pg t : Fin 8)
  /-- VSHL_VSHR_VSHRL, R194: Vector shifts by an immediate. -/
  | vshlVshrVshrl (e : Fin 1024) (op : Fin 3) (vd va : Fin 32) (n : Fin 32) (pg t : Fin 8)
  /-- VSHLS, R194: Saturating vector left shift. -/
  | vshls (e : Fin 1024) (vd va : Fin 32) (n : Fin 32) (pg t : Fin 8)
  /-- VSHRR, R194: Rounded vector right shift. -/
  | vshrr (e : Fin 1024) (vd va : Fin 32) (n : Fin 32) (pg t : Fin 8)
  /-- VNRW, R194: Narrowing with rounding and saturation. -/
  | vnrw (e : Fin 1024) (h : Bool) (vd va : Fin 32) (n : Fin 32) (pg t : Fin 8)
  /-- VSEL, R194: Selects vector elements by a predicate. -/
  | vsel (e : Fin 1024) (vd va vb : Fin 32) (pn t : Fin 8)
  /-- VWID, R194: Sign-extending widening. -/
  | vwid (e : Fin 1024) (bad w : Bool) (vd va : Fin 32) (pg t : Fin 8)
  /-- VNORM_VEXP, R194: NORM or EXP of each element. -/
  | vnormVexp (e : Fin 1024) (bad ex : Bool) (vd va : Fin 32) (pg t : Fin 8)
  /-- VZIP, R194: Interleaves two vectors. -/
  | vzip (e : Fin 1024) (bad : Bool) (vd va vb : Fin 32) (t : Fin 8)
  /-- VUZP, R194: De-interleaves even or odd elements. -/
  | vuzp (e : Fin 1024) (bad odd : Bool) (vd va : Fin 32) (t : Fin 8)
  /-- VPERM, R194: Permutes vector elements by an index vector. -/
  | vperm (e : Fin 1024) (vd va vi : Fin 32) (pg t : Fin 8)
  /-- VDUP, R194: Duplicates one element into every active element. -/
  | vdup (e : Fin 1024) (bad : Bool) (vd va : Fin 32) (k : Fin 512) (pg t : Fin 8)
  /-- VSLD, R194: Extracts elements from the concatenation of two vectors. -/
  | vsld (e : Fin 1024) (bad : Bool) (vd va vb : Fin 32) (k : Fin 1024)
  /-- VCMPCC_V, R195: Vector compare into a V register. -/
  | vcmpccV (e : Fin 1024) (cond : Fin 32) (vd va vb : Fin 32) (pg t : Fin 8)
  /-- VCMPCC_P, R195: Vector compare into a predicate. -/
  | vcmpccP (e : Fin 1024) (bad : Bool) (cond : Fin 32) (pd : Fin 8) (va vb : Fin 32) (pg t : Fin 8)
  /-- PAND_POR_PXOR_PANDN, R195: Predicate bitwise operations. -/
  | pandPorPxorPandn (e : Fin 1024) (bad : Bool) (op : Fin 4) (pd pa pb : Fin 8)
  /-- PNOT, R195: Predicate NOT. -/
  | pnot (e : Fin 1024) (bad : Bool) (pd pa : Fin 8)
  /-- PWHILE, R195: Builds a loop-tail predicate. -/
  | pwhile (e : Fin 1024) (bad : Bool) (pd : Fin 8) (gs gt : Fin 32)
  /-- PCNT, R195: Counts the active elements of a predicate. -/
  | pcnt (e : Fin 1024) (bad : Bool) (gd : Fin 32) (pa : Fin 8)
  /-- PFIRST, R195: Gives the first inactive element of a predicate. -/
  | pfirst (e : Fin 1024) (bad : Bool) (gd : Fin 32) (pa : Fin 8)
  /-- PMOV_TO_V, R195: Copies a predicate into a vector register. -/
  | pmovToV (e : Fin 1024) (bad : Bool) (vd : Fin 32) (pa : Fin 8)
  /-- PMOV_TO_P, R195: Copies vector bytes into a predicate. -/
  | pmovToP (e : Fin 1024) (bad : Bool) (pd : Fin 8) (va : Fin 32)
  /-- VMAC_VMSU_VMPY, R196: Multiply-accumulate forms .B to .CJ. -/
  | vmacVmsuVmpy (e : Fin 1024) (bad : Bool) (kind ac : Fin 4) (va vb : Fin 32) (pg : Fin 8) (form : Fin 5)
  /-- VMACS_VMSUS_VMPYS, R196: Scalar-element multiply-accumulate forms. -/
  | vmacsVmsusVmpys (e : Fin 1024) (bad : Bool) (kind ac : Fin 4) (va vb : Fin 32) (pg : Fin 8) (form : Fin 3) (k : Fin 16)
  /-- VRAC, R167: Accumulator readout with rounding and saturation. -/
  | vrac (e : Fin 1024) (bad : Bool) (vd : Fin 32) (ac x : Fin 4) (bk : Fin 8) (sh : Fin 32)
  /-- VACCLR, R168: Clears an accumulator. -/
  | vacclr (e : Fin 1024) (bad : Bool) (ac : Fin 4)
  /-- VACMOV, R168: Copies one accumulator to another. -/
  | vacmov (e : Fin 1024) (bad : Bool) (acd acs : Fin 4)
  /-- VRACX, R168: Raw readout of an accumulator. -/
  | vracx (e : Fin 1024) (bad : Bool) (vd : Fin 32) (ac : Fin 4)
  /-- VWAC, R168: Writes an accumulator from a vector. -/
  | vwac (e : Fin 1024) (bad : Bool) (ac : Fin 4) (vs : Fin 32)
  /-- EXPB, R170: Computes block exponents. -/
  | expb (e : Fin 1024) (bad : Bool) (vd va : Fin 32) (g24 : Bool) (m1 : Fin 16)
  /-- SHRB, R171: Shifts each block by its exponent. -/
  | shrb (e : Fin 1024) (bad : Bool) (vd va vs : Fin 32) (g24 : Bool) (m1 : Fin 16)
  /-- VPKM, R172: Packs mantissas. -/
  | vpkm (e : Fin 1024) (bad : Bool) (vd va : Fin 32) (m1 : Fin 16)
  /-- VUPKM, R172: Unpacks mantissas. -/
  | vupkm (e : Fin 1024) (bad : Bool) (vd va : Fin 32) (m1 : Fin 16)
  /-- FADD_FSUB_FMUL, R198: Floating-point add, subtract or multiply. -/
  | faddFsubFmul (e : Fin 1024) (bad p : Bool) (op : Fin 3) (fd fa fb : Fin 32)
  /-- FMA, R198: Fused multiply-add. -/
  | fma (e : Fin 1024) (p : Bool) (fd fa fb fc : Fin 32)
  /-- FDIV, R198: Floating-point divide. -/
  | fdiv (e : Fin 1024) (bad p : Bool) (fd fa fb : Fin 32)
  /-- FSQRT, R198: Floating-point square root. -/
  | fsqrt (e : Fin 1024) (bad p : Bool) (fd fa : Fin 32)
  /-- FMIN_FMAX, R198: Floating-point minimum or maximum. -/
  | fminFmax (e : Fin 1024) (bad p mx : Bool) (fd fa fb : Fin 32)
  /-- FABS_FNEG, R198: Floating-point absolute value or negation. -/
  | fabsFneg (e : Fin 1024) (bad p neg : Bool) (fd fa : Fin 32)
  /-- FMOV, R198: Floating-point copy. -/
  | fmov (e : Fin 1024) (bad p : Bool) (fd fa : Fin 32)
  /-- FCMP, R198: Floating-point compare into a G register. -/
  | fcmp (e : Fin 1024) (bad p : Bool) (cond : Fin 8) (gd fa fb : Fin 32)
  /-- FCVT, R198: Floating-point conversion. -/
  | fcvt (e : Fin 1024) (bad p : Bool) (code d a : Fin 32)
  /-- FMVGF, R198: Moves a G register into an F register. -/
  | fmvgf (e : Fin 1024) (bad : Bool) (fd gs : Fin 32)
  /-- FMVFG, R198: Moves an F register into a G register. -/
  | fmvfg (e : Fin 1024) (bad : Bool) (gd fa : Fin 32)
  /-- MTC, R209: Writes a coprocessor register. -/
  | mtc (e : Fin 1024) (bad : Bool) (port : Fin 4) (cr : Fin 64) (gs : Fin 32)
  /-- MFC, R209: Reads a coprocessor register. -/
  | mfc (e : Fin 1024) (bad : Bool) (port : Fin 4) (cr : Fin 64) (gd : Fin 32)
  /-- CPSAVE, R210: Writes a coprocessor state image to X or Y. -/
  | cpsave (e : Fin 1024) (bad : Bool) (port : Fin 4) (an : Fin 16)
  /-- CPLOAD, R210: Loads a coprocessor state image. -/
  | cpload (e : Fin 1024) (bad : Bool) (port : Fin 4) (an : Fin 16)
  /-- CMZERO, R217: Sets a CM register to zero. -/
  | cmzero (e : Fin 1024) (bad : Bool) (cd : Fin 16)
  /-- CMIDENT, R217: Sets a CM register to the identity. -/
  | cmident (e : Fin 1024) (bad : Bool) (cd : Fin 16)
  /-- CMMOV, R217: Copies a CM register. -/
  | cmmov (e : Fin 1024) (bad : Bool) (cd ca : Fin 16)
  /-- CMHERM, R217: Hermitian transpose. -/
  | cmherm (e : Fin 1024) (bad : Bool) (cd ca : Fin 16)
  /-- CMADD_CMSUB, R217: Saturating matrix add or subtract. -/
  | cmaddCmsub (e : Fin 1024) (bad sub : Bool) (cd ca cb : Fin 16)
  /-- CMDIAG, R217: Adds CMSIG to the diagonal. -/
  | cmdiag (e : Fin 1024) (bad : Bool) (cd ca : Fin 16)
  /-- CMMUL, R215: Matrix product. -/
  | cmmul (e : Fin 1024) (bad : Bool) (cd ca cb : Fin 16)
  /-- CMMULH, R215: Product ca^H·cb. -/
  | cmmulh (e : Fin 1024) (bad : Bool) (cd ca cb : Fin 16)
  /-- CMMULBH, R215: Product ca·cb^H. -/
  | cmmulbh (e : Fin 1024) (bad : Bool) (cd ca cb : Fin 16)
  /-- CMMAC, R215: Accumulates a matrix product into MA. -/
  | cmmac (e : Fin 1024) (bad : Bool) (ca cb : Fin 16)
  /-- CMMACH, R215: Accumulates ca^H·cb into MA. -/
  | cmmach (e : Fin 1024) (bad : Bool) (ca cb : Fin 16)
  /-- CMCLRA, R217: Clears MA. -/
  | cmclra (e : Fin 1024) (bad : Bool)
  /-- CMRDA, R215: Reads MA out to a CM register. -/
  | cmrda (e : Fin 1024) (bad : Bool) (cd : Fin 16) (sh : Fin 64)
  /-- CMCHOL, R216: Cholesky factorisation. -/
  | cmchol (e : Fin 1024) (bad : Bool) (cd ca : Fin 16)
  /-- CMINVL, R216: Lower-triangular inverse. -/
  | cminvl (e : Fin 1024) (bad : Bool) (cd ca : Fin 16)
  /-- CMINV, R216: Hermitian positive-definite inverse. -/
  | cminv (e : Fin 1024) (bad : Bool) (cd ca : Fin 16)
  /-- CMLD, R213: Loads a CM register from a vector segment. -/
  | cmld (e : Fin 1024) (bad : Bool) (cd : Fin 16) (va : Fin 32) (j : Fin 32)
  /-- CMST, R217: Stores a CM register into a vector segment. -/
  | cmst (e : Fin 1024) (bad : Bool) (vd : Fin 32) (ca : Fin 16) (j : Fin 32)
  /-- BUCRC, R222: Feeds bytes into the running CRC. -/
  | bucrc (e : Fin 1024) (bad : Bool) (va gn : Fin 32)
  /-- BUCRCB, R222: Feeds bits into the running CRC. -/
  | bucrcb (e : Fin 1024) (bad : Bool) (va gn : Fin 32)
  /-- BUSEQ, R220: Generates Gold sequence bytes. -/
  | buseq (e : Fin 1024) (bad : Bool) (vd gn : Fin 32)
  /-- BUSCR, R222: Scrambles data with the sequence. -/
  | buscr (e : Fin 1024) (bad : Bool) (vd va gn : Fin 32)
  /-- BUSCRL, R222: Descrambles LLRs with the sequence. -/
  | buscrl (e : Fin 1024) (bad : Bool) (vd va gn : Fin 32)
  /-- BUSKIP, R222: Advances the sequence generator. -/
  | buskip (e : Fin 1024) (bad : Bool) (gn : Fin 32)
  /-- BUBIL, R221: Bit interleaver. -/
  | bubil (e : Fin 1024) (bad : Bool) (vd va gl qm : Fin 32)
  /-- BUBDL, R221: LLR de-interleaver. -/
  | bubdl (e : Fin 1024) (bad : Bool) (vd va gl qm : Fin 32)
  /-- DMAP, R227: Soft demapping on the tile's CP3, which accepts or refuses the instruction at E1. -/
  | dmap (e : Fin 1024) (bad : Bool) (vd va vb : Fin 32)
  /-- CP3_FREE, R225: CP3's busy period ends and it becomes FREE. -/
  | cp3Free (t : Fin 128)
  /-- COPROCESSOR_DONE, R208: A confirmed coprocessor instruction's computation ends, and the coprocessor state is updated. -/
  | coprocessorDone (e : Fin 1024) (port : Fin 4) (parity : Bool)
  /-- ENGINE_LOAD_RESPONSE, R106: The response to a load from tile memory or a window arrives, which ends the freeze or raises ACCESS or an engine fault. -/
  | engineLoadResponse (e : Fin 1024) (d : Delivery)
  /-- ENGINE_STORE_RESPONSE, R106: A posted store's response arrives, and an error raises an imprecise ACCESS or a STORE_ERR miss. -/
  | engineStoreResponse (e : Fin 1024) (d : Delivery)
  /-- IRQ_TIMER, R119: ECYC[31:0] equals ECMP, which sets EIP.TIMER. -/
  | irqTimer (e : Fin 1024)
  /-- INTERRUPT_ACCEPT, R122: An enabled pending interrupt is accepted at a bundle boundary, and the in-flight results drain. -/
  | interruptAccept (e : Fin 1024)
  /-- HANDLER_ENTRY, R565: After the drain, the engine enters the handler of an exception or interrupt, or halts with an illegal-state fault. -/
  | handlerEntry (e : Fin 1024)
  /-- LDPC_DECODE, R241: An LDPC decode job is posted to a strip job port and checked. -/
  | ldpcDecode (q : Fin 4) (p : Poster) (d : BitVec 512)
  /-- LDPC_ENCODE, R244: An LDPC encode job is posted. -/
  | ldpcEncode (q : Fin 4) (p : Poster) (d : BitVec 512)
  /-- POLAR_DECODE, R245: A polar decode job is posted. -/
  | polarDecode (q : Fin 4) (p : Poster) (d : BitVec 512)
  /-- TURBO_DECODE, R246: A turbo decode job is posted. -/
  | turboDecode (q : Fin 4) (p : Poster) (d : BitVec 512)
  /-- CARRY, R253: A CARRY job that copies a committed HARQ slot is posted. -/
  | carry (q : Fin 4) (turbo : Bool) (p : Poster) (d : BitVec 512)
  /-- FFT_JOB, R289: An FFT job is posted to the FFT job port. -/
  | fftJob (q : Fin 4) (p : Poster) (d : BitVec 512)
  /-- JOB_START, R235: A READY unit starts the first queued job of its kind, or finishes it as LATE. -/
  | jobStart (q : Fin 4) (k : JobKind)
  /-- JOB_ACCESS_RESPONSE, R240: A response to a job's read or write arrives, and an error ends the job with ACCESS or PARERR. -/
  | jobAccessResponse (idx : Fin 16384) (d : Delivery)
  /-- JOB_FINISH, R237: A job's work ends, its ordered writes and completion record are issued, and NOTIFY and the report follow. -/
  | jobFinish (idx : Fin 16384)
  /-- JOB_CANCEL_COMPLETE, R239: No write of a cancelled task's jobs remains outstanding, so the cancellation completes. -/
  | jobCancelComplete (e : Fin 1024)
  /-- FEC_UNIT_FAULT, R257: A coding or FFT unit faults, is fenced, and its job is re-queued for replay or finishes FAULT. -/
  | fecUnitFault (q : Fin 4) (k : JobKind) (u : Fin 8) (illegal : Bool)
  /-- JOB_WATCHDOG, R257: A job runs past FEC_JOB_LIMIT or FFT_JOB_LIMIT, which raises a unit fault. -/
  | jobWatchdog (q : Fin 4) (k : JobKind) (u : Fin 8)
  /-- CXU_ENABLE, R284: A write of CXU_CTL.EN from 0 to 1 samples the configuration, checks it, and starts with an implicit SYNC or sets CFG_ERR. -/
  | cxuEnable (w : Requester) (n : Fin 32)
  /-- CXU_DISABLE, R284: A write of CXU_CTL.EN from 1 to 0 stops the CXU, which closes its block with END. -/
  | cxuDisable (w : Requester) (n : Fin 32)
  /-- CXU_MEM_WRITE, R265: A 64-byte write of 16 samples reaches a MEM-source CXU's input window. -/
  | cxuMemWrite (n : Fin 32) (p : Poster) (d : BitVec 512)
  /-- CXU_SAMPLE, R264: An input sample passes through the NCO, half-band, FIR, fade and power-detector chain, and outputs are written. -/
  | cxuSample (n : Fin 32)
  /-- CXU_BLOCK_HEADER, R272: All sample writes of a block are answered, so its header is written to the header ring. -/
  | cxuBlockHeader (n : Fin 32)
  /-- CXU_SYNC_GO, R279: A write of CXU_SYNC.GO raises a SYNC at the next input sample. -/
  | cxuSyncGo (w : Requester) (n : Fin 32)
  /-- CXU_BANK_SWITCH, R276: A write of CXU_BANK.SWITCH requests a fade to the other bank, now or at SWTIME. -/
  | cxuBankSwitch (w : Requester) (n : Fin 32) (v : Word)
  /-- CXU_COEF_WRITE, R278: A write to a bank coefficient or bank configuration is applied, or refused when the bank is in use. -/
  | cxuCoefWrite (w : Requester) (n : Fin 32) (bankB : Bool) (k : Option (Fin 384)) (v : Word)
  /-- CXU_UNIT_FAULT, R285: A CXU faults, is fenced, reloaded from the shadow and restarted with a SYNC. -/
  | cxuUnitFault (n : Fin 32) (illegal : Bool)
  /-- FLIT_RECEIVE, R312: A router receives a flit, checks its parity, and routes it by its epoch's bank or discards it. -/
  | flitReceive (r : Fin 176) (port : Fin 9) (cls : Fin 5) (first : Bool) (hdr : BitVec 40) (payload : BitVec 512) (hdrOk payOk : Bool) (full : BitVec 32)
  /-- TARGET_REQUEST, R305: A target performs a REQ, WR or PWR packet in arrival order and answers it. -/
  | targetRequest (op : Fin 3) (rclass : Fin 8) (f : Fin 32) (src : Fin 176) (ssub : Fin 8) (tag : Fin 128) (a : BitVec 48) (lenM1 : BitVec 8) (data : BitVec 2048) (be : BitVec 256) (poison bad : Bool)
  /-- HOME_REQUEST, R317: The home of a coherent line serves a request, snooping the holders first. -/
  | homeRequest (c : Fin 132) (op : Fin 4) (a : BitVec 48) (d : BitVec 512) (victim : Option (BitVec 48))
  /-- SNOOP, R301: A cache receives a snoop and answers it on RSP, with data on RD when dirty. -/
  | snoop (c : Fin 132) (a : BitVec 48) (inv : Bool) (d : Option (BitVec 512))
  /-- RESPONSE_TIMEOUT, R314: NOC_RSP_TIMEOUT expires on a non-posted request, and the injection port answers TIMEOUT. -/
  | responseTimeout (f : Fin 32) (src : Fin 176) (ssub : Fin 8) (tag : Fin 128) (a : BitVec 48) (lost : Bool)
  /-- LINK_HEARTBEAT_LOSS, R310: A link's heartbeat is lost, or repeated header parity errors occur, so its ports are isolated and a route-around starts. -/
  | linkHeartbeatLoss (r : Fin 176) (port : Fin 9)
  /-- ROUTE_AROUND_REQUEST, R307: Management firmware requests isolation, which starts or holds a route-around. -/
  | routeAroundRequest (r : Fin 176) (port : Fin 9)
  /-- ROUTE_BANK_INSTALLED, R307: Bank E' and NOC_ALTERED are written, so the injection ports are told to switch. -/
  | routeBankInstalled
  /-- INJECTION_PORTS_SWITCHED, R309: Every injection port uses the new epoch, so the route-around enters DRAIN. -/
  | injectionPortsSwitched (old : Word)
  /-- OLD_EPOCH_DRAINED, R307: NOC_OLDEPOCH_CNT reaches 0, so the old bank is retired and held injections are released. -/
  | oldEpochDrained
  /-- DRAIN_LIMIT_EXPIRY, R310: NOC_DRAIN_LIMIT expires, and old-epoch packets are discarded. -/
  | drainLimitExpiry (posted : List (BitVec 48))
  /-- ROUTE_TABLE_WRITE, R307: A write of NOC_RT_DATA updates the selected entry, or is refused for the current bank. -/
  | routeTableWrite (w : Requester) (v : Word)
  /-- PROBE_CLEAR, R322: A write of PRB_CTL.CLR clears the probe's count and trace index. -/
  | probeClear (w : Requester) (p : Fin 32)
  /-- FENCE_REQUEST, R313: A steward or controller requests a fence of a scope, and a notice is sent. -/
  | fenceRequest (u : BitVec 16)
  /-- FENCE_NOTICE_ACK, R313: The fence notice is acknowledged, so refusal begins and the fence enters DRAINING. -/
  | fenceNoticeAck (u : BitVec 16)
  /-- FENCE_DRAINED, R313: Every accepted request and issued WR has been answered, so the fence reaches FENCED. -/
  | fenceDrained (u : BitVec 16)
  /-- FENCE_LIFT, R313: A lift request reopens the fence after the ready handshake, or is held. -/
  | fenceLift (u : BitVec 16)
  /-- DMA_START, R326: A write of CH_CTRL with START in register mode starts a transfer, or is ignored. -/
  | dmaStart (w : Requester) (c : Fin 128) (v : Word)
  /-- DMA_CHAIN_START, R334: A START with CHAIN = 1 begins a descriptor chain. -/
  | dmaChainStart (w : Requester) (c : Fin 128) (v : Word)
  /-- DMA_STOP, R338: A write of CH_CTRL with STOP stops a running channel as an error, or resets its CRC polynomial. -/
  | dmaStop (w : Requester) (c : Fin 128) (v : Word)
  /-- DMA_DESCRIPTOR_FETCHED, R335: A descriptor read returns and is loaded and run, or the channel halts with BAD_DESC. -/
  | dmaDescriptorFetched (c : Fin 128) (d : Delivery)
  /-- DMA_ACCESS_RESPONSE, R337: A channel's read or write response arrives, and an error stops the channel's issuing. -/
  | dmaAccessResponse (c : Fin 128) (write : Bool) (d : Delivery)
  /-- DMA_DRAIN_DONE, R336: Every response has arrived, so the channel completes IDLE or halts HALTED. -/
  | dmaDrainDone (c : Fin 128)
  /-- DMA_REQUEST_WORD_WRITE, R339: A write to a channel's request word sets its request level. -/
  | dmaRequestWordWrite (c : Fin 128) (p : Poster) (v : Word)
  /-- DMA_WAITREQ_RESUME, R340: A channel in WAITREQ samples its level as 1 and resumes a burst. -/
  | dmaWaitreqResume (c : Fin 128)
  /-- DMA_STOP_TIMEOUT, R347: A channel has not reached a boundary 50 µs after a strip stop request, so it is stopped. -/
  | dmaStopTimeout (c : Fin 128)
  /-- DMA_UNIT_FAULT, R348: A DMA engine faults, and its channels halt with FAULT before it is fenced and restored. -/
  | dmaUnitFault (d : Fin 8) (illegal : Bool)
  /-- LANE_ENABLE, R363: A write of LN_CTL.EN from 0 to 1 turns the transmitter on and enters IDLE. -/
  | laneEnable (w : Requester) (l : Fin 96)
  /-- LANE_DISABLE, R363: A write of LN_CTL.EN from 1 to 0 turns the lane off and drops its streams. -/
  | laneDisable (w : Requester) (l : Fin 96)
  /-- SIGNAL_PRESENT, R363: Signal is present for 1 µs in IDLE, so the attempt timer starts and the lane enters ALIGN. -/
  | signalPresent (l : Fin 96)
  /-- SIGNAL_LOST, R363: Signal is lost during training, and the lane returns to IDLE without counting an attempt. -/
  | signalLost (l : Fin 96)
  /-- BLOCK_RECEIVE, R359: A 66-bit block is received and its header checked. -/
  | blockReceive (l : Fin 96) (hdr : BitVec 2) (payload : BitVec 64)
  /-- BLOCK_LOCK, R360: 64 consecutive valid headers declare block lock, and CAPS is sent. -/
  | blockLock (l : Fin 96)
  /-- BLOCK_LOCK_LOST, R360: 16 invalid headers in 64 blocks lose block lock. -/
  | blockLockLost (l : Fin 96)
  /-- LN_SLIP, R360: A write of LN_SLIP.SLIP slips the receiver by one bit. -/
  | lnSlip (w : Requester) (l : Fin 96)
  /-- CAPS, R362: A partner CAPS message is received and accepted or rejected with NAK. -/
  | caps (l : Fin 96)
  /-- ACK, R363: A partner ACK is received, and handover starts once its CAPS has been accepted. -/
  | ack (l : Fin 96)
  /-- NAK, R363: A partner NAK is received, and the attempt fails with PARTNER_NAK. -/
  | nak (l : Fin 96)
  /-- HANDOVER, R363: The handover countdown ends with C = 1, and frames with SEQ 0 begin. -/
  | handover (l : Fin 96)
  /-- CHECK_PASS, R363: Four consecutive good frames in CHECK bring the lane to UP after R364. -/
  | checkPass (l : Fin 96)
  /-- ATTEMPT_TIMEOUT, R363: The 10 ms attempt timer expires, the attempt fails, and the lane backs off or becomes ABSENT. -/
  | attemptTimeout (l : Fin 96)
  /-- BACKOFF_END, R363: The backoff time ends, and the lane returns to IDLE. -/
  | backoffEnd (l : Fin 96)
  /-- ABSENT_RETRY, R363: Each second in ABSENT with signal present, one training attempt is made. -/
  | absentRetry (l : Fin 96)
  /-- FRAME_RECEIVE, R358: A frame is received, its header recovered, and its CRC checked. -/
  | frameReceive (l : Fin 96) (sub : Fin 64) (line : List Bool)
  /-- SECTION_RECEIVE, R369: A received section is accepted into its stream and placed in its INGRESS buffer, or counted. -/
  | sectionReceive (l : Fin 96)
  /-- FRAME_TRANSMIT, R354: The lane builds, scrambles, stuffs and sends its next frame, stamping it when asked. -/
  | frameTransmit (l : Fin 96) (sub : Fin 64)
  /-- EGRESS_TRANSMIT_TIME, R372: An EGRESS buffer's transmit time T arrives, and its sections or missing headers are queued. -/
  | egressTransmitTime (p : PalRef) (buf : Fin 4096)
  /-- EGRESS_LATE_LIMIT, R372: A section has not begun by T + LNK_EGLATE_LIMIT, so it is replaced by a missing header. -/
  | egressLateLimit (l : Fin 96)
  /-- LOSS_OF_LOCK, R376: A lane in UP loses lock, is fenced, and triggers the bundle's switchover. -/
  | lossOfLock (l : Fin 96)
  /-- SWITCH, R377: A SWITCH control message is received and handled by the bundle switch state machine. -/
  | switch (l : Fin 96)
  /-- SWITCH_ACK, R377: A SWITCH_ACK is received, which completes, refuses or resolves a switch. -/
  | switchAck (l : Fin 96)
  /-- REVERT, R377: A REVERT message is received. -/
  | revert (l : Fin 96)
  /-- REVERT_ACK, R377: A REVERT_ACK is received, which completes the revert and lifts the fence. -/
  | revertAck (l : Fin 96)
  /-- SWITCH_RESEND, R377: An unacknowledged SWITCH or REVERT is resent every 1 µs. -/
  | switchResend (b : Fin 12)
  /-- SWITCH_ACK_TIMEOUT, R377: No SWITCH_ACK arrives within 1 ms, so SWITCH_FAIL is raised and the bundle goes ON_SPARE. -/
  | switchAckTimeout (b : Fin 12)
  /-- SPARE_FORCE, R377: A write of LNK_SPARE_CTL.FORCE switches the lane as on loss of lock. -/
  | spareForce (w : Requester) (b : Fin 12) (v : Word)
  /-- SPARE_REVERT, R379: A write of LNK_SPARE_CTL.REVERT moves a lane's streams back from the spare. -/
  | spareRevert (w : Requester) (b : Fin 12) (v : Word)
  /-- LNK_CTL_WRITE, R352: A write of RATE or PROT is applied with latency defaults loaded, or refused. -/
  | lnkCtlWrite (w : Requester) (b : Fin 12) (v : Word)
  /-- LNK_TXTS_REQ, R374: A write of GO stamps the lane's next frame. -/
  | lnkTxtsReq (w : Requester) (b : Fin 12) (v : Word)
  /-- LNK_TXTS_POP, R374: A write removes the head of the transmit-stamp queue. -/
  | lnkTxtsPop (w : Requester) (b : Fin 12)
  /-- LN_INJ, R381: A write of GO corrupts the next bit, CRC or headers. -/
  | lnInj (w : Requester) (l : Fin 96) (v : Word)
  /-- LN_TEST, R380: A write of LN_CTL.TEST enters or leaves TEST, or is refused. -/
  | lnTest (w : Requester) (l : Fin 96) (on : Bool)
  /-- AON_PLL_LOCK, R35: The AON PLL locks, and TIM_RAW starts counting. -/
  | aonPllLock
  /-- AON_PLL_LOSS, R385: The AON PLL loses lock, and the counter enters holdover. -/
  | aonPllLoss
  /-- LNKALIGN, R386: The link PLL locks, and the LNK copy of time is aligned. -/
  | lnkalign
  /-- LNKALIGN_LOST, R388: The LNK copy loses alignment, and lanes in UP lose lock. -/
  | lnkalignLost
  /-- TIM_WRAP, R391: TIM_RAW wraps, and the device folds the rate correction and adds 2^48 to OFFSET. -/
  | timWrap
  /-- TIM_REBASE, R391: d reaches 2^44 Tc, and the rate correction is folded into OFFSET. -/
  | timRebase
  /-- TIM_RATE, R390: A write of TIM_RATE folds the correction and sets the new rate. -/
  | timRate (w : Requester) (v : Word)
  /-- TIM_STEP, R392: A write of TIM_STEP steps OFFSET. -/
  | timStep (w : Requester) (v : Word)
  /-- TIM_OFFSET_HI, R392: A write of TIM_OFFSET_HI sets OFFSET and TIM_STATUS.SET. -/
  | timOffsetHi (w : Requester) (v : Word)
  /-- TIM_NOW_LO, R393: A read of TIM_NOW_LO captures disciplined time, the raw value and SNAP_SET. -/
  | timNowLo (w : Requester) (bad : Bool)
  /-- TIM_CMP_FIRE, R397: A compare unit's target is reached, so it fires, pulses and steps or disarms. -/
  | timCmpFire (n : Fin 16)
  /-- PPS_PULSE_END, R400: The PPS_OUT pulse width of TIM_PPSOUT_W × 128 Tc expires. -/
  | ppsPulseEnd
  /-- PPS_IN, R401: An edge on PPS_IN is masked or captured as a stamp. -/
  | ppsIn (rising : Bool) (sub : Fin 64)
  /-- TIM_PPSIN_LO, R401: A read of TIM_PPSIN_LO returns the stamp and clears VALID. -/
  | timPpsinLo (w : Requester) (bad : Bool)
  /-- TIM_TTX_CTL, R406: A write of GO sends the mailbox TIME message in a CTRL frame, or sets ERR. -/
  | timTtxCtl (w : Requester) (v : Word)
  /-- TIM_TRX_POP, R407: A write removes the head of the TIME receive queue. -/
  | timTrxPop (w : Requester)
  /-- TIME_REQ, R408: A received TIME_REQ goes to the responder with AUTORESP set, or else into the receive queue. -/
  | timeReq (l : Fin 96)
  /-- TIME_MESSAGE_RECEIVE, R407: A received TIME_RESP or TIME_FOLLOW enters the TIME receive queue with its frame stamp. -/
  | timeMessageReceive (l : Fin 96)
  /-- TIME_RESP, R408: The responder sends a TIME_RESP carrying t2. -/
  | timeResp (l : Fin 96)
  /-- TIME_FOLLOW, R408: The responder sends a TIME_FOLLOW carrying the RESP frame's t3 once that stamp exists. -/
  | timeFollow (l : Fin 96)
  /-- BAR4_READ, R416: A host read through BAR4 is split and issued to device memory. -/
  | bar4Read (f : Fin 32) (tag : BitVec 14) (off : BitVec 36) (n : Fin 4097)
  /-- BAR4_WRITE, R416: A host write through BAR4 is split and issued as non-posted writes. -/
  | bar4Write (f : Fin 32) (off : BitVec 36) (bs : List Byte)
  /-- BAR4_RESPONSE, R417: A fabric response to a BAR4 request arrives, and the PCIe completion or error is produced. -/
  | bar4Response (f : Fin 32) (d : Delivery)
  /-- REGISTER_WRITE, R517: A write to a register with no behaviour of its own enters the shadow and is delivered, or waits for the domain's return. -/
  | registerWrite (w : Requester) (sz : AccSize) (a : BitVec 25) (v : Word)
  /-- QP_ENABLE, R421: A write of QP_CTL.EN from 0 to 1 enables a queue pair, or is refused. -/
  | qpEnable (w : Requester) (q : Fin 64)
  /-- QP_DISABLE, R422: A write of QP_CTL.EN from 1 to 0 stops fetching from the pair. -/
  | qpDisable (w : Requester) (q : Fin 64)
  /-- SQ_TAIL_DB, R423: A doorbell write sets a new SQ tail, or is ignored. -/
  | sqTailDb (f : Fin 32) (q : Fin 64) (v : Word)
  /-- CQ_HEAD_DB, R423: A doorbell write sets a new CQ head, which frees room for waiting completions. -/
  | cqHeadDb (f : Fin 32) (q : Fin 64) (v : Word)
  /-- SQ_FETCH, R424: The queue engines fetch SQ entries in round robin and start commands. -/
  | sqFetch (fail : Bool)
  /-- NOP_COMMAND, R429: The NOP command completes at once with OK. -/
  | nopCommand (f : Fin 32) (q : Fin 64)
  /-- LOAD_PALETTE_VALIDATE, R429: LOAD_PALETTE with OP = VALIDATE starts the validation of a palette. -/
  | loadPaletteValidate (f : Fin 32) (q : Fin 64)
  /-- VALIDATION_DONE, R66: Palette validation ends, and LOAD_PALETTE completes OK with a handle or with VALIDATION. -/
  | validationDone (idx : Fin 4)
  /-- LOAD_PALETTE_RELEASE, R67: LOAD_PALETTE with OP = RELEASE releases a palette once no reference remains. -/
  | loadPaletteRelease (f : Fin 32) (q : Fin 64)
  /-- SLOT_SUBMIT, R430: A SLOT_SUBMIT command writes a ring entry and advances TL_TAIL. -/
  | slotSubmit (f : Fin 32) (q : Fin 64)
  /-- DMA_COMMAND, R431: A DMA command programs and starts a channel. -/
  | dmaCommand (f : Fin 32) (q : Fin 64)
  /-- RESULT, R432: A RESULT command arms a copy of a HOST buffer for a slot. -/
  | result (f : Fin 32) (q : Fin 64)
  /-- RESULT_COPY_DONE, R432: Every write of a RESULT copy has been answered, or a read failed, so RESULT completes. -/
  | resultCopyDone
  /-- MGMT_ANSWER, R433: Management firmware answers a mailbox request, and the MGMT command completes. -/
  | mgmtAnswer (idx : Fin 64) (acode : BitVec 16) (answer : BitVec 128)
  /-- MGMT_TIMEOUT, R433: HIF_MGMT_TIMEOUT expires, and the MGMT command completes with MGMT_TIMEOUT. -/
  | mgmtTimeout (idx : Fin 64)
  /-- GET_POWER, R476: MGMT request that returns the power level, the domain states, the operating points and the caps. -/
  | getPower
  /-- SET_STATE, R476: MGMT request for a domain state. -/
  | setState (no : Bool)
  /-- SET_OP, R476: MGMT request for a sector operating point. -/
  | setOp (no : Bool)
  /-- SET_LEVEL, R476: MGMT request for a device level. -/
  | setLevel (no : Bool)
  /-- GET_THERMAL, R476: MGMT request that returns the hottest temperature and the thermal flags. -/
  | getThermal
  /-- GET_UNIT, R511: MGMT request that returns a unit's fault record. -/
  | getUnit
  /-- RETIRE, R511: MGMT request that retires a unit. -/
  | retire (no : Bool)
  /-- RESTORE, R511: MGMT request that restores a unit through the ready handshake. -/
  | restore (no : Bool)
  /-- SET_SPARE, R511: MGMT request that sets a tile's spare mask. -/
  | setSpare (no : Bool)
  /-- SEP_READ, R511: MGMT request that returns a Sepia entry. -/
  | sepRead
  /-- SEP_MARK, R511: MGMT request that records a MARK event. -/
  | sepMark
  /-- SEP_DUMP, R511: MGMT request that dumps the recorder. -/
  | sepDump (no : Bool)
  /-- GET_VERSION, R538: MGMT request that returns the firmware, boot and ROM versions. -/
  | getVersion
  /-- GET_PON, R538: MGMT request that returns powered seconds and raw time. -/
  | getPon
  /-- RESET_UNIT, R538: MGMT request that resets an engine or a sector. -/
  | resetUnit
  /-- WARM_RESET, R538: MGMT request for a warm reset, which follows 1 ms after the answer. -/
  | warmReset
  /-- COALESCE_TIMER, R435: QP_COAL.TIME elapses with entries pending, so an MSI-X message is sent. -/
  | coalesceTimer (f : Fin 32) (q : Fin 64)
  /-- MSIX_UNMASK, R435: Unmasking a vector with its pending bit set sends the message. -/
  | msixUnmask (w : Requester) (v : Fin 2048)
  /-- FUNCTION_LEVEL_RESET, R437: FLR or clearing VF Enable stops the function's queues, timelines, channels and commands. -/
  | functionLevelReset (f : Fin 32) (vfClear : Bool)
  /-- FLR_COMPLETE, R437: The function's outstanding accesses are done, so its palettes are released and its registers are reset. -/
  | flrComplete (f : Fin 32)
  /-- PCIE_LINK_DOWN, R439: The PCIe Data Link Layer goes down. -/
  | pcieLinkDown
  /-- SWATCH_ACCEPT, R441: A write of SWATCH_CTL.ACCEPT puts the accepted features in force, or sets ERR. -/
  | swatchAccept (w : Requester)
  /-- DOMAIN_STATE_REQUEST, R451: A state request for a sector or strip starts a transition or is held. -/
  | domainStateRequest (w : Requester) (n : Fin 20) (v : Word)
  /-- DOMAIN_GATED, R457: The sector-scope fence is FENCED, so the domain enters RET or OFF. -/
  | domainGated (n : Fin 20)
  /-- WAKE_MEMORY_CLEAR_DONE, R461: The memories of a sector waking from OFF have been cleared, and the generation check and reload follow. -/
  | wakeMemoryClearDone (n : Fin 20)
  /-- POWER_SWITCH_FREE, R464: A power-switch step frees, so a waiting wake proceeds. -/
  | powerSwitchFree (n : Fin 20)
  /-- COMPAT_ENGINE_START, R463: Engines of a compatibility wake start on the PLL exactly 12 µs or 120 µs after the request. -/
  | compatEngineStart (n : Fin 16)
  /-- SECTOR_PLL_LOCK, R462: A sector PLL locks, and a pending clock switch completes. -/
  | sectorPllLock (n : Fin 16)
  /-- PLL_LOCK_TIMEOUT, R464: A sector PLL does not lock within 30 µs, so PLL_FAIL is set. -/
  | pllLockTimeout (n : Fin 16)
  /-- CLOCK_SOURCE_SWITCH, R462: A write of PWR_DOMn_CLK.SRC = 1 moves the sector to its PLL. -/
  | clockSourceSwitch (w : Requester) (n : Fin 16)
  /-- OP_REQUEST, R452: A change of REQ_OP or of the thermal cap requests a new target operating point. -/
  | opRequest (w : Requester) (n : Fin 16) (op : Fin 4)
  /-- AVS_RESPONSE, R454: The regulator reports the commanded VDD_CORE, and the transition continues. -/
  | avsResponse
  /-- AVS_TIMEOUT, R456: The regulator does not report within PWR_AVS_CTL.TIMEOUT, which sets FAIL and ends the transition. -/
  | avsTimeout
  /-- LDO_SETTLED, R454: A sector LDO settles, the divider changes, and the transition completes. -/
  | ldoSettled (n : Fin 16)
  /-- SECTOR_RESET, R528: A write of PWR_DOMn_REQ.RESET resets the sector through OFF and a wake. -/
  | sectorReset (w : Requester) (n : Fin 16)
  /-- IDLE_ENTRY, R449: A domain has had no activity for PWR_IDLE_DLY cycles, so its clock gates. -/
  | idleEntry (n : Fin 20)
  /-- IDLE_WAKE, R449: An arrival ends IDLE, and the clock runs again. -/
  | idleWake (n : Fin 20)
  /-- LEVEL_REQUEST, R465: A write of PWR_LEVEL_REQ.GO takes the device to STANDBY or FULL, or is refused. -/
  | levelRequest (w : Requester) (v : Word)
  /-- SKIM_CHANNEL_SAMPLE, R467: The housekeeping converter samples one channel, and monitor limits are checked. -/
  | skimChannelSample (c : Fin 64) (v : BitVec 16) (isOpen isShort : Bool)
  /-- SKIM_ROUND_END, R470: At the end of each 1 ms round, the diode readings are judged and the thresholds applied. -/
  | skimRoundEnd
  /-- ENGINE_FAULT, R491: An engine reports a fault, and it is fenced, its jobs cancelled and a recoat target loaded. -/
  | engineFault (e : Fin 1024) (parity : Bool) (site : Fin 16) (addr : Word)
  /-- HALT_TIMEOUT, R491: A fenced engine does not halt within 64 cycles, so the steward resets it. -/
  | haltTimeout (e : Fin 1024)
  /-- RECOAT_DISPATCH, R491: The fence, the cancellation and the load are complete, so the task is bound to its snapshot on the target and dispatched. -/
  | recoatDispatch (k : TaskRef)
  /-- TILE_LOST, R496: A tile is lost, its engines are fenced and its tasks are redelivered, recoated or missed. -/
  | tileLost (t : Fin 128) (kind : TileFault)
  /-- READY_HANDSHAKE, R502: A fenced unit passes the generation check, reload and clearing, signals READY and leaves the fence. -/
  | readyHandshake (u : BitVec 16) (gen shadow again : Bool)
  /-- ECP_HALT, R512: A write of ECP_CTL.HALT halts the engine and requeues its task. -/
  | ecpHalt (w : Requester) (e : Fin 1024)
  /-- ECP_RESET, R512: A write of ECP_CTL.RESET resets the engine, which returns through R502. -/
  | ecpReset (w : Requester) (e : Fin 1024)
  /-- ECP_DOORBELL, R512: A write of ECP_CTL.DOORBELL sets EIP.DOORBELL. -/
  | ecpDoorbell (w : Requester) (e : Fin 1024)
  /-- RAS_INJ, R513: A write of RAS_INJ.GO injects a fault into an active unit. -/
  | rasInj (w : Requester) (v : Word)
  /-- RAS_Q_UNIT, R513: A write of RAS_Q_UNIT captures a unit's fault record. -/
  | rasQUnit (w : Requester) (v : Word)
  /-- SEPIA_WRITE, R507: The recorder writes the next queued event, or a DROP entry, and freezes on FATAL. -/
  | sepiaWrite
  /-- SEP_CTL_FREEZE, R508: A write of SEP_CTL.FREEZE raises FATAL with cause 5. -/
  | sepCtlFreeze (w : Requester)
  /-- SEP_CTL_UNFREEZE, R508: A write of SEP_CTL.UNFREEZE from a management core resumes recording. -/
  | sepCtlUnfreeze (w : Requester)
  /-- SEP_CTL_DUMP, R509: A write of SEP_CTL.DUMP starts a dump to the boot flash. -/
  | sepCtlDump (w : Requester)
  /-- SEPIA_DUMP_DONE, R509: A dump has written its entries and header. -/
  | sepiaDumpDone (ok : Bool)
  /-- SEP_MARK_REGISTER, R514: A write of the SEP_MARK register records a MARK event. -/
  | sepMarkRegister (w : Requester) (v : Word)
  /-- SEP_RD_SEL, R510: A write of SEP_RD_SEL captures a Sepia entry, or sets GONE. -/
  | sepRdSel (w : Requester) (v : Word)
  /-- SPI_READ, R522: SPI READ command returns one register word. -/
  | spiRead (a : Word) (bad : Bool)
  /-- SPI_READ_INC, R522: SPI READ_INC command returns ascending words while CS stays low. -/
  | spiReadInc (a : Word) (bads : List Bool)
  /-- SPI_WRITE, R523: SPI WRITE command writes a register as the PF. -/
  | spiWrite (a v : Word) (cut : Bool)
  /-- SPI_STATUS, R522: SPI STATUS command returns MGT_EXT_STAT[7:0] and clears SPI_ERR. -/
  | spiStatus
  /-- SPI_RESERVED_COMMAND, R522: A reserved SPI command is ignored and sets SPI_ERR. -/
  | spiReservedCommand
  /-- I3C_REGISTER_WRITE, R525: An 8-byte I3C private write writes a register. -/
  | i3cRegisterWrite (a v : Word)
  /-- I3C_REGISTER_READ, R525: An I3C address write and private read return a register word. -/
  | i3cRegisterRead (a : Option Word) (bad : Bool)
  /-- ENTDAA, R524: CCC that assigns a dynamic address. -/
  | entdaa (a : BitVec 7)
  /-- SETDASA, R524: CCC that sets the dynamic address from the static one. -/
  | setdasa (a : BitVec 7)
  /-- RSTDAA, R524: CCC that resets the dynamic address. -/
  | rstdaa
  /-- ENEC, R524: CCC that enables events. -/
  | enec (ev : Byte)
  /-- DISEC, R524: CCC that disables events. -/
  | disec (ev : Byte)
  /-- GETPID, R524: CCC that returns the provisional ID. -/
  | getpid
  /-- GETBCR, R524: CCC that returns BCR 0x06. -/
  | getbcr
  /-- GETDCR, R524: CCC that returns DCR 0x00. -/
  | getdcr
  /-- GETSTATUS, R524: CCC that returns the target status. -/
  | getstatus
  /-- GETMWL, R524: CCC that returns the maximum write length. -/
  | getmwl
  /-- GETMRL, R524: CCC that returns the maximum read length. -/
  | getmrl
  /-- POWER_ON_RESET, R549: Supplies ramp up, or VDD_AON falls for 1 µs or more, and the whole device is reset. -/
  | powerOnReset (sel : Fin 4)
  /-- RESET_N, R528: RESET_N held low for at least 1 µs causes a warm reset. -/
  | resetN (sel : Fin 4)
  /-- PERST_N, R530: PERST_N asserts a warm reset or a host reset, depending on PERST_SCOPE. -/
  | perstN
  /-- PERST_RELEASE, R530: On PERST_N release with PERST_SCOPE = 1, HST reconfigures and trains the link. -/
  | perstRelease
  /-- MGT_RST_REQ, R528: A write of MGT_RST_REQ.WARM causes a warm reset. -/
  | mgtRstReq (w : Requester)
  /-- BOOT_IMAGE_LOADED, R532: A primer image has been loaded, so the boot ROM verifies it and either jumps to it or tries the next source. -/
  | bootImageLoaded (ok : Bool)
  /-- MGT_HBOOT_CTL, R535: A write of MGT_HBOOT_CTL.GO fetches the boot image from host memory. -/
  | mgtHbootCtl (w : Requester)
  /-- HBOOT_FETCH_DONE, R535: The host image fetch ends, setting DONE or ERR. -/
  | hbootFetchDone (ok : Bool)
  /-- BYPASS, R537: JTAG BYPASS instruction. -/
  | bypass
  /-- IDCODE, R537: JTAG IDCODE instruction, which returns 0x0A10_2E75. -/
  | idcode
  /-- SAMPLE_PRELOAD, R537: JTAG SAMPLE/PRELOAD instruction. -/
  | samplePreload
  /-- EXTEST, R537: JTAG EXTEST instruction. -/
  | extest
  /-- HIGHZ, R537: JTAG HIGHZ instruction. -/
  | highz
  /-- CLAMP, R537: JTAG CLAMP instruction. -/
  | clamp
  /-- EXTEST_PULSE, R537: IEEE 1149.6 EXTEST_PULSE on AC-coupled pairs. -/
  | extestPulse
  /-- EXTEST_TRAIN, R537: IEEE 1149.6 EXTEST_TRAIN on AC-coupled pairs. -/
  | extestTrain
  /-- PCIE_LINK_UP, R439: The PCIe Data Link Layer comes up again, and HIF_STAT.LINK returns to 1. -/
  | pcieLinkUp
  /-- PCIE_COMPLETION_TIMEOUT, R337: A host read of a DMA channel or queue engine reaches the PCIe completion timeout and ends as TIMEOUT. -/
  | pcieCompletionTimeout (c : Option (Fin 128))
  /-- EGRESS_READ_RESPONSE, R372: The response to the link layer's read of an EGRESS section image arrives, and either the section is queued or a missing header replaces it on an error. -/
  | egressReadResponse (lost : Bool)
  /-- PRBS_CHECKER_LOCK, R380: The PRBS checker of a lane in TEST sees 1,024 error-free bits and sets LOCK. -/
  | prbsCheckerLock (l : Fin 96)
  /-- PRBS_CHECKER_LOCK_LOST, R380: The PRBS checker sees 64 errors in 1,024 bits and loses LOCK. -/
  | prbsCheckerLockLost (l : Fin 96) (errs : BitVec 32)
  /-- FAR_END_BUFFER_SLIP, R380: The far-end loopback elastic buffer slips and sets LN_EVT.FE_OVF. -/
  | farEndBufferSlip (l : Fin 96)
  /-- LN_PRBS, R380: A write of LN_PRBS turns the generator or checker on or off, and CHK changing from 0 to 1 clears LN_PRBS_ERR. -/
  | lnPrbs (w : Requester) (l : Fin 96) (v : Word)
  /-- RESIDENCY_TICK, R466: In each Tc with TIM_RAW[10:0] = 0, the residency counter of each domain's current state increments. -/
  | residencyTick
  /-- HBM_STACK_LOSS, R508: An HBM stack leaves READY while MEM_CTL.EN = 1, which raises FATAL and freezes the recorder. -/
  | hbmStackLoss (idx : Fin 2)
  /-- HBM_STACK_TRAINED, R324: An HBM stack finishes training, and its MEM_STAT.READY bit and pseudo-channel states become READY. -/
  | hbmStackTrained (idx : Fin 2)
  /-- MANAGEMENT_CORE_FAULT, R508: A management core faults, which records FATAL and freezes the recorder. -/
  | managementCoreFault (idx : Fin 4)
  /-- I3C_PRIVATE_WRITE_ERROR, R525: An I3C private write whose length is neither 8 bytes nor a 4-byte address is ignored and sets MGT_EXT_STAT.I3C_ERR. -/
  | i3cPrivateWriteError
deriving DecidableEq, Repr

end Sys2Proof
end

