-- ==== Sys2Proof/Decode.lean ====
section
/-! DEFINITION. Words that spell commands. The table of operations and events gives no row any bits: the block's commands come from its
ports, its pins and its own clocks, and no word spells one. -/

namespace Sys2Proof

/-- The command that a word of `nbits` bits spells by the table: none. (DESIGN CHOICE, safe: log 3) -/
def decodeTableWord (_nbits _w : Nat) : Option Instr := none

end Sys2Proof
end

