-- ==== Sys2Proof/Config.lean ====
section
/-! DEFINITION. What an implementation fixes and the free values: constants with no body, of which no proof can see a
value. -/

namespace Sys2Proof

/-- Free values: the `n`-th open value the machine meets, `w` bits wide. The machine applies it to a counter of its
state, so every use is a fresh value. -/
opaque Config.free (w : Nat) (n : Nat) : BitVec w

/-- Internal value, in units of 2^−32, that CP0 computes for part `i` of a CMCHOL (0), CMINVL (1) or CMINV (2) of a matrix: the
spec gives its precision and not its digits (R216). (DESIGN CHOICE, safe: log 7) -/
opaque Config.cmPart (op m i : Nat) : Int

/-- Is pivot `k`, from 1 on, of the Cholesky factorisation of a matrix at or below 2^−15 (R216)? (DESIGN CHOICE, safe: log 7) -/
opaque Config.cmPivotLow (m k : Nat) : Bool

/-- Device Serial Number, from OTP (R539). (DESIGN CHOICE, safe: log 9) -/
opaque Config.serial : BitVec 64

/-- Temperature grade of the part, from OTP (R539). (DESIGN CHOICE, safe: log 9) -/
opaque Config.grade : Bool

/-- Subsystem vendor and subsystem IDs of the OTP boot configuration (R414, R532). (DESIGN CHOICE, safe: log 9) -/
opaque Config.subsys : BitVec 32

/-- BAR4 present in the OTP boot configuration (R415, R532). (DESIGN CHOICE, safe: log 9) -/
opaque Config.bar4 : Bool

/-- Provisional ID of the I3C target, from OTP (R524). (DESIGN CHOICE, safe: log 9) -/
opaque Config.i3cPid : BitVec 48

/-- Bytes of the answers of GETMWL and GETMRL, which the spec does not state (R524). (DESIGN CHOICE, safe: log 9) -/
opaque Config.i3cMwl : List (BitVec 8)
opaque Config.i3cMrl : List (BitVec 8)

/-- SHA-384 digest of a byte string (R534). (DESIGN CHOICE, safe: log 9) -/
opaque Config.sha384 : List (BitVec 8) → BitVec 384

/-- ECDSA P-384 verification under FIPS 186-5: public key, digest, signature (R534). (DESIGN CHOICE, safe: log 9) -/
opaque Config.ecdsaOk : List (BitVec 8) → BitVec 384 → List (BitVec 8) → Bool

/-- OTP key hash of a slot (R534). (DESIGN CHOICE, safe: log 9) -/
opaque Config.otpKeyHash : Nat → BitVec 384

/-- OTP revocation of a key slot (R534). (DESIGN CHOICE, safe: log 9) -/
opaque Config.otpRevoked : Nat → Bool

/-- OTP SVN_MIN (R534). (DESIGN CHOICE, safe: log 9) -/
opaque Config.otpSvnMin : Nat

/-- OTP BOOTCFG_LOCK (R532). (DESIGN CHOICE, safe: log 9) -/
opaque Config.otpBootCfgLock : Bool

/-- OTP parity check passes (R532). (DESIGN CHOICE, safe: log 9) -/
opaque Config.otpGood : Bool

/-- OTP DEBUG_LOCK (R537). (DESIGN CHOICE, safe: log 9) -/
opaque Config.otpDebugLock : Bool

/-- A row of an NR LDPC base graph (TS 38.212 5.3.2, which R231 names): for each entry, its column and its shift for lifting
size `z`. (DESIGN CHOICE, safe: log 7) -/
opaque Config.ldpcRow (bg z row : Nat) : List (Nat × Nat)

/-- Parity bit `i` that NR LDPC encoding appends to `info` (TS 38.212 5.3.2, which R244 names). (DESIGN CHOICE, safe: log 7) -/
opaque Config.ldpcParity (bg z : Nat) (info : List Bool) (i : Nat) : Bool

/-- Bit `i` of the output path of a polar decode, the CRC among its bits: the spec gives the decoder's functions and not its
order among equal metrics, and the codes are those of TS 38.212 (R245). (DESIGN CHOICE, safe: log 7) -/
opaque Config.polarBit (fields : List Nat) (llr : List (BitVec 8)) (i : Nat) : Bool

/-- Metric of that path (R245). (DESIGN CHOICE, safe: log 7) -/
opaque Config.polarMetric (fields : List Nat) (llr : List (BitVec 8)) : BitVec 16

/-- Decoded bit `i` after `iter` iterations of the turbo decoder over a soft buffer (R246): the spec fixes neither its word
widths nor its initial metrics. (DESIGN CHOICE, safe: log 7) -/
opaque Config.turboBit (k f : Nat) (soft : List (BitVec 8)) (iter i : Nat) : Bool

end Sys2Proof
end

