-- ==== Sys2Proof/Machine/RegMap.lean ====
section
/-! DEFINITION. The BAR0 register map: one descriptor a register, as the register maps and field tables of the
chapters give them (R43 and the rule named at each block), the address of each register and the place of
each field. Replicated registers are one descriptor with strides. -/

namespace Sys2Proof.Machine

/-- Access types of R9. Reserved bits carry no field: they read 0 and ignore writes. -/
inductive Acc where
  | rw | ro | w1c | wo | rc
deriving DecidableEq, Repr

/-- Who may write a register or field that restricts its writers: anyone; management cores; management cores
and holders of the physical function's rights (R40, R526); the same or the tile's own supervisor (R512); the
physical function only. -/
inductive Who where
  | any | mc | mcpf | mcsup | pf
deriving DecidableEq, Repr

/-- One field: its lowest bit, width, access type, the encodings that are not reserved (an empty list: all;
R11) and its writers. -/
structure RField where
  lo : Nat
  width : Nat
  acc : Acc
  ok : List (Nat × Nat)
  who : Who
deriving DecidableEq, Repr

/-- One register or replicated register: BAR0 offset of its first instance, (stride, count) of each index,
reset value, the step of the reset value along the first index, whether each function has its own copy, the
reset value and step for virtual functions, half of an R15 pair (1 low, 2 high, 0 none), writers, fields. -/
structure RegDesc where
  base : Nat
  dims : List (Nat × Nat)
  reset : Nat
  step : Nat
  perFn : Bool
  vfReset : Nat
  fnStep : Nat
  pair : Nat
  who : Who
  fields : List RField
deriving DecidableEq, Repr

/-- A field by its place: lowest bit and width. -/
structure Fld where
  lo : Nat
  width : Nat
deriving DecidableEq, Repr

/-! ## Addresses (BAR0 byte offsets) -/

/-! ### ID, R539 -/
def Reg.ID_DEV : Nat := 0x0
def Reg.ID_REV : Nat := 0x4
def Reg.ID_SUBSYS : Nat := 0x8
def Reg.ID_SERIAL_LO : Nat := 0xc
def Reg.ID_SERIAL_HI : Nat := 0x10
def Reg.ID_ROM : Nat := 0x14
/-! ### SWATCH, R445 -/
def Reg.DEV_SWATCH (k : Nat) : Nat := 0x100 + k * 0x4
def Reg.DRV_SWATCH (k : Nat) : Nat := 0x120 + k * 0x4
def Reg.SWATCH_CTL : Nat := 0x140
def Reg.SWATCH_STAT : Nat := 0x144
/-! ### HIF, R443 -/
def Reg.HIF_ID : Nat := 0x1000
def Reg.HIF_CTL : Nat := 0x1004
def Reg.HIF_STAT : Nat := 0x1008
def Reg.HIF_EVT : Nat := 0x100c
def Reg.HIF_EVT_EN : Nat := 0x1010
def Reg.HIF_EVT_VEC : Nat := 0x1014
def Reg.HIF_MGMT_TIMEOUT : Nat := 0x1018
def Reg.HIF_CMD_CNT : Nat := 0x1030
def Reg.HIF_CPL_LOST_CNT : Nat := 0x1034
def Reg.HIF_DB_ERR_CNT : Nat := 0x1038
def Reg.HIF_BAR4_ERR_CNT : Nat := 0x103c
def Reg.HIF_VF_BLOCKED_CNT : Nat := 0x1040
def Reg.HIF_BAR4_ERR_ADDR_LO : Nat := 0x1048
def Reg.HIF_BAR4_ERR_ADDR_HI : Nat := 0x104c
def Reg.HIF_DEVEVT_SUM : Nat := 0x1050
def Reg.HIF_DEVEVT_VEC : Nat := 0x1054
def Reg.QP_CTL (i : Nat) : Nat := 0x2000 + i * 0x40
def Reg.QP_SIZE (i : Nat) : Nat := 0x2004 + i * 0x40
def Reg.QP_SQ_BASE_LO (i : Nat) : Nat := 0x2008 + i * 0x40
def Reg.QP_SQ_BASE_HI (i : Nat) : Nat := 0x200c + i * 0x40
def Reg.QP_CQ_BASE_LO (i : Nat) : Nat := 0x2010 + i * 0x40
def Reg.QP_CQ_BASE_HI (i : Nat) : Nat := 0x2014 + i * 0x40
def Reg.QP_VEC (i : Nat) : Nat := 0x2018 + i * 0x40
def Reg.QP_COAL (i : Nat) : Nat := 0x201c + i * 0x40
def Reg.QP_SQ_HEAD (i : Nat) : Nat := 0x2020 + i * 0x40
def Reg.QP_SQ_TAIL (i : Nat) : Nat := 0x2024 + i * 0x40
def Reg.QP_CQ_TAIL (i : Nat) : Nat := 0x2028 + i * 0x40
def Reg.QP_CQ_HEAD (i : Nat) : Nat := 0x202c + i * 0x40
def Reg.QP_STAT (i : Nat) : Nat := 0x2030 + i * 0x40
def Reg.QP_INFLIGHT (i : Nat) : Nat := 0x2034 + i * 0x40
def Reg.VF_CTL (f : Nat) : Nat := 0x3000 + f * 0x40
def Reg.VF_STAT (f : Nat) : Nat := 0x3004 + f * 0x40
def Reg.MSIX_PBA (k : Nat) : Nat := 0x7000 + k * 0x4
def Reg.MSIX_ADDR_LO (v : Nat) : Nat := 0x8000 + v * 0x10
def Reg.MSIX_ADDR_HI (v : Nat) : Nat := 0x8004 + v * 0x10
def Reg.MSIX_DATA (v : Nat) : Nat := 0x8008 + v * 0x10
def Reg.MSIX_VCTL (v : Nat) : Nat := 0x800c + v * 0x10
/-! ### TLN, R90 -/
def Reg.TLN_ID : Nat := 0x10000
def Reg.TLN_CTL : Nat := 0x10004
def Reg.TLN_STATUS : Nat := 0x10008
def Reg.TLN_EVT : Nat := 0x1000c
def Reg.TLN_EVT_EN : Nat := 0x10010
def Reg.TLN_DELIV_CNT : Nat := 0x10014
def Reg.TLN_SECOP : Nat := 0x10018
def Reg.TLN_SECOSC : Nat := 0x1001c
def Reg.TLN_DMA_CH (m : Nat) : Nat := 0x10020 + m * 0x4
def Reg.TLN_PARK_CNT : Nat := 0x10030
def Reg.TL_CTL (n : Nat) : Nat := 0x11000 + n * 0x40
def Reg.TL_PERIOD (n : Nat) : Nat := 0x11004 + n * 0x40
def Reg.TL_START_LO (n : Nat) : Nat := 0x11008 + n * 0x40
def Reg.TL_START_HI (n : Nat) : Nat := 0x1100c + n * 0x40
def Reg.TL_ADJ (n : Nat) : Nat := 0x11010 + n * 0x40
def Reg.TL_PREP (n : Nat) : Nat := 0x11014 + n * 0x40
def Reg.TL_ADV (n : Nat) : Nat := 0x11018 + n * 0x40
def Reg.TL_RING_LO (n : Nat) : Nat := 0x1101c + n * 0x40
def Reg.TL_RING_HI (n : Nat) : Nat := 0x11020 + n * 0x40
def Reg.TL_RING_CFG (n : Nat) : Nat := 0x11024 + n * 0x40
def Reg.TL_HEAD (n : Nat) : Nat := 0x11028 + n * 0x40
def Reg.TL_TAIL (n : Nat) : Nat := 0x1102c + n * 0x40
def Reg.TL_SLOTNUM (n : Nat) : Nat := 0x11030 + n * 0x40
def Reg.TL_STAT (n : Nat) : Nat := 0x11034 + n * 0x40
def Reg.TL_EVT (n : Nat) : Nat := 0x11038 + n * 0x40
def Reg.TL_EVT_EN (n : Nat) : Nat := 0x1103c + n * 0x40
def Reg.TL_NEXT_LO (n : Nat) : Nat := 0x12000 + n * 0x20
def Reg.TL_NEXT_HI (n : Nat) : Nat := 0x12004 + n * 0x20
def Reg.TL_LATE_CNT (n : Nat) : Nat := 0x12008 + n * 0x20
def Reg.TL_EMPTY_CNT (n : Nat) : Nat := 0x1200c + n * 0x20
def Reg.TL_OVR_CNT (n : Nat) : Nat := 0x12010 + n * 0x20
def Reg.TL_INVAL_CNT (n : Nat) : Nat := 0x12014 + n * 0x20
def Reg.TL_MISS_CNT (n : Nat) : Nat := 0x12018 + n * 0x20
/-! ### TIM, R410 -/
def Reg.TIM_ID : Nat := 0x20000
def Reg.TIM_CTL : Nat := 0x20004
def Reg.TIM_STATUS : Nat := 0x20008
def Reg.TIM_EVT : Nat := 0x2000c
def Reg.TIM_EVT_EN : Nat := 0x20010
def Reg.TIM_CMP_EVT : Nat := 0x20014
def Reg.TIM_CMP_EVT_EN : Nat := 0x20018
def Reg.TIM_RAW_LO : Nat := 0x20020
def Reg.TIM_RAW_HI : Nat := 0x20024
def Reg.TIM_NOW_LO : Nat := 0x20028
def Reg.TIM_NOW_HI : Nat := 0x2002c
def Reg.TIM_SNAP_RAW_LO : Nat := 0x20030
def Reg.TIM_SNAP_RAW_HI : Nat := 0x20034
def Reg.TIM_OFFSET_LO : Nat := 0x20038
def Reg.TIM_OFFSET_HI : Nat := 0x2003c
def Reg.TIM_RATE : Nat := 0x20040
def Reg.TIM_STEP : Nat := 0x20044
def Reg.TIM_RAW_BASE_LO : Nat := 0x20048
def Reg.TIM_RAW_BASE_HI : Nat := 0x2004c
def Reg.TIM_PARAM_GEN : Nat := 0x20050
def Reg.TIM_WRAP_CNT : Nat := 0x20054
def Reg.TIM_PPSIN_LO : Nat := 0x20060
def Reg.TIM_PPSIN_HI : Nat := 0x20064
def Reg.TIM_PPSIN_STAT : Nat := 0x20068
def Reg.TIM_PPSIN_LAT : Nat := 0x2006c
def Reg.TIM_PPSIN_MASK : Nat := 0x20070
def Reg.TIM_PPSOUT_W : Nat := 0x20074
def Reg.TIM_PPSIN_OVR_CNT : Nat := 0x20078
def Reg.TIM_TTX_MSG (k : Nat) : Nat := 0x20080 + k * 0x4
def Reg.TIM_TTX_CTL : Nat := 0x20090
def Reg.TIM_TTX_STAT : Nat := 0x20094
def Reg.TIM_TRX_MSG (k : Nat) : Nat := 0x200a0 + k * 0x4
def Reg.TIM_TRX_STAMP_LO : Nat := 0x200b0
def Reg.TIM_TRX_STAMP_HI : Nat := 0x200b4
def Reg.TIM_TRX_INFO : Nat := 0x200b8
def Reg.TIM_TRX_POP : Nat := 0x200bc
def Reg.TIM_TRX_OVF_CNT : Nat := 0x200c0
def Reg.TIM_TTX_CNT : Nat := 0x200c4
def Reg.TIM_TRX_CNT : Nat := 0x200c8
def Reg.TIM_AUTORESP_CNT : Nat := 0x200cc
def Reg.TIM_CMP_CTL (n : Nat) : Nat := 0x20100 + n * 0x20
def Reg.TIM_CMP_TGT_LO (n : Nat) : Nat := 0x20104 + n * 0x20
def Reg.TIM_CMP_TGT_HI (n : Nat) : Nat := 0x20108 + n * 0x20
def Reg.TIM_CMP_PERIOD (n : Nat) : Nat := 0x2010c + n * 0x20
def Reg.TIM_CMP_ADJ (n : Nat) : Nat := 0x20110 + n * 0x20
def Reg.TIM_CMP_FIRE_CNT (n : Nat) : Nat := 0x20114 + n * 0x20
def Reg.TIM_CMP_SKIP_CNT (n : Nat) : Nat := 0x20118 + n * 0x20
/-! ### PWR, R477 -/
def Reg.PWR_ID : Nat := 0x30000
def Reg.PWR_CTL : Nat := 0x30004
def Reg.PWR_LEVEL : Nat := 0x30008
def Reg.PWR_LEVEL_REQ : Nat := 0x3000c
def Reg.PWR_EVT : Nat := 0x30010
def Reg.PWR_EVT_EN : Nat := 0x30014
def Reg.PWR_AVS_CTL : Nat := 0x30018
def Reg.PWR_AVS_STAT : Nat := 0x3001c
def Reg.PWR_IDLE_DLY : Nat := 0x30020
def Reg.PWR_XITION_CNT : Nat := 0x30024
def Reg.PWR_HELD_DROP_CNT : Nat := 0x30028
def Reg.PWR_DOM_REQ (n : Nat) : Nat := 0x30100 + n * 0x10
def Reg.PWR_DOM_OP (n : Nat) : Nat := 0x30104 + n * 0x10
def Reg.PWR_DOM_CLK (n : Nat) : Nat := 0x30108 + n * 0x10
def Reg.PWR_DOMAIN_STATE (n : Nat) : Nat := 0x3010c + n * 0x10
def Reg.PWR_RES_LO (n : Nat) (s : Nat) : Nat := 0x31000 + n * 0x20 + s * 0x8
def Reg.PWR_RES_HI (n : Nat) (s : Nat) : Nat := 0x31004 + n * 0x20 + s * 0x8
/-! ### THM, R478 -/
def Reg.THM_ID : Nat := 0x40000
def Reg.THM_CTL : Nat := 0x40004
def Reg.THM_WARN : Nat := 0x40008
def Reg.THM_THROTTLE : Nat := 0x4000c
def Reg.THM_CRIT : Nat := 0x40010
def Reg.THM_STAT : Nat := 0x40014
def Reg.THM_EVT : Nat := 0x40018
def Reg.THM_EVT_EN : Nat := 0x4001c
def Reg.THM_ROUND_CNT : Nat := 0x40020
def Reg.THM_SFAULT_CNT : Nat := 0x40024
def Reg.THM_SENS (i : Nat) : Nat := 0x40100 + i * 0x4
def Reg.THM_SCFG (i : Nat) : Nat := 0x40200 + i * 0x4
def Reg.THM_MON_VAL (k : Nat) : Nat := 0x40300 + k * 0x10
def Reg.THM_MON_LO (k : Nat) : Nat := 0x40304 + k * 0x10
def Reg.THM_MON_HI (k : Nat) : Nat := 0x40308 + k * 0x10
def Reg.THM_CAP (r : Nat) : Nat := 0x40600 + r * 0x4
/-! ### RAS, R513 -/
def Reg.RAS_ID : Nat := 0x50000
def Reg.RAS_CTL : Nat := 0x50004
def Reg.RAS_FLT_LIMIT : Nat := 0x50008
def Reg.RAS_FLT_WINDOW : Nat := 0x5000c
def Reg.RAS_EVT : Nat := 0x50010
def Reg.RAS_EVT_EN : Nat := 0x50014
def Reg.RAS_ERR_INFO : Nat := 0x50018
def Reg.RAS_ERR_ADDR_LO : Nat := 0x5001c
def Reg.RAS_ERR_ADDR_HI : Nat := 0x50020
def Reg.RAS_INJ : Nat := 0x50024
def Reg.RAS_PROG_OVR : Nat := 0x50028
def Reg.RAS_ENG_FLT_CNT : Nat := 0x50040
def Reg.RAS_TILE_FLT_CNT : Nat := 0x50044
def Reg.RAS_PORT_FLT_CNT : Nat := 0x50048
def Reg.RAS_LANE_FLT_CNT : Nat := 0x5004c
def Reg.RAS_UNIT_FLT_CNT : Nat := 0x50050
def Reg.RAS_RECOAT_CNT : Nat := 0x50054
def Reg.RAS_RECOAT_REMOTE_CNT : Nat := 0x50058
def Reg.RAS_RECOAT_MISS_CNT : Nat := 0x5005c
def Reg.RAS_RETIRE_CNT : Nat := 0x50060
def Reg.RAS_DENIED_CNT : Nat := 0x50064
def Reg.RAS_STALE_CNT : Nat := 0x50068
def Reg.RAS_PROG_OVR_CNT : Nat := 0x5006c
def Reg.RAS_GEN_FAIL_CNT : Nat := 0x50070
def Reg.RAS_ENG_RETIRED (k : Nat) : Nat := 0x50100 + k * 0x4
def Reg.RAS_TILE_RETIRED (k : Nat) : Nat := 0x50180 + k * 0x4
def Reg.RAS_Q_UNIT : Nat := 0x50200
def Reg.RAS_Q_STAT : Nat := 0x50204
def Reg.RAS_Q_TOTAL : Nat := 0x50208
def Reg.RAS_Q_LAST_LO : Nat := 0x5020c
def Reg.RAS_Q_LAST_HI : Nat := 0x50210
/-! ### SEP, R514 -/
def Reg.SEP_ID : Nat := 0x60000
def Reg.SEP_CTL : Nat := 0x60004
def Reg.SEP_STAT : Nat := 0x60008
def Reg.SEP_COUNT : Nat := 0x6000c
def Reg.SEP_DROP_CNT : Nat := 0x60010
def Reg.SEP_FREEZE_LO : Nat := 0x60014
def Reg.SEP_FREEZE_HI : Nat := 0x60018
def Reg.SEP_MARK : Nat := 0x6001c
def Reg.SEP_MARK_CODE : Nat := 0x60020
def Reg.SEP_DUMP_ADDR : Nat := 0x60024
def Reg.SEP_RD_SEL : Nat := 0x60028
def Reg.SEP_RD_STAT : Nat := 0x6002c
def Reg.SEP_RD (k : Nat) : Nat := 0x60030 + k * 0x4
/-! ### MGT, R540 -/
def Reg.MGT_ID : Nat := 0x70000
def Reg.MGT_CTL : Nat := 0x70004
def Reg.MGT_BOOT_STAT : Nat := 0x70008
def Reg.MGT_FW_VER : Nat := 0x7000c
def Reg.MGT_RST_CAUSE : Nat := 0x70010
def Reg.MGT_RST_REQ : Nat := 0x70014
def Reg.MGT_ALERT_STAT : Nat := 0x70018
def Reg.MGT_ALERT_EN : Nat := 0x7001c
def Reg.MGT_PON_SEC_LO : Nat := 0x70020
def Reg.MGT_PON_SEC_HI : Nat := 0x70024
def Reg.MGT_EXT_STAT : Nat := 0x70028
def Reg.MGT_I3C_CFG : Nat := 0x7002c
def Reg.MGT_NA_CNT : Nat := 0x70030
def Reg.MGT_DROP_CNT : Nat := 0x70034
def Reg.MGT_GPIO_FUNC : Nat := 0x70040
def Reg.MGT_GPIO_OUT : Nat := 0x70044
def Reg.MGT_GPIO_IN : Nat := 0x70048
def Reg.MGT_HBOOT_ADDR_LO : Nat := 0x70050
def Reg.MGT_HBOOT_ADDR_HI : Nat := 0x70054
def Reg.MGT_HBOOT_LEN : Nat := 0x70058
def Reg.MGT_HBOOT_CTL : Nat := 0x7005c
def Reg.MGT_MBOX_STAT : Nat := 0x70060
/-! ### NOC, R323 -/
def Reg.NOC_ID : Nat := 0x100000
def Reg.NOC_CTL : Nat := 0x100004
def Reg.NOC_RSP_TIMEOUT : Nat := 0x100008
def Reg.NOC_DRAIN_LIMIT : Nat := 0x10000c
def Reg.NOC_EPOCH : Nat := 0x100010
def Reg.NOC_EVT : Nat := 0x100014
def Reg.NOC_EVT_EN : Nat := 0x100018
def Reg.NOC_ERR_INFO : Nat := 0x10001c
def Reg.NOC_ERR_ADDR_LO : Nat := 0x100020
def Reg.NOC_ERR_ADDR_HI : Nat := 0x100024
def Reg.NOC_FENCE_DROP : Nat := 0x100028
def Reg.NOC_FENCE_DROP_ADDR_LO : Nat := 0x10002c
def Reg.NOC_FENCE_DROP_ADDR_HI : Nat := 0x100030
def Reg.NOC_HDR_PAR_CNT : Nat := 0x100034
def Reg.NOC_PAY_PAR_CNT : Nat := 0x100038
def Reg.NOC_TIMEOUT_CNT : Nat := 0x10003c
def Reg.NOC_LATE_RSP_CNT : Nat := 0x100040
def Reg.NOC_DENIED_CNT : Nat := 0x100044
def Reg.NOC_ROUTE_ERR_CNT : Nat := 0x100048
def Reg.NOC_OLDEPOCH_CNT : Nat := 0x10004c
def Reg.NOC_RT_SEL : Nat := 0x100050
def Reg.NOC_RT_DATA : Nat := 0x100054
def Reg.NOC_ALTERED (i : Nat) : Nat := 0x100060 + i * 0x4
def Reg.NOC_FENCE_T (i : Nat) : Nat := 0x100100 + i * 0x4
def Reg.NOC_FENCE_E (i : Nat) : Nat := 0x100110 + i * 0x4
def Reg.NOC_EFENCE (i : Nat) : Nat := 0x100200 + i * 0x4
def Reg.NOC_RSTAT (r : Nat) : Nat := 0x100400 + r * 0x4
def Reg.PART_TILE (f : Nat) (i : Nat) : Nat := 0x102000 + f * 0x40 + i * 0x4
def Reg.PART_ACC (f : Nat) : Nat := 0x102010 + f * 0x40
def Reg.PART_HBM (f : Nat) (n : Nat) : Nat := 0x102014 + f * 0x40 + n * 0x4
def Reg.PART_CTL (f : Nat) : Nat := 0x102034 + f * 0x40
def Reg.PRB_CTL (p : Nat) : Nat := 0x108000 + p * 0x40
def Reg.PRB_POINT (p : Nat) : Nat := 0x108004 + p * 0x40
def Reg.PRB_FILT (p : Nat) : Nat := 0x108008 + p * 0x40
def Reg.PRB_ADDR_LO (p : Nat) : Nat := 0x10800c + p * 0x40
def Reg.PRB_ADDR_HI (p : Nat) : Nat := 0x108010 + p * 0x40
def Reg.PRB_MASK_LO (p : Nat) : Nat := 0x108014 + p * 0x40
def Reg.PRB_MASK_HI (p : Nat) : Nat := 0x108018 + p * 0x40
def Reg.PRB_CNT_LO (p : Nat) : Nat := 0x10801c + p * 0x40
def Reg.PRB_CNT_HI (p : Nat) : Nat := 0x108020 + p * 0x40
def Reg.PRB_TBASE_LO (p : Nat) : Nat := 0x108024 + p * 0x40
def Reg.PRB_TBASE_HI (p : Nat) : Nat := 0x108028 + p * 0x40
def Reg.PRB_TSIZE (p : Nat) : Nat := 0x10802c + p * 0x40
def Reg.PRB_TWR (p : Nat) : Nat := 0x108030 + p * 0x40
def Reg.PRB_TDROP (p : Nat) : Nat := 0x108034 + p * 0x40
/-! ### MEM, R324 -/
def Reg.MEM_ID : Nat := 0x200000
def Reg.MEM_CTL : Nat := 0x200004
def Reg.MEM_STAT : Nat := 0x200008
def Reg.MEM_COH_BASE : Nat := 0x20000c
def Reg.MEM_COH_SIZE : Nat := 0x200010
def Reg.MEM_EVT : Nat := 0x200014
def Reg.MEM_EVT_EN : Nat := 0x200018
def Reg.MEM_ERR_INFO : Nat := 0x20001c
def Reg.MEM_ERR_ADDR_LO : Nat := 0x200020
def Reg.MEM_ERR_ADDR_HI : Nat := 0x200024
def Reg.MEM_PAR_CNT : Nat := 0x200028
def Reg.MEM_ECC_CORR_CNT : Nat := 0x20002c
def Reg.MEM_ECC_UNC_CNT : Nat := 0x200030
def Reg.MEM_SF_EVICT_CNT : Nat := 0x200034
def Reg.MEM_PC (n : Nat) : Nat := 0x200100 + n * 0x4
/-! ### DMA, R349 -/
def Reg.DMA_ID (d : Nat) : Nat := 0x300000 + d * 0x4000
def Reg.DMA_CTL (d : Nat) : Nat := 0x300004 + d * 0x4000
def Reg.DMA_CHAIN_MAX (d : Nat) : Nat := 0x300008 + d * 0x4000
def Reg.DMA_EVT_SUM (d : Nat) : Nat := 0x30000c + d * 0x4000
def Reg.DMA_OUTST (d : Nat) : Nat := 0x300010 + d * 0x4000
def Reg.DMA_ERR_CNT (d : Nat) : Nat := 0x300014 + d * 0x4000
def Reg.DMA_UNIT (d : Nat) : Nat := 0x300018 + d * 0x4000
def Reg.CH_CTRL (d : Nat) (c : Nat) : Nat := 0x300100 + d * 0x4000 + c * 0x100
def Reg.CH_CFG (d : Nat) (c : Nat) : Nat := 0x300104 + d * 0x4000 + c * 0x100
def Reg.CH_SRC_LO (d : Nat) (c : Nat) : Nat := 0x300108 + d * 0x4000 + c * 0x100
def Reg.CH_SRC_HI (d : Nat) (c : Nat) : Nat := 0x30010c + d * 0x4000 + c * 0x100
def Reg.CH_DST_LO (d : Nat) (c : Nat) : Nat := 0x300110 + d * 0x4000 + c * 0x100
def Reg.CH_DST_HI (d : Nat) (c : Nat) : Nat := 0x300114 + d * 0x4000 + c * 0x100
def Reg.CH_COUNT (d : Nat) (c : Nat) : Nat := 0x300118 + d * 0x4000 + c * 0x100
def Reg.CH_DESC_LO (d : Nat) (c : Nat) : Nat := 0x30011c + d * 0x4000 + c * 0x100
def Reg.CH_DESC_HI (d : Nat) (c : Nat) : Nat := 0x300120 + d * 0x4000 + c * 0x100
def Reg.CH_STATUS (d : Nat) (c : Nat) : Nat := 0x300124 + d * 0x4000 + c * 0x100
def Reg.CH_CRC_RESULT (d : Nat) (c : Nat) : Nat := 0x300128 + d * 0x4000 + c * 0x100
def Reg.CH_DONE_BYTES (d : Nat) (c : Nat) : Nat := 0x30012c + d * 0x4000 + c * 0x100
def Reg.CH_DESC_CNT (d : Nat) (c : Nat) : Nat := 0x300130 + d * 0x4000 + c * 0x100
def Reg.CH_ERR_ADDR_LO (d : Nat) (c : Nat) : Nat := 0x300134 + d * 0x4000 + c * 0x100
def Reg.CH_ERR_ADDR_HI (d : Nat) (c : Nat) : Nat := 0x300138 + d * 0x4000 + c * 0x100
def Reg.CH_EVT (d : Nat) (c : Nat) : Nat := 0x30013c + d * 0x4000 + c * 0x100
def Reg.CH_EVT_EN (d : Nat) (c : Nat) : Nat := 0x300140 + d * 0x4000 + c * 0x100
/-! ### LNK, R382 -/
def Reg.LNK_ID (b : Nat) : Nat := 0x400000 + b * 0x10000
def Reg.LNK_CTL (b : Nat) : Nat := 0x400004 + b * 0x10000
def Reg.LNK_STAT (b : Nat) : Nat := 0x400008 + b * 0x10000
def Reg.LNK_EVT (b : Nat) : Nat := 0x40000c + b * 0x10000
def Reg.LNK_EVT_EN (b : Nat) : Nat := 0x400010 + b * 0x10000
def Reg.LNK_SPARE_CTL (b : Nat) : Nat := 0x400014 + b * 0x10000
def Reg.LNK_TXTS_REQ (b : Nat) : Nat := 0x400018 + b * 0x10000
def Reg.LNK_TXTS_STAT (b : Nat) : Nat := 0x40001c + b * 0x10000
def Reg.LNK_TXTS_LO (b : Nat) : Nat := 0x400020 + b * 0x10000
def Reg.LNK_TXTS_HI (b : Nat) : Nat := 0x400024 + b * 0x10000
def Reg.LNK_TXTS_POP (b : Nat) : Nat := 0x400028 + b * 0x10000
def Reg.LNK_EGLATE_LIMIT (b : Nat) : Nat := 0x40002c + b * 0x10000
def Reg.LNK_SW_CNT (b : Nat) : Nat := 0x400030 + b * 0x10000
def Reg.LNK_REVERT_CNT (b : Nat) : Nat := 0x400034 + b * 0x10000
def Reg.LNK_TXTS_OVF_CNT (b : Nat) : Nat := 0x400038 + b * 0x10000
def Reg.LNK_NOSTREAM_CNT (b : Nat) : Nat := 0x40003c + b * 0x10000
def Reg.LNK_NOBIND_CNT (b : Nat) : Nat := 0x400040 + b * 0x10000
def Reg.LNK_LATE_CNT (b : Nat) : Nat := 0x400044 + b * 0x10000
def Reg.LNK_DUP_CNT (b : Nat) : Nat := 0x400048 + b * 0x10000
def Reg.LNK_BADSEC_CNT (b : Nat) : Nat := 0x40004c + b * 0x10000
def Reg.LNK_MISLANE_CNT (b : Nat) : Nat := 0x400050 + b * 0x10000
def Reg.LNK_EGLATE_CNT (b : Nat) : Nat := 0x400054 + b * 0x10000
def Reg.LNK_MISSING_CNT (b : Nat) : Nat := 0x400058 + b * 0x10000
def Reg.LNK_DENIED_CNT (b : Nat) : Nat := 0x40005c + b * 0x10000
def Reg.LNK_TDGAP_CNT (b : Nat) : Nat := 0x400060 + b * 0x10000
def Reg.LN_CTL (b : Nat) (l : Nat) : Nat := 0x400100 + b * 0x10000 + l * 0x80
def Reg.LN_STAT (b : Nat) (l : Nat) : Nat := 0x400104 + b * 0x10000 + l * 0x80
def Reg.LN_SLIP (b : Nat) (l : Nat) : Nat := 0x400108 + b * 0x10000 + l * 0x80
def Reg.LN_CTLE (b : Nat) (l : Nat) : Nat := 0x40010c + b * 0x10000 + l * 0x80
def Reg.LN_FFE (b : Nat) (l : Nat) : Nat := 0x400110 + b * 0x10000 + l * 0x80
def Reg.LN_MYID (b : Nat) (l : Nat) : Nat := 0x400114 + b * 0x10000 + l * 0x80
def Reg.LN_PARTNER (b : Nat) (l : Nat) : Nat := 0x400118 + b * 0x10000 + l * 0x80
def Reg.LN_EXPECT (b : Nat) (l : Nat) : Nat := 0x40011c + b * 0x10000 + l * 0x80
def Reg.LN_TXLAT (b : Nat) (l : Nat) : Nat := 0x400120 + b * 0x10000 + l * 0x80
def Reg.LN_RXLAT (b : Nat) (l : Nat) : Nat := 0x400124 + b * 0x10000 + l * 0x80
def Reg.LN_PRBS (b : Nat) (l : Nat) : Nat := 0x400128 + b * 0x10000 + l * 0x80
def Reg.LN_PRBS_STAT (b : Nat) (l : Nat) : Nat := 0x40012c + b * 0x10000 + l * 0x80
def Reg.LN_PRBS_ERR (b : Nat) (l : Nat) : Nat := 0x400130 + b * 0x10000 + l * 0x80
def Reg.LN_INJ (b : Nat) (l : Nat) : Nat := 0x400134 + b * 0x10000 + l * 0x80
def Reg.LN_EVT (b : Nat) (l : Nat) : Nat := 0x400138 + b * 0x10000 + l * 0x80
def Reg.LN_EVT_EN (b : Nat) (l : Nat) : Nat := 0x40013c + b * 0x10000 + l * 0x80
def Reg.LN_RXFRAME_CNT (b : Nat) (l : Nat) : Nat := 0x400140 + b * 0x10000 + l * 0x80
def Reg.LN_TXFRAME_CNT (b : Nat) (l : Nat) : Nat := 0x400144 + b * 0x10000 + l * 0x80
def Reg.LN_CRC_ERR_CNT (b : Nat) (l : Nat) : Nat := 0x400148 + b * 0x10000 + l * 0x80
def Reg.LN_HCRC_ERR_CNT (b : Nat) (l : Nat) : Nat := 0x40014c + b * 0x10000 + l * 0x80
def Reg.LN_RESYNC_CNT (b : Nat) (l : Nat) : Nat := 0x400150 + b * 0x10000 + l * 0x80
def Reg.LN_STUFF_ERR_CNT (b : Nat) (l : Nat) : Nat := 0x400154 + b * 0x10000 + l * 0x80
def Reg.LN_LOS_CNT (b : Nat) (l : Nat) : Nat := 0x400158 + b * 0x10000 + l * 0x80
def Reg.LN_TRAIN_FAIL_CNT (b : Nat) (l : Nat) : Nat := 0x40015c + b * 0x10000 + l * 0x80
def Reg.LN_LOCKLOSS_CNT (b : Nat) (l : Nat) : Nat := 0x400160 + b * 0x10000 + l * 0x80
def Reg.LN_BLKHDR_ERR_CNT (b : Nat) (l : Nat) : Nat := 0x400164 + b * 0x10000 + l * 0x80
def Reg.RXS_CFG (b : Nat) (i : Nat) : Nat := 0x401000 + b * 0x10000 + i * 0x10
def Reg.RXS_LAYOUT (b : Nat) (i : Nat) : Nat := 0x401004 + b * 0x10000 + i * 0x10
def Reg.RXS_TDOFF (b : Nat) (i : Nat) : Nat := 0x401008 + b * 0x10000 + i * 0x10
def Reg.RXS_CNT (b : Nat) (i : Nat) : Nat := 0x40100c + b * 0x10000 + i * 0x10
def Reg.TXS_CFG (b : Nat) (i : Nat) : Nat := 0x402000 + b * 0x10000 + i * 0x10
def Reg.TXS_LAYOUT (b : Nat) (i : Nat) : Nat := 0x402004 + b * 0x10000 + i * 0x10
def Reg.TXS_MISS_CNT (b : Nat) (i : Nat) : Nat := 0x402008 + b * 0x10000 + i * 0x10
def Reg.TXS_CNT (b : Nat) (i : Nat) : Nat := 0x40200c + b * 0x10000 + i * 0x10
/-! ### FEC, R262 -/
def Reg.FEC_ID (q : Nat) : Nat := 0x800000 + q * 0x10000
def Reg.FEC_CTL (q : Nat) : Nat := 0x800004 + q * 0x10000
def Reg.FEC_JOB_LIMIT (q : Nat) : Nat := 0x800008 + q * 0x10000
def Reg.FEC_EVT (q : Nat) : Nat := 0x80000c + q * 0x10000
def Reg.FEC_EVT_EN (q : Nat) : Nat := 0x800010 + q * 0x10000
def Reg.FEC_QD0 (q : Nat) : Nat := 0x800014 + q * 0x10000
def Reg.FEC_QD1 (q : Nat) : Nat := 0x800018 + q * 0x10000
def Reg.FEC_DONE_CNT (q : Nat) : Nat := 0x800020 + q * 0x10000
def Reg.FEC_REJECT_CNT (q : Nat) : Nat := 0x800024 + q * 0x10000
def Reg.FEC_LATE_CNT (q : Nat) : Nat := 0x800028 + q * 0x10000
def Reg.FEC_CANCEL_CNT (q : Nat) : Nat := 0x80002c + q * 0x10000
def Reg.FEC_FAULT_CNT (q : Nat) : Nat := 0x800030 + q * 0x10000
def Reg.FEC_REPLAY_CNT (q : Nat) : Nat := 0x800034 + q * 0x10000
def Reg.FEC_STALE_CNT (q : Nat) : Nat := 0x800038 + q * 0x10000
def Reg.FEC_UNIT (q : Nat) (u : Nat) : Nat := 0x800100 + q * 0x10000 + u * 0x4
/-! ### CXU, R292 -/
def Reg.CXU_ID (n : Nat) : Nat := 0xa00000 + n * 0x4000
def Reg.CXU_CTL (n : Nat) : Nat := 0xa00004 + n * 0x4000
def Reg.CXU_SRC (n : Nat) : Nat := 0xa00008 + n * 0x4000
def Reg.CXU_IPERIOD (n : Nat) : Nat := 0xa0000c + n * 0x4000
def Reg.CXU_DEC (n : Nat) : Nat := 0xa00010 + n * 0x4000
def Reg.CXU_NCO_FREQ (n : Nat) : Nat := 0xa00014 + n * 0x4000
def Reg.CXU_NCO_PHASE0 (n : Nat) : Nat := 0xa00018 + n * 0x4000
def Reg.CXU_BANK (n : Nat) : Nat := 0xa0001c + n * 0x4000
def Reg.CXU_SWTIME_LO (n : Nat) : Nat := 0xa00020 + n * 0x4000
def Reg.CXU_SWTIME_HI (n : Nat) : Nat := 0xa00024 + n * 0x4000
def Reg.CXU_BANKA_CFG (n : Nat) : Nat := 0xa00028 + n * 0x4000
def Reg.CXU_BANKB_CFG (n : Nat) : Nat := 0xa0002c + n * 0x4000
def Reg.CXU_LATENCY_A (n : Nat) : Nat := 0xa00030 + n * 0x4000
def Reg.CXU_LATENCY_B (n : Nat) : Nat := 0xa00034 + n * 0x4000
def Reg.CXU_GDELAY (n : Nat) : Nat := 0xa00038 + n * 0x4000
def Reg.CXU_SYNC (n : Nat) : Nat := 0xa0003c + n * 0x4000
def Reg.CXU_OUT_LO (n : Nat) : Nat := 0xa00040 + n * 0x4000
def Reg.CXU_OUT_HI (n : Nat) : Nat := 0xa00044 + n * 0x4000
def Reg.CXU_HDR_LO (n : Nat) : Nat := 0xa00048 + n * 0x4000
def Reg.CXU_HDR_HI (n : Nat) : Nat := 0xa0004c + n * 0x4000
def Reg.CXU_OUT_CFG (n : Nat) : Nat := 0xa00050 + n * 0x4000
def Reg.CXU_SLIP_TOL (n : Nat) : Nat := 0xa00054 + n * 0x4000
def Reg.CXU_PWR_CFG (n : Nat) : Nat := 0xa00058 + n * 0x4000
def Reg.CXU_PWR_UP (n : Nat) : Nat := 0xa0005c + n * 0x4000
def Reg.CXU_PWR_LO (n : Nat) : Nat := 0xa00060 + n * 0x4000
def Reg.CXU_PWR_ENG (n : Nat) : Nat := 0xa00064 + n * 0x4000
def Reg.CXU_PWR_LAST (n : Nat) : Nat := 0xa00068 + n * 0x4000
def Reg.CXU_STAT (n : Nat) : Nat := 0xa0006c + n * 0x4000
def Reg.CXU_EVT (n : Nat) : Nat := 0xa00070 + n * 0x4000
def Reg.CXU_EVT_EN (n : Nat) : Nat := 0xa00074 + n * 0x4000
def Reg.CXU_WREF_ADDR (n : Nat) : Nat := 0xa00078 + n * 0x4000
def Reg.CXU_SEQ (n : Nat) : Nat := 0xa0007c + n * 0x4000
def Reg.CXU_SAT_CNT (n : Nat) : Nat := 0xa00080 + n * 0x4000
def Reg.CXU_GAP_CNT (n : Nat) : Nat := 0xa00084 + n * 0x4000
def Reg.CXU_PARTIAL_CNT (n : Nat) : Nat := 0xa00088 + n * 0x4000
def Reg.CXU_SWDROP_CNT (n : Nat) : Nat := 0xa0008c + n * 0x4000
def Reg.CXU_SLIP_CNT (n : Nat) : Nat := 0xa00090 + n * 0x4000
def Reg.CXU_UNIT (n : Nat) : Nat := 0xa00094 + n * 0x4000
def Reg.CXU_COEFA (n : Nat) (k : Nat) : Nat := 0xa01000 + n * 0x4000 + k * 0x4
def Reg.CXU_COEFB (n : Nat) (k : Nat) : Nat := 0xa02000 + n * 0x4000 + k * 0x4
/-! ### FFT, R293 -/
def Reg.FFT_ID (n : Nat) : Nat := 0xc00000 + n * 0x1000
def Reg.FFT_CTL (q : Nat) : Nat := 0xc00004 + q * 0x4000
def Reg.FFT_JOB_LIMIT (q : Nat) : Nat := 0xc00008 + q * 0x4000
def Reg.FFT_EVT (q : Nat) : Nat := 0xc0000c + q * 0x4000
def Reg.FFT_EVT_EN (q : Nat) : Nat := 0xc00010 + q * 0x4000
def Reg.FFT_QD (q : Nat) : Nat := 0xc00014 + q * 0x4000
def Reg.FFT_DONE_CNT (q : Nat) : Nat := 0xc00020 + q * 0x4000
def Reg.FFT_REJECT_CNT (q : Nat) : Nat := 0xc00024 + q * 0x4000
def Reg.FFT_LATE_CNT (q : Nat) : Nat := 0xc00028 + q * 0x4000
def Reg.FFT_CANCEL_CNT (q : Nat) : Nat := 0xc0002c + q * 0x4000
def Reg.FFT_FAULT_CNT (q : Nat) : Nat := 0xc00030 + q * 0x4000
def Reg.FFT_REPLAY_CNT (q : Nat) : Nat := 0xc00034 + q * 0x4000
def Reg.FFT_SAT_CNT (q : Nat) : Nat := 0xc00038 + q * 0x4000
def Reg.FFT_UNIT (n : Nat) : Nat := 0xc00100 + n * 0x1000
/-! ### STW, R479 -/
def Reg.STW_ID (n : Nat) : Nat := 0x1000000 + n * 0x1000
def Reg.STW_STAT (n : Nat) : Nat := 0x1000004 + n * 0x1000
def Reg.STW_TILE (n : Nat) : Nat := 0x1000008 + n * 0x1000
def Reg.STW_EVT (n : Nat) : Nat := 0x100000c + n * 0x1000
def Reg.STW_EVT_EN (n : Nat) : Nat := 0x1000010 + n * 0x1000
def Reg.STW_LAST_FLT (n : Nat) : Nat := 0x1000014 + n * 0x1000
def Reg.STW_FLT_CNT (n : Nat) : Nat := 0x1000018 + n * 0x1000
def Reg.STW_XITION_CNT (n : Nat) : Nat := 0x100001c + n * 0x1000
def Reg.STW_FENCE_CNT (n : Nat) : Nat := 0x1000020 + n * 0x1000
def Reg.STW_HS_CNT (n : Nat) : Nat := 0x1000024 + n * 0x1000
/-! ### TSU, R91 -/
def Reg.TSU_CTL (t : Nat) : Nat := 0x1100000 + t * 0x10000
def Reg.TSU_TSK_LIMIT (t : Nat) : Nat := 0x1100004 + t * 0x10000
def Reg.TSU_STEAL_AGE (t : Nat) : Nat := 0x1100008 + t * 0x10000
def Reg.TILE_SPARE (t : Nat) : Nat := 0x110000c + t * 0x10000
def Reg.TILE_CP3_GRANT (t : Nat) : Nat := 0x1100010 + t * 0x10000
def Reg.TSU_PCACHE (t : Nat) : Nat := 0x1100014 + t * 0x10000
def Reg.TSU_ENG_STATE (t : Nat) : Nat := 0x1100018 + t * 0x10000
def Reg.TSU_QD01 (t : Nat) : Nat := 0x110001c + t * 0x10000
def Reg.TSU_QD23 (t : Nat) : Nat := 0x1100020 + t * 0x10000
def Reg.TSU_RISK (t : Nat) : Nat := 0x1100024 + t * 0x10000
def Reg.TSU_EVT (t : Nat) : Nat := 0x1100028 + t * 0x10000
def Reg.TSU_EVT_EN (t : Nat) : Nat := 0x110002c + t * 0x10000
def Reg.TSU_DISP_CNT (t : Nat) : Nat := 0x1100030 + t * 0x10000
def Reg.TSU_STEAL_IN_CNT (t : Nat) : Nat := 0x1100034 + t * 0x10000
def Reg.TSU_STEAL_OUT_CNT (t : Nat) : Nat := 0x1100038 + t * 0x10000
def Reg.TSU_MISS_CNT (t : Nat) : Nat := 0x110003c + t * 0x10000
def Reg.TSU_LIMIT_CNT (t : Nat) : Nat := 0x1100040 + t * 0x10000
def Reg.TSU_PCACHE_MISS_CNT (t : Nat) : Nat := 0x1100044 + t * 0x10000
def Reg.ECP_CTL (t : Nat) (e : Nat) : Nat := 0x1100100 + t * 0x10000 + e * 0x20
def Reg.ECP_STAT (t : Nat) (e : Nat) : Nat := 0x1100104 + t * 0x10000 + e * 0x20
def Reg.ECP_TASK (t : Nat) (e : Nat) : Nat := 0x1100108 + t * 0x10000 + e * 0x20
def Reg.ECP_SLOT (t : Nat) (e : Nat) : Nat := 0x110010c + t * 0x10000 + e * 0x20
def Reg.ECP_FLT (t : Nat) (e : Nat) : Nat := 0x1100110 + t * 0x10000 + e * 0x20
def Reg.ECP_FADDR (t : Nat) (e : Nat) : Nat := 0x1100114 + t * 0x10000 + e * 0x20
def Reg.ECP_PC (t : Nat) (e : Nat) : Nat := 0x1100118 + t * 0x10000 + e * 0x20

/-! ## Fields -/

def F.ID_DEV_VENDOR : Fld := ⟨0, 16⟩
def F.ID_DEV_DEVICE : Fld := ⟨16, 16⟩
def F.ID_REV_STEPPING : Fld := ⟨0, 8⟩
def F.ID_REV_FUNC : Fld := ⟨8, 5⟩
def F.ID_REV_GRADE : Fld := ⟨16, 1⟩
def F.SWATCH_CTL_ACCEPT : Fld := ⟨0, 1⟩
def F.SWATCH_STAT_ACCEPTED : Fld := ⟨0, 1⟩
def F.SWATCH_STAT_ERR : Fld := ⟨1, 1⟩
def F.SWATCH_STAT_ERRBIT : Fld := ⟨8, 8⟩
def F.HIF_ID_NQP : Fld := ⟨0, 8⟩
def F.HIF_ID_FUNC : Fld := ⟨8, 5⟩
def F.HIF_ID_VERSION : Fld := ⟨16, 8⟩
def F.HIF_CTL_EN : Fld := ⟨0, 1⟩
def F.HIF_STAT_ACCEPTED : Fld := ⟨0, 1⟩
def F.HIF_STAT_FLR : Fld := ⟨1, 1⟩
def F.HIF_STAT_PORT : Fld := ⟨2, 1⟩
def F.HIF_STAT_LINK : Fld := ⟨3, 1⟩
def F.HIF_STAT_BAR4 : Fld := ⟨4, 1⟩
def F.HIF_EVT_CPL_LOST : Fld := ⟨0, 1⟩
def F.HIF_EVT_DB_ERR : Fld := ⟨1, 1⟩
def F.HIF_EVT_FETCH_ERR : Fld := ⟨2, 1⟩
def F.HIF_EVT_MGMT_TIMEOUT : Fld := ⟨3, 1⟩
def F.HIF_EVT_BAR4_ERR : Fld := ⟨4, 1⟩
def F.HIF_EVT_VF_BLOCKED : Fld := ⟨5, 1⟩
def F.HIF_EVT_LINK_DOWN : Fld := ⟨6, 1⟩
def F.HIF_EVT_EN_MASK : Fld := ⟨0, 7⟩
def F.HIF_EVT_VEC_VECTOR : Fld := ⟨0, 11⟩
def F.HIF_EVT_VEC_EN : Fld := ⟨16, 1⟩
def F.HIF_MGMT_TIMEOUT_US : Fld := ⟨0, 24⟩
def F.HIF_BAR4_ERR_ADDR_HI_OFFSET : Fld := ⟨0, 4⟩
def F.HIF_DEVEVT_SUM_BLOCK : Fld := ⟨0, 14⟩
def F.HIF_DEVEVT_VEC_VECTOR : Fld := ⟨0, 11⟩
def F.HIF_DEVEVT_VEC_EN : Fld := ⟨16, 1⟩
def F.QP_CTL_EN : Fld := ⟨0, 1⟩
def F.QP_CTL_IEN : Fld := ⟨1, 1⟩
def F.QP_SIZE_SQ_LOG2 : Fld := ⟨0, 4⟩
def F.QP_SIZE_CQ_LOG2 : Fld := ⟨8, 4⟩
def F.QP_SQ_BASE_LO_BASE : Fld := ⟨12, 20⟩
def F.QP_CQ_BASE_LO_BASE : Fld := ⟨12, 20⟩
def F.QP_VEC_VECTOR : Fld := ⟨0, 11⟩
def F.QP_COAL_COUNT : Fld := ⟨0, 9⟩
def F.QP_COAL_TIME : Fld := ⟨16, 8⟩
def F.QP_SQ_HEAD_INDEX : Fld := ⟨0, 12⟩
def F.QP_SQ_TAIL_INDEX : Fld := ⟨0, 12⟩
def F.QP_CQ_TAIL_INDEX : Fld := ⟨0, 12⟩
def F.QP_CQ_TAIL_PHASE : Fld := ⟨16, 1⟩
def F.QP_CQ_HEAD_INDEX : Fld := ⟨0, 12⟩
def F.QP_STAT_RUN : Fld := ⟨0, 1⟩
def F.QP_STAT_HELD : Fld := ⟨1, 1⟩
def F.QP_STAT_ERR : Fld := ⟨2, 3⟩
def F.QP_INFLIGHT_COUNT : Fld := ⟨0, 9⟩
def F.VF_CTL_NQP : Fld := ⟨0, 7⟩
def F.VF_STAT_ENABLED : Fld := ⟨0, 1⟩
def F.VF_STAT_ACCEPTED : Fld := ⟨1, 1⟩
def F.VF_STAT_FLR : Fld := ⟨2, 1⟩
def F.MSIX_VCTL_MASK : Fld := ⟨0, 1⟩
def F.TLN_ID_TL_COUNT : Fld := ⟨0, 16⟩
def F.TLN_ID_VERSION : Fld := ⟨16, 8⟩
def F.TLN_CTL_EN : Fld := ⟨0, 1⟩
def F.TLN_STATUS_ACTIVE_PAL : Fld := ⟨0, 9⟩
def F.TLN_STATUS_VALID_PAL : Fld := ⟨10, 11⟩
def F.TLN_EVT_TL : Fld := ⟨0, 1⟩
def F.TLN_EVT_PARKED : Fld := ⟨1, 1⟩
def F.TLN_EVT_ACTIVE_FULL : Fld := ⟨2, 1⟩
def F.TLN_EVT_EN_MASK : Fld := ⟨0, 3⟩
def F.TLN_SECOSC_OSC : Fld := ⟨0, 16⟩
def F.TL_CTL_EN : Fld := ⟨0, 1⟩
def F.TL_CTL_DIRECT : Fld := ⟨1, 1⟩
def F.TL_CTL_OWNER : Fld := ⟨8, 5⟩
def F.TL_CTL_CQ : Fld := ⟨16, 6⟩
def F.TL_PERIOD_VALUE : Fld := ⟨0, 24⟩
def F.TL_START_HI_VALUE : Fld := ⟨0, 16⟩
def F.TL_ADJ_ADJ : Fld := ⟨0, 8⟩
def F.TL_PREP_VALUE : Fld := ⟨0, 24⟩
def F.TL_ADV_VALUE : Fld := ⟨0, 24⟩
def F.TL_RING_LO_BASE : Fld := ⟨5, 27⟩
def F.TL_RING_HI_VALUE : Fld := ⟨0, 16⟩
def F.TL_RING_CFG_LOG2SIZE : Fld := ⟨0, 4⟩
def F.TL_HEAD_INDEX : Fld := ⟨0, 12⟩
def F.TL_TAIL_INDEX : Fld := ⟨0, 12⟩
def F.TL_STAT_RUNNING : Fld := ⟨0, 1⟩
def F.TL_STAT_REPEAT_HELD : Fld := ⟨1, 1⟩
def F.TL_STAT_INFLIGHT : Fld := ⟨2, 3⟩
def F.TL_EVT_LATE : Fld := ⟨0, 1⟩
def F.TL_EVT_EMPTY : Fld := ⟨1, 1⟩
def F.TL_EVT_OVERRUN : Fld := ⟨2, 1⟩
def F.TL_EVT_INVALID : Fld := ⟨3, 1⟩
def F.TL_EVT_ADJ_DONE : Fld := ⟨4, 1⟩
def F.TL_EVT_MISS : Fld := ⟨5, 1⟩
def F.TL_EVT_EN_MASK : Fld := ⟨0, 6⟩
def F.TL_NEXT_HI_VALUE : Fld := ⟨0, 16⟩
def F.TIM_ID_NCMP : Fld := ⟨0, 8⟩
def F.TIM_ID_VERSION : Fld := ⟨8, 8⟩
def F.TIM_CTL_AUTORESP : Fld := ⟨0, 1⟩
def F.TIM_CTL_PPSIN_EN : Fld := ⟨1, 1⟩
def F.TIM_CTL_PPSIN_FALL : Fld := ⟨2, 1⟩
def F.TIM_STATUS_SET : Fld := ⟨0, 1⟩
def F.TIM_STATUS_LOCK : Fld := ⟨1, 1⟩
def F.TIM_STATUS_HOLDOVER : Fld := ⟨2, 1⟩
def F.TIM_STATUS_LNKALIGN : Fld := ⟨3, 1⟩
def F.TIM_EVT_PPSIN : Fld := ⟨0, 1⟩
def F.TIM_EVT_TRX : Fld := ⟨1, 1⟩
def F.TIM_EVT_TRX_OVF : Fld := ⟨2, 1⟩
def F.TIM_EVT_TTX_DONE : Fld := ⟨3, 1⟩
def F.TIM_EVT_TTX_ERR : Fld := ⟨4, 1⟩
def F.TIM_EVT_HOLDOVER : Fld := ⟨5, 1⟩
def F.TIM_EVT_LNKALIGN_LOST : Fld := ⟨6, 1⟩
def F.TIM_EVT_EN_MASK : Fld := ⟨0, 7⟩
def F.TIM_CMP_EVT_CMP : Fld := ⟨0, 16⟩
def F.TIM_CMP_EVT_EN_MASK : Fld := ⟨0, 16⟩
def F.TIM_RAW_HI_VALUE : Fld := ⟨0, 16⟩
def F.TIM_SNAP_RAW_HI_VALUE : Fld := ⟨0, 16⟩
def F.TIM_SNAP_RAW_HI_SNAP_SET : Fld := ⟨31, 1⟩
def F.TIM_RAW_BASE_HI_VALUE : Fld := ⟨0, 16⟩
def F.TIM_PPSIN_HI_VALUE : Fld := ⟨0, 22⟩
def F.TIM_PPSIN_STAT_VALID : Fld := ⟨0, 1⟩
def F.TIM_PPSIN_STAT_COUNT : Fld := ⟨16, 16⟩
def F.TIM_PPSIN_LAT_VALUE : Fld := ⟨0, 16⟩
def F.TIM_PPSIN_MASK_VALUE : Fld := ⟨0, 24⟩
def F.TIM_PPSOUT_W_VALUE : Fld := ⟨0, 24⟩
def F.TIM_TTX_MSG_TYPE : Fld := ⟨0, 8⟩
def F.TIM_TTX_MSG_MID : Fld := ⟨8, 8⟩
def F.TIM_TTX_MSG_LANE : Fld := ⟨16, 3⟩
def F.TIM_TTX_CTL_BUNDLE : Fld := ⟨0, 4⟩
def F.TIM_TTX_CTL_GO : Fld := ⟨8, 1⟩
def F.TIM_TTX_STAT_BUSY : Fld := ⟨0, 1⟩
def F.TIM_TTX_STAT_DONE : Fld := ⟨1, 1⟩
def F.TIM_TTX_STAT_ERR : Fld := ⟨2, 2⟩
def F.TIM_TTX_STAT_ID : Fld := ⟨16, 16⟩
def F.TIM_TRX_STAMP_HI_VALUE : Fld := ⟨0, 22⟩
def F.TIM_TRX_INFO_DEPTH : Fld := ⟨0, 7⟩
def F.TIM_TRX_INFO_VALID : Fld := ⟨7, 1⟩
def F.TIM_TRX_INFO_BUNDLE : Fld := ⟨8, 4⟩
def F.TIM_TRX_INFO_LANE : Fld := ⟨12, 3⟩
def F.TIM_TRX_INFO_SEQ : Fld := ⟨16, 13⟩
def F.TIM_TRX_POP_POP : Fld := ⟨0, 1⟩
def F.TIM_CMP_CTL_EN : Fld := ⟨0, 1⟩
def F.TIM_CMP_CTL_PERIODIC : Fld := ⟨1, 1⟩
def F.TIM_CMP_CTL_ACT : Fld := ⟨2, 2⟩
def F.TIM_CMP_TGT_HI_VALUE : Fld := ⟨0, 16⟩
def F.TIM_CMP_ADJ_ADJ : Fld := ⟨0, 16⟩
def F.PWR_ID_NDOM : Fld := ⟨0, 8⟩
def F.PWR_ID_NOP : Fld := ⟨8, 4⟩
def F.PWR_ID_VERSION : Fld := ⟨16, 8⟩
def F.PWR_CTL_WAKE_NATIVE : Fld := ⟨0, 1⟩
def F.PWR_CTL_AVS_AUTO : Fld := ⟨1, 1⟩
def F.PWR_CTL_IDLE_EN : Fld := ⟨2, 1⟩
def F.PWR_LEVEL_LEVEL : Fld := ⟨0, 2⟩
def F.PWR_LEVEL_BUSY : Fld := ⟨8, 1⟩
def F.PWR_LEVEL_REQ_LEVEL : Fld := ⟨0, 2⟩
def F.PWR_LEVEL_REQ_GO : Fld := ⟨8, 1⟩
def F.PWR_EVT_XITION_DONE : Fld := ⟨0, 1⟩
def F.PWR_EVT_HELD_REPLACED : Fld := ⟨1, 1⟩
def F.PWR_EVT_AVS_FAIL : Fld := ⟨2, 1⟩
def F.PWR_EVT_LEVEL_DONE : Fld := ⟨3, 1⟩
def F.PWR_EVT_LEVEL_REFUSED : Fld := ⟨4, 1⟩
def F.PWR_EVT_PLL_FAIL : Fld := ⟨5, 1⟩
def F.PWR_EVT_CLK_SWITCH : Fld := ⟨6, 1⟩
def F.PWR_EVT_EN_MASK : Fld := ⟨0, 7⟩
def F.PWR_AVS_CTL_HEAD : Fld := ⟨0, 8⟩
def F.PWR_AVS_CTL_TIMEOUT : Fld := ⟨8, 16⟩
def F.PWR_AVS_STAT_VCORE : Fld := ⟨0, 10⟩
def F.PWR_AVS_STAT_BUSY : Fld := ⟨16, 1⟩
def F.PWR_AVS_STAT_FAIL : Fld := ⟨17, 1⟩
def F.PWR_IDLE_DLY_CYCLES : Fld := ⟨0, 16⟩
def F.PWR_DOM_REQ_STATE : Fld := ⟨0, 2⟩
def F.PWR_DOM_REQ_DRAIN : Fld := ⟨2, 1⟩
def F.PWR_DOM_REQ_GO : Fld := ⟨4, 1⟩
def F.PWR_DOM_REQ_RESET : Fld := ⟨5, 1⟩
def F.PWR_DOM_OP_REQ_OP : Fld := ⟨0, 2⟩
def F.PWR_DOM_OP_CAP : Fld := ⟨4, 2⟩
def F.PWR_DOM_OP_TARGET : Fld := ⟨8, 2⟩
def F.PWR_DOM_OP_CUR : Fld := ⟨12, 2⟩
def F.PWR_DOM_OP_BUSY : Fld := ⟨16, 1⟩
def F.PWR_DOM_OP_HELD : Fld := ⟨17, 1⟩
def F.PWR_DOM_OP_HELD_OP : Fld := ⟨18, 2⟩
def F.PWR_DOM_CLK_SRC : Fld := ⟨0, 1⟩
def F.PWR_DOM_CLK_LOCK : Fld := ⟨1, 1⟩
def F.PWR_DOM_CLK_ON_OSC : Fld := ⟨2, 1⟩
def F.PWR_DOMAIN_STATE_STATE : Fld := ⟨0, 3⟩
def F.PWR_DOMAIN_STATE_MINIMAL : Fld := ⟨3, 1⟩
def F.PWR_DOMAIN_STATE_REASON : Fld := ⟨4, 4⟩
def F.PWR_DOMAIN_STATE_GEN : Fld := ⟨8, 8⟩
def F.THM_ID_NSENS : Fld := ⟨0, 8⟩
def F.THM_ID_NCH : Fld := ⟨8, 8⟩
def F.THM_ID_VERSION : Fld := ⟨16, 8⟩
def F.THM_CTL_HYST : Fld := ⟨0, 4⟩
def F.THM_CTL_RELAX : Fld := ⟨8, 8⟩
def F.THM_WARN_TEMP : Fld := ⟨0, 16⟩
def F.THM_THROTTLE_TEMP : Fld := ⟨0, 16⟩
def F.THM_CRIT_TEMP : Fld := ⟨0, 16⟩
def F.THM_STAT_HOTTEST : Fld := ⟨0, 5⟩
def F.THM_STAT_TRIP : Fld := ⟨8, 1⟩
def F.THM_STAT_TEMP : Fld := ⟨16, 16⟩
def F.THM_EVT_WARN : Fld := ⟨0, 1⟩
def F.THM_EVT_THROTTLE : Fld := ⟨1, 1⟩
def F.THM_EVT_RELAX : Fld := ⟨2, 1⟩
def F.THM_EVT_SFAULT : Fld := ⟨3, 1⟩
def F.THM_EVT_ESCALATE : Fld := ⟨4, 1⟩
def F.THM_EVT_MON : Fld := ⟨5, 1⟩
def F.THM_EVT_TRIP : Fld := ⟨6, 1⟩
def F.THM_EVT_EN_MASK : Fld := ⟨0, 7⟩
def F.THM_SENS_TEMP : Fld := ⟨0, 16⟩
def F.THM_SENS_VALID : Fld := ⟨16, 1⟩
def F.THM_SENS_FAULT : Fld := ⟨17, 1⟩
def F.THM_SENS_KIND : Fld := ⟨18, 2⟩
def F.THM_SENS_SUBST : Fld := ⟨20, 1⟩
def F.THM_SCFG_RETIRE : Fld := ⟨0, 1⟩
def F.THM_SCFG_NEIGH : Fld := ⟨8, 5⟩
def F.THM_SCFG_TRIM : Fld := ⟨16, 8⟩
def F.THM_MON_VAL_VALUE : Fld := ⟨0, 16⟩
def F.THM_MON_LO_VALUE : Fld := ⟨0, 16⟩
def F.THM_MON_HI_VALUE : Fld := ⟨0, 16⟩
def F.THM_CAP_CAP : Fld := ⟨0, 2⟩
def F.THM_CAP_ESC : Fld := ⟨2, 1⟩
def F.THM_CAP_SRC : Fld := ⟨3, 5⟩
def F.THM_CAP_RELAXCNT : Fld := ⟨8, 8⟩
def F.RAS_ID_NCLASS : Fld := ⟨0, 8⟩
def F.RAS_ID_VERSION : Fld := ⟨8, 8⟩
def F.RAS_CTL_RECOAT_EN : Fld := ⟨0, 1⟩
def F.RAS_CTL_REMOTE_EN : Fld := ⟨1, 1⟩
def F.RAS_CTL_AUTO_RETIRE : Fld := ⟨2, 1⟩
def F.RAS_FLT_LIMIT_LIMIT : Fld := ⟨0, 4⟩
def F.RAS_FLT_WINDOW_MS : Fld := ⟨0, 22⟩
def F.RAS_EVT_FAULT : Fld := ⟨0, 1⟩
def F.RAS_EVT_RECOAT : Fld := ⟨1, 1⟩
def F.RAS_EVT_RECOAT_MISS : Fld := ⟨2, 1⟩
def F.RAS_EVT_RETIRE : Fld := ⟨3, 1⟩
def F.RAS_EVT_LIMIT : Fld := ⟨4, 1⟩
def F.RAS_EVT_DENIED : Fld := ⟨5, 1⟩
def F.RAS_EVT_PROG_OVR : Fld := ⟨6, 1⟩
def F.RAS_EVT_GEN_FAIL : Fld := ⟨7, 1⟩
def F.RAS_EVT_STALE : Fld := ⟨8, 1⟩
def F.RAS_EVT_TMEM : Fld := ⟨9, 1⟩
def F.RAS_EVT_EN_MASK : Fld := ⟨0, 10⟩
def F.RAS_ERR_INFO_UNIT : Fld := ⟨0, 16⟩
def F.RAS_ERR_INFO_KIND : Fld := ⟨16, 4⟩
def F.RAS_ERR_INFO_SITE : Fld := ⟨20, 4⟩
def F.RAS_ERR_INFO_GEN : Fld := ⟨24, 8⟩
def F.RAS_ERR_ADDR_HI_VALUE : Fld := ⟨0, 16⟩
def F.RAS_INJ_UNIT : Fld := ⟨0, 16⟩
def F.RAS_INJ_KIND : Fld := ⟨16, 4⟩
def F.RAS_INJ_NOCOUNT : Fld := ⟨20, 1⟩
def F.RAS_INJ_GO : Fld := ⟨31, 1⟩
def F.RAS_PROG_OVR_PROG_ID : Fld := ⟨0, 16⟩
def F.RAS_PROG_OVR_FUNC : Fld := ⟨16, 5⟩
def F.RAS_PROG_OVR_TL : Fld := ⟨21, 6⟩
def F.RAS_Q_UNIT_UNIT : Fld := ⟨0, 16⟩
def F.RAS_Q_STAT_INWIN : Fld := ⟨0, 4⟩
def F.RAS_Q_STAT_KIND : Fld := ⟨4, 4⟩
def F.RAS_Q_STAT_GEN : Fld := ⟨8, 8⟩
def F.RAS_Q_STAT_STATE : Fld := ⟨16, 3⟩
def F.RAS_Q_LAST_HI_VALUE : Fld := ⟨0, 16⟩
def F.SEP_ID_ENTRIES : Fld := ⟨0, 16⟩
def F.SEP_ID_VERSION : Fld := ⟨16, 8⟩
def F.SEP_CTL_EN : Fld := ⟨0, 1⟩
def F.SEP_CTL_MISS_ALL : Fld := ⟨1, 1⟩
def F.SEP_CTL_DUMP_EN : Fld := ⟨2, 1⟩
def F.SEP_CTL_MON_FATAL : Fld := ⟨3, 1⟩
def F.SEP_CTL_FREEZE : Fld := ⟨8, 1⟩
def F.SEP_CTL_UNFREEZE : Fld := ⟨9, 1⟩
def F.SEP_CTL_DUMP : Fld := ⟨10, 1⟩
def F.SEP_STAT_FROZEN : Fld := ⟨0, 1⟩
def F.SEP_STAT_CAUSE : Fld := ⟨1, 3⟩
def F.SEP_STAT_DUMP : Fld := ⟨4, 2⟩
def F.SEP_FREEZE_HI_RAW : Fld := ⟨0, 16⟩
def F.SEP_MARK_CODE_CODE : Fld := ⟨0, 8⟩
def F.SEP_DUMP_ADDR_BASE : Fld := ⟨16, 16⟩
def F.SEP_RD_STAT_VALID : Fld := ⟨0, 1⟩
def F.SEP_RD_STAT_GONE : Fld := ⟨1, 1⟩
def F.SEP_RD_STAT_PERR : Fld := ⟨2, 1⟩
def F.MGT_ID_VERSION : Fld := ⟨16, 8⟩
def F.MGT_CTL_EXT_LOCK : Fld := ⟨0, 1⟩
def F.MGT_CTL_PERST_SCOPE : Fld := ⟨1, 1⟩
def F.MGT_BOOT_STAT_SEL : Fld := ⟨0, 2⟩
def F.MGT_BOOT_STAT_STAGE : Fld := ⟨2, 3⟩
def F.MGT_BOOT_STAT_SLOT : Fld := ⟨5, 1⟩
def F.MGT_BOOT_STAT_HOST : Fld := ⟨6, 1⟩
def F.MGT_BOOT_STAT_FAIL : Fld := ⟨8, 4⟩
def F.MGT_RST_CAUSE_POR : Fld := ⟨0, 1⟩
def F.MGT_RST_CAUSE_RESET_N : Fld := ⟨1, 1⟩
def F.MGT_RST_CAUSE_PERST_N : Fld := ⟨2, 1⟩
def F.MGT_RST_CAUSE_SOFT : Fld := ⟨3, 1⟩
def F.MGT_RST_REQ_WARM : Fld := ⟨0, 1⟩
def F.MGT_ALERT_STAT_BLOCK : Fld := ⟨0, 14⟩
def F.MGT_ALERT_STAT_FATAL : Fld := ⟨16, 1⟩
def F.MGT_ALERT_STAT_BOOT_FAIL : Fld := ⟨17, 1⟩
def F.MGT_ALERT_STAT_THERMTRIP : Fld := ⟨18, 1⟩
def F.MGT_ALERT_EN_BLOCK : Fld := ⟨0, 14⟩
def F.MGT_ALERT_EN_FATAL : Fld := ⟨16, 1⟩
def F.MGT_ALERT_EN_BOOT_FAIL : Fld := ⟨17, 1⟩
def F.MGT_ALERT_EN_THERMTRIP : Fld := ⟨18, 1⟩
def F.MGT_EXT_STAT_SPI_ERR : Fld := ⟨0, 1⟩
def F.MGT_EXT_STAT_I3C_ERR : Fld := ⟨1, 1⟩
def F.MGT_EXT_STAT_LOCKED : Fld := ⟨2, 1⟩
def F.MGT_EXT_STAT_DROPPED : Fld := ⟨3, 1⟩
def F.MGT_I3C_CFG_SADDR : Fld := ⟨0, 7⟩
def F.MGT_I3C_CFG_DADDR : Fld := ⟨8, 7⟩
def F.MGT_I3C_CFG_DVALID : Fld := ⟨15, 1⟩
def F.MGT_I3C_CFG_IBI_EN : Fld := ⟨16, 1⟩
def F.MGT_GPIO_OUT_OUT : Fld := ⟨0, 16⟩
def F.MGT_GPIO_IN_IN : Fld := ⟨0, 16⟩
def F.MGT_HBOOT_ADDR_LO_VALUE : Fld := ⟨6, 26⟩
def F.MGT_HBOOT_CTL_GO : Fld := ⟨0, 1⟩
def F.MGT_HBOOT_CTL_BUSY : Fld := ⟨1, 1⟩
def F.MGT_HBOOT_CTL_DONE : Fld := ⟨2, 1⟩
def F.MGT_HBOOT_CTL_ERR : Fld := ⟨3, 1⟩
def F.MGT_MBOX_STAT_DEPTH : Fld := ⟨0, 7⟩
def F.MGT_MBOX_STAT_FW_READY : Fld := ⟨16, 1⟩
def F.NOC_ID_ROUTERS : Fld := ⟨0, 8⟩
def F.NOC_ID_PROBES : Fld := ⟨8, 8⟩
def F.NOC_ID_VERSION : Fld := ⟨16, 8⟩
def F.NOC_CTL_VN1_SHARE : Fld := ⟨0, 5⟩
def F.NOC_RSP_TIMEOUT_CYCLES : Fld := ⟨0, 24⟩
def F.NOC_DRAIN_LIMIT_CYCLES : Fld := ⟨0, 24⟩
def F.NOC_EPOCH_CUR : Fld := ⟨0, 1⟩
def F.NOC_EPOCH_STATE : Fld := ⟨1, 2⟩
def F.NOC_EPOCH_HELD : Fld := ⟨3, 1⟩
def F.NOC_EPOCH_SWITCHES : Fld := ⟨16, 16⟩
def F.NOC_EVT_HDR_PAR : Fld := ⟨0, 1⟩
def F.NOC_EVT_PAY_PAR : Fld := ⟨1, 1⟩
def F.NOC_EVT_TIMEOUT : Fld := ⟨2, 1⟩
def F.NOC_EVT_DENIED : Fld := ⟨3, 1⟩
def F.NOC_EVT_FENCE_DROP : Fld := ⟨4, 1⟩
def F.NOC_EVT_ISOLATE : Fld := ⟨5, 1⟩
def F.NOC_EVT_EPOCH_DONE : Fld := ⟨6, 1⟩
def F.NOC_EVT_FORCED_DRAIN : Fld := ⟨7, 1⟩
def F.NOC_EVT_ROUTE_ERR : Fld := ⟨8, 1⟩
def F.NOC_EVT_RT_REFUSE : Fld := ⟨9, 1⟩
def F.NOC_EVT_TRACE_DROP : Fld := ⟨10, 1⟩
def F.NOC_EVT_ERR_CAP : Fld := ⟨11, 1⟩
def F.NOC_EVT_EN_MASK : Fld := ⟨0, 12⟩
def F.NOC_ERR_INFO_CODE : Fld := ⟨0, 3⟩
def F.NOC_ERR_INFO_FUNC : Fld := ⟨3, 5⟩
def F.NOC_ERR_INFO_SRC : Fld := ⟨8, 8⟩
def F.NOC_ERR_INFO_TGT : Fld := ⟨16, 8⟩
def F.NOC_ERR_ADDR_HI_ADDR : Fld := ⟨0, 16⟩
def F.NOC_FENCE_DROP_ADDR_HI_ADDR : Fld := ⟨0, 16⟩
def F.NOC_RT_SEL_TGT : Fld := ⟨0, 8⟩
def F.NOC_RT_SEL_ROUTER : Fld := ⟨8, 8⟩
def F.NOC_RT_SEL_BANK : Fld := ⟨16, 1⟩
def F.NOC_RT_DATA_PORT : Fld := ⟨0, 4⟩
def F.NOC_RT_DATA_MODE : Fld := ⟨4, 2⟩
def F.NOC_RSTAT_ISOL : Fld := ⟨0, 9⟩
def F.NOC_RSTAT_LEVEL : Fld := ⟨16, 8⟩
def F.NOC_RSTAT_ERRNET : Fld := ⟨24, 4⟩
def F.PART_ACC_STRIPS : Fld := ⟨0, 4⟩
def F.PART_HBM_BASE : Fld := ⟨0, 14⟩
def F.PART_HBM_LAST : Fld := ⟨16, 14⟩
def F.PART_HBM_EN : Fld := ⟨31, 1⟩
def F.PART_CTL_EN : Fld := ⟨0, 1⟩
def F.PRB_CTL_EN : Fld := ⟨0, 1⟩
def F.PRB_CTL_MODE : Fld := ⟨1, 2⟩
def F.PRB_CTL_CLR : Fld := ⟨3, 1⟩
def F.PRB_POINT_ROUTER : Fld := ⟨0, 8⟩
def F.PRB_POINT_PORT : Fld := ⟨8, 4⟩
def F.PRB_POINT_NET : Fld := ⟨12, 2⟩
def F.PRB_FILT_VN : Fld := ⟨0, 2⟩
def F.PRB_FILT_CLASS : Fld := ⟨2, 3⟩
def F.PRB_FILT_FUNC_EN : Fld := ⟨5, 1⟩
def F.PRB_FILT_FUNC : Fld := ⟨6, 5⟩
def F.PRB_FILT_SRC_EN : Fld := ⟨11, 1⟩
def F.PRB_FILT_SRC : Fld := ⟨12, 8⟩
def F.PRB_FILT_TGT_EN : Fld := ⟨20, 1⟩
def F.PRB_FILT_TGT : Fld := ⟨21, 8⟩
def F.PRB_ADDR_HI_ADDR : Fld := ⟨0, 16⟩
def F.PRB_MASK_HI_ADDR : Fld := ⟨0, 16⟩
def F.PRB_TBASE_LO_ADDR : Fld := ⟨12, 20⟩
def F.PRB_TBASE_HI_ADDR : Fld := ⟨0, 16⟩
def F.PRB_TSIZE_LOG2 : Fld := ⟨0, 5⟩
def F.PRB_TWR_INDEX : Fld := ⟨0, 20⟩
def F.MEM_ID_NPC : Fld := ⟨0, 8⟩
def F.MEM_ID_STACKS : Fld := ⟨8, 8⟩
def F.MEM_ID_VERSION : Fld := ⟨16, 8⟩
def F.MEM_CTL_EN : Fld := ⟨0, 1⟩
def F.MEM_CTL_PBREF : Fld := ⟨1, 1⟩
def F.MEM_CTL_VN1_SHARE : Fld := ⟨2, 5⟩
def F.MEM_STAT_READY0 : Fld := ⟨0, 1⟩
def F.MEM_STAT_READY1 : Fld := ⟨1, 1⟩
def F.MEM_STAT_SR : Fld := ⟨2, 1⟩
def F.MEM_COH_BASE_BASE : Fld := ⟨0, 15⟩
def F.MEM_COH_SIZE_SIZE : Fld := ⟨0, 7⟩
def F.MEM_EVT_PAR : Fld := ⟨0, 1⟩
def F.MEM_EVT_ECC_CORR : Fld := ⟨1, 1⟩
def F.MEM_EVT_ECC_UNC : Fld := ⟨2, 1⟩
def F.MEM_EVT_SF_EVICT : Fld := ⟨3, 1⟩
def F.MEM_EVT_EN_MASK : Fld := ⟨0, 4⟩
def F.MEM_ERR_INFO_PC : Fld := ⟨0, 6⟩
def F.MEM_ERR_INFO_KIND : Fld := ⟨6, 2⟩
def F.MEM_ERR_ADDR_HI_ADDR : Fld := ⟨0, 16⟩
def F.MEM_PC_STATE : Fld := ⟨0, 2⟩
def F.MEM_PC_QDEPTH : Fld := ⟨8, 7⟩
def F.DMA_ID_CHANNELS : Fld := ⟨0, 5⟩
def F.DMA_ID_ENGINE : Fld := ⟨5, 3⟩
def F.DMA_ID_VERSION : Fld := ⟨8, 8⟩
def F.DMA_CTL_EN : Fld := ⟨0, 1⟩
def F.DMA_CHAIN_MAX_MAX : Fld := ⟨0, 16⟩
def F.DMA_EVT_SUM_CH : Fld := ⟨0, 16⟩
def F.DMA_OUTST_READS : Fld := ⟨0, 8⟩
def F.DMA_OUTST_WRITES : Fld := ⟨16, 8⟩
def F.DMA_UNIT_STATE : Fld := ⟨0, 3⟩
def F.DMA_UNIT_GEN : Fld := ⟨8, 8⟩
def F.CH_CTRL_SRC_HOST : Fld := ⟨0, 1⟩
def F.CH_CTRL_DST_HOST : Fld := ⟨1, 1⟩
def F.CH_CTRL_NEXT_HOST : Fld := ⟨2, 1⟩
def F.CH_CTRL_POLY : Fld := ⟨3, 3⟩
def F.CH_CTRL_CRC_INIT : Fld := ⟨6, 1⟩
def F.CH_CTRL_CRC_MODE : Fld := ⟨7, 2⟩
def F.CH_CTRL_END : Fld := ⟨9, 1⟩
def F.CH_CTRL_IRQ : Fld := ⟨10, 1⟩
def F.CH_CTRL_WB : Fld := ⟨11, 1⟩
def F.CH_CTRL_CHAIN : Fld := ⟨29, 1⟩
def F.CH_CTRL_START : Fld := ⟨30, 1⟩
def F.CH_CTRL_STOP : Fld := ⟨31, 1⟩
def F.CH_CFG_FUNC : Fld := ⟨0, 5⟩
def F.CH_CFG_VN : Fld := ⟨5, 1⟩
def F.CH_CFG_REQ_EN : Fld := ⟨6, 1⟩
def F.CH_CFG_BURST_LOG2 : Fld := ⟨7, 4⟩
def F.CH_CFG_DISP : Fld := ⟨11, 1⟩
def F.CH_CFG_VECTOR : Fld := ⟨12, 11⟩
def F.CH_CFG_IRQ_EN : Fld := ⟨23, 1⟩
def F.CH_COUNT_COUNT : Fld := ⟨0, 25⟩
def F.CH_STATUS_STATE : Fld := ⟨0, 3⟩
def F.CH_STATUS_ERR : Fld := ⟨4, 4⟩
def F.CH_STATUS_LEVEL : Fld := ⟨8, 1⟩
def F.CH_EVT_DONE : Fld := ⟨0, 1⟩
def F.CH_EVT_ERROR : Fld := ⟨1, 1⟩
def F.CH_EVT_DESC : Fld := ⟨2, 1⟩
def F.CH_EVT_WBUSY : Fld := ⟨3, 1⟩
def F.CH_EVT_DISP_OWNED : Fld := ⟨4, 1⟩
def F.CH_EVT_EN_MASK : Fld := ⟨0, 5⟩
def F.LNK_ID_LANES : Fld := ⟨0, 4⟩
def F.LNK_ID_VERSION : Fld := ⟨8, 8⟩
def F.LNK_ID_BUNDLE : Fld := ⟨16, 4⟩
def F.LNK_CTL_RATE : Fld := ⟨0, 2⟩
def F.LNK_CTL_PROT : Fld := ⟨2, 1⟩
def F.LNK_CTL_AUTO_SW : Fld := ⟨3, 1⟩
def F.LNK_STAT_UP : Fld := ⟨0, 8⟩
def F.LNK_STAT_SWLANE : Fld := ⟨8, 3⟩
def F.LNK_STAT_SWSTATE : Fld := ⟨11, 2⟩
def F.LNK_EVT_LANE : Fld := ⟨0, 1⟩
def F.LNK_EVT_SWITCH : Fld := ⟨1, 1⟩
def F.LNK_EVT_SWITCH_DONE : Fld := ⟨2, 1⟩
def F.LNK_EVT_SWITCH_FAIL : Fld := ⟨3, 1⟩
def F.LNK_EVT_REVERT_DONE : Fld := ⟨4, 1⟩
def F.LNK_EVT_TXTS_OVF : Fld := ⟨5, 1⟩
def F.LNK_EVT_TXTS : Fld := ⟨6, 1⟩
def F.LNK_EVT_NOSTREAM : Fld := ⟨7, 1⟩
def F.LNK_EVT_LATE : Fld := ⟨8, 1⟩
def F.LNK_EVT_BADSEC : Fld := ⟨9, 1⟩
def F.LNK_EVT_EGLATE : Fld := ⟨10, 1⟩
def F.LNK_EVT_MISSING : Fld := ⟨11, 1⟩
def F.LNK_EVT_CFG_REFUSE : Fld := ⟨12, 1⟩
def F.LNK_EVT_EN_MASK : Fld := ⟨0, 13⟩
def F.LNK_SPARE_CTL_LANE : Fld := ⟨0, 3⟩
def F.LNK_SPARE_CTL_FORCE : Fld := ⟨3, 1⟩
def F.LNK_SPARE_CTL_REVERT : Fld := ⟨4, 1⟩
def F.LNK_TXTS_REQ_LANE : Fld := ⟨0, 3⟩
def F.LNK_TXTS_REQ_GO : Fld := ⟨3, 1⟩
def F.LNK_TXTS_STAT_DEPTH : Fld := ⟨0, 5⟩
def F.LNK_TXTS_STAT_VALID : Fld := ⟨5, 1⟩
def F.LNK_TXTS_STAT_ID : Fld := ⟨16, 16⟩
def F.LNK_TXTS_HI_STAMP : Fld := ⟨0, 22⟩
def F.LNK_TXTS_POP_POP : Fld := ⟨0, 1⟩
def F.LNK_EGLATE_LIMIT_TC : Fld := ⟨0, 24⟩
def F.LN_CTL_EN : Fld := ⟨0, 1⟩
def F.LN_CTL_AUTOSLIP : Fld := ⟨1, 1⟩
def F.LN_CTL_EXPECT_EN : Fld := ⟨2, 1⟩
def F.LN_CTL_CTLE_FORCE : Fld := ⟨3, 1⟩
def F.LN_CTL_TEST : Fld := ⟨4, 1⟩
def F.LN_CTL_LOOP : Fld := ⟨5, 2⟩
def F.LN_STAT_STATE : Fld := ⟨0, 4⟩
def F.LN_STAT_SIGNAL : Fld := ⟨4, 1⟩
def F.LN_STAT_BLOCKLOCK : Fld := ⟨5, 1⟩
def F.LN_STAT_SLIPREQ : Fld := ⟨6, 1⟩
def F.LN_STAT_FENCED : Fld := ⟨7, 1⟩
def F.LN_STAT_ATTEMPTS : Fld := ⟨8, 5⟩
def F.LN_STAT_FAIL : Fld := ⟨16, 4⟩
def F.LN_STAT_GEN : Fld := ⟨24, 8⟩
def F.LN_SLIP_SLIP : Fld := ⟨0, 1⟩
def F.LN_CTLE_VALUE : Fld := ⟨0, 6⟩
def F.LN_CTLE_FORCE : Fld := ⟨8, 6⟩
def F.LN_FFE_PRE : Fld := ⟨0, 4⟩
def F.LN_FFE_POST : Fld := ⟨4, 5⟩
def F.LN_FFE_SWING : Fld := ⟨9, 3⟩
def F.LN_TXLAT_LAT : Fld := ⟨0, 16⟩
def F.LN_RXLAT_LAT : Fld := ⟨0, 16⟩
def F.LN_PRBS_GEN : Fld := ⟨0, 1⟩
def F.LN_PRBS_CHK : Fld := ⟨1, 1⟩
def F.LN_PRBS_PAT : Fld := ⟨2, 3⟩
def F.LN_PRBS_INV : Fld := ⟨5, 1⟩
def F.LN_PRBS_STAT_LOCK : Fld := ⟨0, 1⟩
def F.LN_INJ_MODE : Fld := ⟨0, 2⟩
def F.LN_INJ_GO : Fld := ⟨2, 1⟩
def F.LN_INJ_N : Fld := ⟨4, 8⟩
def F.LN_EVT_UP : Fld := ⟨0, 1⟩
def F.LN_EVT_DOWN : Fld := ⟨1, 1⟩
def F.LN_EVT_ABSENT : Fld := ⟨2, 1⟩
def F.LN_EVT_TRAIN_FAIL : Fld := ⟨3, 1⟩
def F.LN_EVT_LOS_TRAIN : Fld := ⟨4, 1⟩
def F.LN_EVT_SLIPREQ : Fld := ⟨5, 1⟩
def F.LN_EVT_TEST_REFUSE : Fld := ⟨6, 1⟩
def F.LN_EVT_FE_OVF : Fld := ⟨7, 1⟩
def F.LN_EVT_EN_MASK : Fld := ⟨0, 8⟩
def F.RXS_CFG_EN : Fld := ⟨0, 1⟩
def F.RXS_CFG_LANE : Fld := ⟨1, 3⟩
def F.RXS_CFG_FMT : Fld := ⟨4, 4⟩
def F.RXS_CFG_OWNER : Fld := ⟨8, 5⟩
def F.RXS_LAYOUT_NSEC : Fld := ⟨0, 8⟩
def F.RXS_LAYOUT_STRIDE : Fld := ⟨8, 6⟩
def F.TXS_CFG_EN : Fld := ⟨0, 1⟩
def F.TXS_CFG_LANE : Fld := ⟨1, 3⟩
def F.TXS_CFG_FMT : Fld := ⟨4, 4⟩
def F.TXS_CFG_OWNER : Fld := ⟨8, 5⟩
def F.TXS_LAYOUT_NSEC : Fld := ⟨0, 8⟩
def F.TXS_LAYOUT_STRIDE : Fld := ⟨8, 6⟩
def F.FEC_ID_NLDEC : Fld := ⟨0, 4⟩
def F.FEC_ID_NLENC : Fld := ⟨4, 4⟩
def F.FEC_ID_NPDEC : Fld := ⟨8, 4⟩
def F.FEC_ID_NTDEC : Fld := ⟨12, 4⟩
def F.FEC_ID_VERSION : Fld := ⟨16, 8⟩
def F.FEC_ID_STRIP : Fld := ⟨24, 2⟩
def F.FEC_CTL_POST_EN : Fld := ⟨0, 1⟩
def F.FEC_CTL_REPLAY_EN : Fld := ⟨1, 1⟩
def F.FEC_JOB_LIMIT_CYCLES : Fld := ⟨0, 16⟩
def F.FEC_EVT_UNIT_FAULT : Fld := ⟨0, 1⟩
def F.FEC_EVT_REPLAY : Fld := ⟨1, 1⟩
def F.FEC_EVT_NOSIB : Fld := ⟨2, 1⟩
def F.FEC_EVT_REJECT : Fld := ⟨3, 1⟩
def F.FEC_EVT_LATE : Fld := ⟨4, 1⟩
def F.FEC_EVT_PARERR : Fld := ⟨5, 1⟩
def F.FEC_EVT_STALE : Fld := ⟨6, 1⟩
def F.FEC_EVT_BAD_DESC : Fld := ⟨7, 1⟩
def F.FEC_EVT_EN_MASK : Fld := ⟨0, 8⟩
def F.FEC_QD0_LDEC : Fld := ⟨0, 11⟩
def F.FEC_QD0_LENC : Fld := ⟨16, 10⟩
def F.FEC_QD1_PDEC : Fld := ⟨0, 9⟩
def F.FEC_QD1_TDEC : Fld := ⟨16, 9⟩
def F.FEC_UNIT_STATE : Fld := ⟨0, 3⟩
def F.FEC_UNIT_GEN : Fld := ⟨8, 8⟩
def F.FEC_UNIT_JOBS : Fld := ⟨16, 16⟩
def F.CXU_ID_UNIT : Fld := ⟨0, 5⟩
def F.CXU_ID_VERSION : Fld := ⟨8, 8⟩
def F.CXU_CTL_EN : Fld := ⟨0, 1⟩
def F.CXU_CTL_SRC : Fld := ⟨1, 1⟩
def F.CXU_CTL_NCO_EN : Fld := ⟨2, 1⟩
def F.CXU_CTL_HB : Fld := ⟨3, 2⟩
def F.CXU_CTL_SUPPRESS : Fld := ⟨5, 1⟩
def F.CXU_SRC_STREAM : Fld := ⟨0, 12⟩
def F.CXU_IPERIOD_PERIOD : Fld := ⟨0, 18⟩
def F.CXU_DEC_D : Fld := ⟨0, 5⟩
def F.CXU_DEC_SHIFT : Fld := ⟨8, 5⟩
def F.CXU_BANK_SWITCH : Fld := ⟨0, 1⟩
def F.CXU_BANK_SW_AT : Fld := ⟨1, 1⟩
def F.CXU_BANK_START : Fld := ⟨2, 1⟩
def F.CXU_BANK_INUSE : Fld := ⟨4, 1⟩
def F.CXU_BANK_STATE : Fld := ⟨5, 2⟩
def F.CXU_BANK_HELD : Fld := ⟨7, 1⟩
def F.CXU_BANK_FADE_LOG2 : Fld := ⟨8, 4⟩
def F.CXU_SWTIME_HI_VALUE : Fld := ⟨0, 22⟩
def F.CXU_BANKA_CFG_N : Fld := ⟨0, 9⟩
def F.CXU_BANKA_CFG_MINPH : Fld := ⟨12, 1⟩
def F.CXU_BANKB_CFG_N : Fld := ⟨0, 9⟩
def F.CXU_BANKB_CFG_MINPH : Fld := ⟨12, 1⟩
def F.CXU_LATENCY_A_DELAY : Fld := ⟨0, 17⟩
def F.CXU_LATENCY_B_DELAY : Fld := ⟨0, 17⟩
def F.CXU_SYNC_GO : Fld := ⟨0, 1⟩
def F.CXU_SYNC_TL_EN : Fld := ⟨1, 1⟩
def F.CXU_SYNC_TL : Fld := ⟨8, 6⟩
def F.CXU_OUT_HI_BASE : Fld := ⟨0, 16⟩
def F.CXU_HDR_HI_BASE : Fld := ⟨0, 16⟩
def F.CXU_OUT_CFG_MODE : Fld := ⟨0, 1⟩
def F.CXU_OUT_CFG_LOG2BLK : Fld := ⟨4, 4⟩
def F.CXU_OUT_CFG_LOG2RING : Fld := ⟨8, 5⟩
def F.CXU_SLIP_TOL_TOL : Fld := ⟨0, 16⟩
def F.CXU_PWR_CFG_K : Fld := ⟨0, 5⟩
def F.CXU_PWR_CFG_EN : Fld := ⟨5, 1⟩
def F.CXU_PWR_CFG_ENG : Fld := ⟨6, 1⟩
def F.CXU_PWR_CFG_TLN : Fld := ⟨7, 1⟩
def F.CXU_PWR_CFG_TL : Fld := ⟨8, 6⟩
def F.CXU_PWR_ENG_MASK : Fld := ⟨0, 8⟩
def F.CXU_PWR_ENG_TILE : Fld := ⟨16, 7⟩
def F.CXU_STAT_RUN : Fld := ⟨0, 1⟩
def F.CXU_STAT_LEVEL : Fld := ⟨1, 1⟩
def F.CXU_STAT_CFG_ERR : Fld := ⟨2, 1⟩
def F.CXU_EVT_RISE : Fld := ⟨0, 1⟩
def F.CXU_EVT_FALL : Fld := ⟨1, 1⟩
def F.CXU_EVT_WREFUSE : Fld := ⟨2, 1⟩
def F.CXU_EVT_BANK_ERR : Fld := ⟨3, 1⟩
def F.CXU_EVT_SLIP : Fld := ⟨4, 1⟩
def F.CXU_EVT_GAP : Fld := ⟨5, 1⟩
def F.CXU_EVT_SAT : Fld := ⟨6, 1⟩
def F.CXU_EVT_FAULT : Fld := ⟨7, 1⟩
def F.CXU_EVT_EN_MASK : Fld := ⟨0, 8⟩
def F.CXU_UNIT_STATE : Fld := ⟨0, 3⟩
def F.CXU_UNIT_GEN : Fld := ⟨8, 8⟩
def F.CXU_COEFA_H : Fld := ⟨0, 18⟩
def F.CXU_COEFB_H : Fld := ⟨0, 18⟩
def F.FFT_ID_UNIT : Fld := ⟨0, 4⟩
def F.FFT_ID_VERSION : Fld := ⟨8, 8⟩
def F.FFT_CTL_POST_EN : Fld := ⟨0, 1⟩
def F.FFT_CTL_REPLAY_EN : Fld := ⟨1, 1⟩
def F.FFT_JOB_LIMIT_CYCLES : Fld := ⟨0, 16⟩
def F.FFT_EVT_UNIT_FAULT : Fld := ⟨0, 1⟩
def F.FFT_EVT_REPLAY : Fld := ⟨1, 1⟩
def F.FFT_EVT_NOSIB : Fld := ⟨2, 1⟩
def F.FFT_EVT_REJECT : Fld := ⟨3, 1⟩
def F.FFT_EVT_LATE : Fld := ⟨4, 1⟩
def F.FFT_EVT_PARERR : Fld := ⟨5, 1⟩
def F.FFT_EVT_SAT : Fld := ⟨6, 1⟩
def F.FFT_EVT_BAD_DESC : Fld := ⟨7, 1⟩
def F.FFT_EVT_EN_MASK : Fld := ⟨0, 8⟩
def F.FFT_QD_DEPTH : Fld := ⟨0, 9⟩
def F.FFT_UNIT_STATE : Fld := ⟨0, 3⟩
def F.FFT_UNIT_GEN : Fld := ⟨8, 8⟩
def F.FFT_UNIT_JOBS : Fld := ⟨16, 16⟩
def F.STW_ID_SECTOR : Fld := ⟨0, 4⟩
def F.STW_ID_VERSION : Fld := ⟨8, 8⟩
def F.STW_STAT_STATE : Fld := ⟨0, 3⟩
def F.STW_STAT_BUSY : Fld := ⟨3, 1⟩
def F.STW_STAT_FENCE : Fld := ⟨4, 2⟩
def F.STW_STAT_CUR : Fld := ⟨6, 2⟩
def F.STW_STAT_ON_OSC : Fld := ⟨8, 1⟩
def F.STW_STAT_HELD : Fld := ⟨9, 1⟩
def F.STW_STAT_GEN : Fld := ⟨16, 8⟩
def F.STW_EVT_XITION_DONE : Fld := ⟨0, 1⟩
def F.STW_EVT_FAULT : Fld := ⟨1, 1⟩
def F.STW_EVT_FENCED : Fld := ⟨2, 1⟩
def F.STW_EVT_READY : Fld := ⟨3, 1⟩
def F.STW_EVT_GEN_FAIL : Fld := ⟨4, 1⟩
def F.STW_EVT_TILE_LOST : Fld := ⟨5, 1⟩
def F.STW_EVT_EN_MASK : Fld := ⟨0, 6⟩
def F.STW_LAST_FLT_UNIT : Fld := ⟨0, 16⟩
def F.STW_LAST_FLT_KIND : Fld := ⟨16, 4⟩
def F.STW_LAST_FLT_SITE : Fld := ⟨20, 4⟩
def F.STW_LAST_FLT_GEN : Fld := ⟨24, 8⟩
def F.TSU_CTL_DISP_EN : Fld := ⟨0, 1⟩
def F.TSU_CTL_STEAL_EN : Fld := ⟨8, 1⟩
def F.TSU_CTL_STEAL_SCOPE : Fld := ⟨9, 2⟩
def F.TSU_TSK_LIMIT_VALUE : Fld := ⟨0, 16⟩
def F.TSU_STEAL_AGE_VALUE : Fld := ⟨0, 16⟩
def F.TILE_SPARE_MASK : Fld := ⟨0, 8⟩
def F.TILE_CP3_GRANT_MASK : Fld := ⟨0, 8⟩
def F.TSU_PCACHE_BASE : Fld := ⟨0, 8⟩
def F.TSU_PCACHE_SIZE : Fld := ⟨16, 8⟩
def F.TSU_QD01_QLOW : Fld := ⟨0, 10⟩
def F.TSU_QD01_QHIGH : Fld := ⟨16, 10⟩
def F.TSU_QD23_QLOW : Fld := ⟨0, 10⟩
def F.TSU_QD23_QHIGH : Fld := ⟨16, 10⟩
def F.TSU_RISK_OP : Fld := ⟨0, 2⟩
def F.TSU_RISK_FASTOSC : Fld := ⟨2, 1⟩
def F.TSU_RISK_RISK_COUNT : Fld := ⟨16, 12⟩
def F.TSU_EVT_LIMIT : Fld := ⟨0, 1⟩
def F.TSU_EVT_DL_STOP : Fld := ⟨1, 1⟩
def F.TSU_EVT_PARTITION : Fld := ⟨2, 1⟩
def F.TSU_EVT_WINDOW : Fld := ⟨3, 1⟩
def F.TSU_EVT_PROG_BAD : Fld := ⟨4, 1⟩
def F.TSU_EVT_PREEMPT : Fld := ⟨5, 1⟩
def F.TSU_EVT_QFULL : Fld := ⟨6, 1⟩
def F.TSU_EVT_COMMIT_ERR : Fld := ⟨7, 1⟩
def F.TSU_EVT_EN_MASK : Fld := ⟨0, 8⟩
def F.ECP_CTL_HALT : Fld := ⟨0, 1⟩
def F.ECP_CTL_RESET : Fld := ⟨1, 1⟩
def F.ECP_CTL_DOORBELL : Fld := ⟨2, 1⟩
def F.ECP_STAT_STATE : Fld := ⟨0, 4⟩
def F.ECP_STAT_GEN : Fld := ⟨8, 8⟩
def F.ECP_STAT_KIND : Fld := ⟨16, 4⟩
def F.ECP_STAT_SPARE : Fld := ⟨20, 1⟩
def F.ECP_STAT_GRANT : Fld := ⟨21, 1⟩
def F.ECP_TASK_TASK_ID : Fld := ⟨0, 13⟩
def F.ECP_TASK_FUNC : Fld := ⟨13, 5⟩
def F.ECP_TASK_TL : Fld := ⟨18, 6⟩
def F.ECP_TASK_RECOAT : Fld := ⟨24, 1⟩
def F.ECP_TASK_VALID : Fld := ⟨25, 1⟩
def F.ECP_FLT_KIND : Fld := ⟨0, 4⟩
def F.ECP_FLT_SITE : Fld := ⟨4, 4⟩
def F.ECP_FLT_FCNT : Fld := ⟨16, 16⟩
def F.ECP_PC_ADDR : Fld := ⟨3, 12⟩

/-! ## Descriptors -/

/-- ID registers, R539. -/
def regsID : List RegDesc := [
  ⟨0x0, [], 0xa1021f2c, 0, true, 0xa1031f2c, 0, 0, .any,
    [⟨0, 16, .ro, [], .any⟩, ⟨16, 16, .ro, [], .any⟩]⟩,
  ⟨0x4, [], 0xa0, 0, true, 0xa0, 0x100, 0, .any,
    [⟨0, 8, .ro, [], .any⟩, ⟨8, 5, .ro, [], .any⟩, ⟨16, 1, .ro, [], .any⟩]⟩,
  ⟨0x8, [], 0x0, 0, true, 0x0, 0, 0, .any,
    [⟨0, 32, .ro, [], .any⟩]⟩,
  ⟨0xc, [], 0x0, 0, true, 0x0, 0, 1, .any,
    [⟨0, 32, .ro, [], .any⟩]⟩,
  ⟨0x10, [], 0x0, 0, true, 0x0, 0, 2, .any,
    [⟨0, 32, .ro, [], .any⟩]⟩,
  ⟨0x14, [], 0x100, 0, true, 0x100, 0, 0, .any,
    [⟨0, 32, .ro, [], .any⟩]⟩]

/-- SWATCH registers, R445. -/
def regsSWATCH : List RegDesc := [
  ⟨0x100, [], 0x1fff, 0, true, 0x1ff, 0, 0, .any,
    [⟨0, 32, .ro, [], .any⟩]⟩,
  ⟨0x104, [(0x4, 7)], 0x0, 0, true, 0x0, 0, 0, .any,
    [⟨0, 32, .ro, [], .any⟩]⟩,
  ⟨0x120, [(0x4, 8)], 0x0, 0, true, 0x0, 0, 0, .any,
    [⟨0, 32, .rw, [], .any⟩]⟩,
  ⟨0x140, [], 0x0, 0, true, 0x0, 0, 0, .any,
    [⟨0, 1, .wo, [], .any⟩]⟩,
  ⟨0x144, [], 0x0, 0, true, 0x0, 0, 0, .any,
    [⟨0, 1, .ro, [], .any⟩, ⟨1, 1, .ro, [], .any⟩, ⟨8, 8, .ro, [], .any⟩]⟩]

/-- HIF registers, R443. -/
def regsHIF : List RegDesc := [
  ⟨0x1000, [], 0x10040, 0, true, 0x10010, 0x100, 0, .any,
    [⟨0, 8, .ro, [], .any⟩, ⟨8, 5, .ro, [], .any⟩, ⟨16, 8, .ro, [], .any⟩]⟩,
  ⟨0x1004, [], 0x1, 0, true, 0x1, 0, 0, .any,
    [⟨0, 1, .rw, [], .any⟩]⟩,
  ⟨0x1008, [], 0x8, 0, true, 0x8, 0, 0, .any,
    [⟨0, 1, .ro, [], .any⟩, ⟨1, 1, .ro, [], .any⟩, ⟨2, 1, .ro, [], .any⟩, ⟨3, 1, .ro, [], .any⟩, ⟨4, 1, .ro, [], .any⟩]⟩,
  ⟨0x100c, [], 0x0, 0, true, 0x0, 0, 0, .any,
    [⟨0, 1, .w1c, [], .any⟩, ⟨1, 1, .w1c, [], .any⟩, ⟨2, 1, .w1c, [], .any⟩, ⟨3, 1, .w1c, [], .any⟩, ⟨4, 1, .w1c, [], .any⟩, ⟨5, 1, .w1c, [], .any⟩, ⟨6, 1, .w1c, [], .any⟩]⟩,
  ⟨0x1010, [], 0x0, 0, true, 0x0, 0, 0, .any,
    [⟨0, 7, .rw, [], .any⟩]⟩,
  ⟨0x1014, [], 0x0, 0, true, 0x0, 0, 0, .any,
    [⟨0, 11, .rw, [], .any⟩, ⟨16, 1, .rw, [], .any⟩]⟩,
  ⟨0x1018, [], 0x186a0, 0, true, 0x186a0, 0, 0, .any,
    [⟨0, 24, .rw, [(1000, 16777215)], .pf⟩]⟩,
  ⟨0x1030, [], 0x0, 0, true, 0x0, 0, 0, .any,
    [⟨0, 32, .ro, [], .any⟩]⟩,
  ⟨0x1034, [], 0x0, 0, true, 0x0, 0, 0, .any,
    [⟨0, 32, .ro, [], .any⟩]⟩,
  ⟨0x1038, [], 0x0, 0, true, 0x0, 0, 0, .any,
    [⟨0, 32, .ro, [], .any⟩]⟩,
  ⟨0x103c, [], 0x0, 0, true, 0x0, 0, 0, .any,
    [⟨0, 32, .ro, [], .any⟩]⟩,
  ⟨0x1040, [], 0x0, 0, true, 0x0, 0, 0, .any,
    [⟨0, 32, .ro, [], .any⟩]⟩,
  ⟨0x1048, [], 0x0, 0, true, 0x0, 0, 1, .any,
    [⟨0, 32, .ro, [], .any⟩]⟩,
  ⟨0x104c, [], 0x0, 0, true, 0x0, 0, 2, .any,
    [⟨0, 4, .ro, [], .any⟩]⟩,
  ⟨0x1050, [], 0x0, 0, true, 0x0, 0, 0, .any,
    [⟨0, 14, .ro, [], .any⟩]⟩,
  ⟨0x1054, [], 0x0, 0, true, 0x0, 0, 0, .any,
    [⟨0, 11, .rw, [], .any⟩, ⟨16, 1, .rw, [], .any⟩]⟩,
  ⟨0x2000, [(0x40, 64)], 0x0, 0, true, 0x0, 0, 0, .any,
    [⟨0, 1, .rw, [], .any⟩, ⟨1, 1, .rw, [], .any⟩]⟩,
  ⟨0x2004, [(0x40, 64)], 0x101, 0, true, 0x101, 0, 0, .any,
    [⟨0, 4, .rw, [(1, 12)], .any⟩, ⟨8, 4, .rw, [(1, 12)], .any⟩]⟩,
  ⟨0x2008, [(0x40, 64)], 0x0, 0, true, 0x0, 0, 1, .any,
    [⟨12, 20, .rw, [], .any⟩]⟩,
  ⟨0x200c, [(0x40, 64)], 0x0, 0, true, 0x0, 0, 2, .any,
    [⟨0, 32, .rw, [], .any⟩]⟩,
  ⟨0x2010, [(0x40, 64)], 0x0, 0, true, 0x0, 0, 1, .any,
    [⟨12, 20, .rw, [], .any⟩]⟩,
  ⟨0x2014, [(0x40, 64)], 0x0, 0, true, 0x0, 0, 2, .any,
    [⟨0, 32, .rw, [], .any⟩]⟩,
  ⟨0x2018, [(0x40, 64)], 0x0, 0, true, 0x0, 0, 0, .any,
    [⟨0, 11, .rw, [], .any⟩]⟩,
  ⟨0x201c, [(0x40, 64)], 0x1, 0, true, 0x1, 0, 0, .any,
    [⟨0, 9, .rw, [(1, 256)], .any⟩, ⟨16, 8, .rw, [], .any⟩]⟩,
  ⟨0x2020, [(0x40, 64)], 0x0, 0, true, 0x0, 0, 0, .any,
    [⟨0, 12, .ro, [], .any⟩]⟩,
  ⟨0x2024, [(0x40, 64)], 0x0, 0, true, 0x0, 0, 0, .any,
    [⟨0, 12, .ro, [], .any⟩]⟩,
  ⟨0x2028, [(0x40, 64)], 0x10000, 0, true, 0x10000, 0, 0, .any,
    [⟨0, 12, .ro, [], .any⟩, ⟨16, 1, .ro, [], .any⟩]⟩,
  ⟨0x202c, [(0x40, 64)], 0x0, 0, true, 0x0, 0, 0, .any,
    [⟨0, 12, .ro, [], .any⟩]⟩,
  ⟨0x2030, [(0x40, 64)], 0x0, 0, true, 0x0, 0, 0, .any,
    [⟨0, 1, .ro, [], .any⟩, ⟨1, 1, .ro, [], .any⟩, ⟨2, 3, .ro, [], .any⟩]⟩,
  ⟨0x2034, [(0x40, 64)], 0x0, 0, true, 0x0, 0, 0, .any,
    [⟨0, 9, .ro, [], .any⟩]⟩,
  ⟨0x3000, [(0x40, 32)], 0x10, 0, true, 0x10, 0, 0, .pf,
    [⟨0, 7, .rw, [(0, 64)], .any⟩]⟩,
  ⟨0x3004, [(0x40, 32)], 0x0, 0, true, 0x0, 0, 0, .any,
    [⟨0, 1, .ro, [], .any⟩, ⟨1, 1, .ro, [], .any⟩, ⟨2, 1, .ro, [], .any⟩]⟩,
  ⟨0x7000, [(0x4, 64)], 0x0, 0, true, 0x0, 0, 0, .any,
    [⟨0, 32, .ro, [], .any⟩]⟩,
  ⟨0x8000, [(0x10, 2048)], 0x0, 0, true, 0x0, 0, 1, .any,
    [⟨0, 32, .rw, [], .any⟩]⟩,
  ⟨0x8004, [(0x10, 2048)], 0x0, 0, true, 0x0, 0, 2, .any,
    [⟨0, 32, .rw, [], .any⟩]⟩,
  ⟨0x8008, [(0x10, 2048)], 0x0, 0, true, 0x0, 0, 0, .any,
    [⟨0, 32, .rw, [], .any⟩]⟩,
  ⟨0x800c, [(0x10, 2048)], 0x1, 0, true, 0x1, 0, 0, .any,
    [⟨0, 1, .rw, [], .any⟩]⟩]

/-- TLN registers, R90. -/
def regsTLN : List RegDesc := [
  ⟨0x10000, [], 0x10040, 0, false, 0x10040, 0, 0, .any,
    [⟨0, 16, .ro, [], .any⟩, ⟨16, 8, .ro, [], .any⟩]⟩,
  ⟨0x10004, [], 0x0, 0, false, 0x0, 0, 0, .any,
    [⟨0, 1, .rw, [], .any⟩]⟩,
  ⟨0x10008, [], 0x0, 0, false, 0x0, 0, 0, .any,
    [⟨0, 9, .ro, [], .any⟩, ⟨10, 11, .ro, [], .any⟩]⟩,
  ⟨0x1000c, [], 0x0, 0, false, 0x0, 0, 0, .any,
    [⟨0, 1, .ro, [], .any⟩, ⟨1, 1, .w1c, [], .any⟩, ⟨2, 1, .w1c, [], .any⟩]⟩,
  ⟨0x10010, [], 0x0, 0, false, 0x0, 0, 0, .any,
    [⟨0, 3, .rw, [], .any⟩]⟩,
  ⟨0x10014, [], 0x0, 0, false, 0x0, 0, 0, .any,
    [⟨0, 32, .ro, [], .any⟩]⟩,
  ⟨0x10018, [], 0x0, 0, false, 0x0, 0, 0, .any,
    [⟨0, 32, .ro, [], .any⟩]⟩,
  ⟨0x1001c, [], 0x0, 0, false, 0x0, 0, 0, .any,
    [⟨0, 16, .ro, [], .any⟩]⟩,
  ⟨0x10020, [(0x4, 4)], 0x0, 0, false, 0x0, 0, 0, .any,
    [⟨0, 32, .rw, [], .any⟩]⟩,
  ⟨0x10030, [], 0x0, 0, false, 0x0, 0, 0, .any,
    [⟨0, 32, .ro, [], .any⟩]⟩,
  ⟨0x11000, [(0x40, 64)], 0x0, 0, false, 0x0, 0, 0, .any,
    [⟨0, 1, .rw, [], .any⟩, ⟨1, 1, .rw, [], .any⟩, ⟨8, 5, .rw, [], .pf⟩, ⟨16, 6, .rw, [], .any⟩]⟩,
  ⟨0x11004, [(0x40, 64)], 0x1e0000, 0, false, 0x1e0000, 0, 0, .any,
    [⟨0, 24, .rw, [], .any⟩]⟩,
  ⟨0x11008, [(0x40, 64)], 0x0, 0, false, 0x0, 0, 1, .any,
    [⟨0, 32, .rw, [], .any⟩]⟩,
  ⟨0x1100c, [(0x40, 64)], 0x0, 0, false, 0x0, 0, 2, .any,
    [⟨0, 16, .rw, [], .any⟩]⟩,
  ⟨0x11010, [(0x40, 64)], 0x0, 0, false, 0x0, 0, 0, .any,
    [⟨0, 8, .rw, [], .any⟩]⟩,
  ⟨0x11014, [(0x40, 64)], 0x10000, 0, false, 0x10000, 0, 0, .any,
    [⟨0, 24, .rw, [], .any⟩]⟩,
  ⟨0x11018, [(0x40, 64)], 0x0, 0, false, 0x0, 0, 0, .any,
    [⟨0, 24, .rw, [], .any⟩]⟩,
  ⟨0x1101c, [(0x40, 64)], 0x0, 0, false, 0x0, 0, 1, .any,
    [⟨5, 27, .rw, [], .any⟩]⟩,
  ⟨0x11020, [(0x40, 64)], 0x0, 0, false, 0x0, 0, 2, .any,
    [⟨0, 16, .rw, [], .any⟩]⟩,
  ⟨0x11024, [(0x40, 64)], 0x1, 0, false, 0x1, 0, 0, .any,
    [⟨0, 4, .rw, [(1, 12)], .any⟩]⟩,
  ⟨0x11028, [(0x40, 64)], 0x0, 0, false, 0x0, 0, 0, .any,
    [⟨0, 12, .ro, [], .any⟩]⟩,
  ⟨0x1102c, [(0x40, 64)], 0x0, 0, false, 0x0, 0, 0, .any,
    [⟨0, 12, .rw, [], .any⟩]⟩,
  ⟨0x11030, [(0x40, 64)], 0x0, 0, false, 0x0, 0, 0, .any,
    [⟨0, 32, .rw, [], .any⟩]⟩,
  ⟨0x11034, [(0x40, 64)], 0x0, 0, false, 0x0, 0, 0, .any,
    [⟨0, 1, .ro, [], .any⟩, ⟨1, 1, .ro, [], .any⟩, ⟨2, 3, .ro, [], .any⟩]⟩,
  ⟨0x11038, [(0x40, 64)], 0x0, 0, false, 0x0, 0, 0, .any,
    [⟨0, 1, .w1c, [], .any⟩, ⟨1, 1, .w1c, [], .any⟩, ⟨2, 1, .w1c, [], .any⟩, ⟨3, 1, .w1c, [], .any⟩, ⟨4, 1, .w1c, [], .any⟩, ⟨5, 1, .w1c, [], .any⟩]⟩,
  ⟨0x1103c, [(0x40, 64)], 0x0, 0, false, 0x0, 0, 0, .any,
    [⟨0, 6, .rw, [], .any⟩]⟩,
  ⟨0x12000, [(0x20, 64)], 0x0, 0, false, 0x0, 0, 1, .any,
    [⟨0, 32, .ro, [], .any⟩]⟩,
  ⟨0x12004, [(0x20, 64)], 0x0, 0, false, 0x0, 0, 2, .any,
    [⟨0, 16, .ro, [], .any⟩]⟩,
  ⟨0x12008, [(0x20, 64)], 0x0, 0, false, 0x0, 0, 0, .any,
    [⟨0, 32, .ro, [], .any⟩]⟩,
  ⟨0x1200c, [(0x20, 64)], 0x0, 0, false, 0x0, 0, 0, .any,
    [⟨0, 32, .ro, [], .any⟩]⟩,
  ⟨0x12010, [(0x20, 64)], 0x0, 0, false, 0x0, 0, 0, .any,
    [⟨0, 32, .ro, [], .any⟩]⟩,
  ⟨0x12014, [(0x20, 64)], 0x0, 0, false, 0x0, 0, 0, .any,
    [⟨0, 32, .ro, [], .any⟩]⟩,
  ⟨0x12018, [(0x20, 64)], 0x0, 0, false, 0x0, 0, 0, .any,
    [⟨0, 32, .ro, [], .any⟩]⟩]

/-- TIM registers, R410. -/
def regsTIM0 : List RegDesc := [
  ⟨0x20000, [], 0x110, 0, false, 0x110, 0, 0, .any,
    [⟨0, 8, .ro, [], .any⟩, ⟨8, 8, .ro, [], .any⟩]⟩,
  ⟨0x20004, [], 0x0, 0, false, 0x0, 0, 0, .any,
    [⟨0, 1, .rw, [], .any⟩, ⟨1, 1, .rw, [], .any⟩, ⟨2, 1, .rw, [], .any⟩]⟩,
  ⟨0x20008, [], 0x0, 0, false, 0x0, 0, 0, .any,
    [⟨0, 1, .ro, [], .any⟩, ⟨1, 1, .ro, [], .any⟩, ⟨2, 1, .ro, [], .any⟩, ⟨3, 1, .ro, [], .any⟩]⟩,
  ⟨0x2000c, [], 0x0, 0, false, 0x0, 0, 0, .any,
    [⟨0, 1, .w1c, [], .any⟩, ⟨1, 1, .ro, [], .any⟩, ⟨2, 1, .w1c, [], .any⟩, ⟨3, 1, .w1c, [], .any⟩, ⟨4, 1, .w1c, [], .any⟩, ⟨5, 1, .w1c, [], .any⟩, ⟨6, 1, .w1c, [], .any⟩]⟩,
  ⟨0x20010, [], 0x0, 0, false, 0x0, 0, 0, .any,
    [⟨0, 7, .rw, [], .any⟩]⟩,
  ⟨0x20014, [], 0x0, 0, false, 0x0, 0, 0, .any,
    [⟨0, 16, .w1c, [], .any⟩]⟩,
  ⟨0x20018, [], 0x0, 0, false, 0x0, 0, 0, .any,
    [⟨0, 16, .rw, [], .any⟩]⟩,
  ⟨0x20020, [], 0x0, 0, false, 0x0, 0, 1, .any,
    [⟨0, 32, .ro, [], .any⟩]⟩,
  ⟨0x20024, [], 0x0, 0, false, 0x0, 0, 2, .any,
    [⟨0, 16, .ro, [], .any⟩]⟩,
  ⟨0x20028, [], 0x0, 0, false, 0x0, 0, 1, .any,
    [⟨0, 32, .ro, [], .any⟩]⟩,
  ⟨0x2002c, [], 0x0, 0, false, 0x0, 0, 2, .any,
    [⟨0, 32, .ro, [], .any⟩]⟩,
  ⟨0x20030, [], 0x0, 0, false, 0x0, 0, 1, .any,
    [⟨0, 32, .ro, [], .any⟩]⟩,
  ⟨0x20034, [], 0x0, 0, false, 0x0, 0, 2, .any,
    [⟨0, 16, .ro, [], .any⟩, ⟨31, 1, .ro, [], .any⟩]⟩,
  ⟨0x20038, [], 0x0, 0, false, 0x0, 0, 1, .any,
    [⟨0, 32, .rw, [], .any⟩]⟩,
  ⟨0x2003c, [], 0x0, 0, false, 0x0, 0, 2, .any,
    [⟨0, 32, .rw, [], .any⟩]⟩,
  ⟨0x20040, [], 0x0, 0, false, 0x0, 0, 0, .any,
    [⟨0, 32, .rw, [], .any⟩]⟩,
  ⟨0x20044, [], 0x0, 0, false, 0x0, 0, 0, .any,
    [⟨0, 32, .wo, [], .any⟩]⟩,
  ⟨0x20048, [], 0x0, 0, false, 0x0, 0, 1, .any,
    [⟨0, 32, .ro, [], .any⟩]⟩,
  ⟨0x2004c, [], 0x0, 0, false, 0x0, 0, 2, .any,
    [⟨0, 16, .ro, [], .any⟩]⟩,
  ⟨0x20050, [], 0x0, 0, false, 0x0, 0, 0, .any,
    [⟨0, 32, .ro, [], .any⟩]⟩,
  ⟨0x20054, [], 0x0, 0, false, 0x0, 0, 0, .any,
    [⟨0, 32, .ro, [], .any⟩]⟩,
  ⟨0x20060, [], 0x0, 0, false, 0x0, 0, 1, .any,
    [⟨0, 32, .ro, [], .any⟩]⟩,
  ⟨0x20064, [], 0x0, 0, false, 0x0, 0, 2, .any,
    [⟨0, 22, .ro, [], .any⟩]⟩,
  ⟨0x20068, [], 0x0, 0, false, 0x0, 0, 0, .any,
    [⟨0, 1, .ro, [], .any⟩, ⟨16, 16, .ro, [], .any⟩]⟩,
  ⟨0x2006c, [], 0xa00, 0, false, 0xa00, 0, 0, .any,
    [⟨0, 16, .rw, [], .any⟩]⟩,
  ⟨0x20070, [], 0xd2f00, 0, false, 0xd2f00, 0, 0, .any,
    [⟨0, 24, .rw, [], .any⟩]⟩,
  ⟨0x20074, [], 0x177000, 0, false, 0x177000, 0, 0, .any,
    [⟨0, 24, .rw, [(1, 16777215)], .any⟩]⟩,
  ⟨0x20078, [], 0x0, 0, false, 0x0, 0, 0, .any,
    [⟨0, 32, .ro, [], .any⟩]⟩,
  ⟨0x20080, [], 0x0, 0, false, 0x0, 0, 0, .any,
    [⟨0, 8, .rw, [], .any⟩, ⟨8, 8, .rw, [], .any⟩, ⟨16, 3, .rw, [], .any⟩]⟩,
  ⟨0x20084, [(0x4, 3)], 0x0, 0, false, 0x0, 0, 0, .any,
    [⟨0, 32, .rw, [], .any⟩]⟩,
  ⟨0x20090, [], 0x0, 0, false, 0x0, 0, 0, .any,
    [⟨0, 4, .rw, [(0, 11)], .any⟩, ⟨8, 1, .wo, [], .any⟩]⟩,
  ⟨0x20094, [], 0x0, 0, false, 0x0, 0, 0, .any,
    [⟨0, 1, .ro, [], .any⟩, ⟨1, 1, .ro, [], .any⟩, ⟨2, 2, .ro, [], .any⟩, ⟨16, 16, .ro, [], .any⟩]⟩,
  ⟨0x200a0, [(0x4, 4)], 0x0, 0, false, 0x0, 0, 0, .any,
    [⟨0, 32, .ro, [], .any⟩]⟩,
  ⟨0x200b0, [], 0x0, 0, false, 0x0, 0, 1, .any,
    [⟨0, 32, .ro, [], .any⟩]⟩,
  ⟨0x200b4, [], 0x0, 0, false, 0x0, 0, 2, .any,
    [⟨0, 22, .ro, [], .any⟩]⟩,
  ⟨0x200b8, [], 0x0, 0, false, 0x0, 0, 0, .any,
    [⟨0, 7, .ro, [], .any⟩, ⟨7, 1, .ro, [], .any⟩, ⟨8, 4, .ro, [], .any⟩, ⟨12, 3, .ro, [], .any⟩, ⟨16, 13, .ro, [], .any⟩]⟩,
  ⟨0x200bc, [], 0x0, 0, false, 0x0, 0, 0, .any,
    [⟨0, 1, .wo, [], .any⟩]⟩,
  ⟨0x200c0, [], 0x0, 0, false, 0x0, 0, 0, .any,
    [⟨0, 32, .ro, [], .any⟩]⟩,
  ⟨0x200c4, [], 0x0, 0, false, 0x0, 0, 0, .any,
    [⟨0, 32, .ro, [], .any⟩]⟩,
  ⟨0x200c8, [], 0x0, 0, false, 0x0, 0, 0, .any,
    [⟨0, 32, .ro, [], .any⟩]⟩]

/-- TIM registers, continued. -/
def regsTIM1 : List RegDesc := [
  ⟨0x200cc, [], 0x0, 0, false, 0x0, 0, 0, .any,
    [⟨0, 32, .ro, [], .any⟩]⟩,
  ⟨0x20100, [(0x20, 16)], 0x0, 0, false, 0x0, 0, 0, .any,
    [⟨0, 1, .rw, [], .any⟩, ⟨1, 1, .rw, [], .any⟩, ⟨2, 2, .rw, [(0, 2)], .any⟩]⟩,
  ⟨0x20104, [(0x20, 16)], 0x0, 0, false, 0x0, 0, 1, .any,
    [⟨0, 32, .rw, [], .any⟩]⟩,
  ⟨0x20108, [(0x20, 16)], 0x0, 0, false, 0x0, 0, 2, .any,
    [⟨0, 16, .rw, [], .any⟩]⟩,
  ⟨0x2010c, [(0x20, 16)], 0x0, 0, false, 0x0, 0, 0, .any,
    [⟨0, 32, .rw, [], .any⟩]⟩,
  ⟨0x20110, [(0x20, 16)], 0x0, 0, false, 0x0, 0, 0, .any,
    [⟨0, 16, .rw, [], .any⟩]⟩,
  ⟨0x20114, [(0x20, 16)], 0x0, 0, false, 0x0, 0, 0, .any,
    [⟨0, 32, .ro, [], .any⟩]⟩,
  ⟨0x20118, [(0x20, 16)], 0x0, 0, false, 0x0, 0, 0, .any,
    [⟨0, 32, .ro, [], .any⟩]⟩]

/-- TIM registers. -/
def regsTIM : List RegDesc := regsTIM0 ++ regsTIM1

/-- PWR registers, R477. -/
def regsPWR : List RegDesc := [
  ⟨0x30000, [], 0x10419, 0, false, 0x10419, 0, 0, .any,
    [⟨0, 8, .ro, [], .any⟩, ⟨8, 4, .ro, [], .any⟩, ⟨16, 8, .ro, [], .any⟩]⟩,
  ⟨0x30004, [], 0x6, 0, false, 0x6, 0, 0, .mc,
    [⟨0, 1, .rw, [], .any⟩, ⟨1, 1, .rw, [], .any⟩, ⟨2, 1, .rw, [], .any⟩]⟩,
  ⟨0x30008, [], 0x1, 0, false, 0x1, 0, 0, .any,
    [⟨0, 2, .ro, [], .any⟩, ⟨8, 1, .ro, [], .any⟩]⟩,
  ⟨0x3000c, [], 0x0, 0, false, 0x0, 0, 0, .mc,
    [⟨0, 2, .rw, [(0, 0), (2, 2)], .any⟩, ⟨8, 1, .wo, [], .any⟩]⟩,
  ⟨0x30010, [], 0x0, 0, false, 0x0, 0, 0, .any,
    [⟨0, 1, .w1c, [], .any⟩, ⟨1, 1, .w1c, [], .any⟩, ⟨2, 1, .w1c, [], .any⟩, ⟨3, 1, .w1c, [], .any⟩, ⟨4, 1, .w1c, [], .any⟩, ⟨5, 1, .w1c, [], .any⟩, ⟨6, 1, .w1c, [], .any⟩]⟩,
  ⟨0x30014, [], 0x0, 0, false, 0x0, 0, 0, .any,
    [⟨0, 7, .rw, [], .any⟩]⟩,
  ⟨0x30018, [], 0xc832, 0, false, 0xc832, 0, 0, .any,
    [⟨0, 8, .rw, [(40, 50)], .any⟩, ⟨8, 16, .rw, [(50, 65535)], .any⟩]⟩,
  ⟨0x3001c, [], 0x320, 0, false, 0x320, 0, 0, .any,
    [⟨0, 10, .ro, [], .any⟩, ⟨16, 1, .ro, [], .any⟩, ⟨17, 1, .w1c, [], .any⟩]⟩,
  ⟨0x30020, [], 0x100, 0, false, 0x100, 0, 0, .any,
    [⟨0, 16, .rw, [(16, 65535)], .any⟩]⟩,
  ⟨0x30024, [], 0x0, 0, false, 0x0, 0, 0, .any,
    [⟨0, 32, .ro, [], .any⟩]⟩,
  ⟨0x30028, [], 0x0, 0, false, 0x0, 0, 0, .any,
    [⟨0, 32, .ro, [], .any⟩]⟩,
  ⟨0x30100, [(0x10, 20)], 0x3, 0, false, 0x3, 0, 0, .mc,
    [⟨0, 2, .rw, [(0, 0), (2, 2), (3, 3)], .any⟩, ⟨2, 1, .rw, [], .any⟩, ⟨4, 1, .wo, [], .any⟩, ⟨5, 1, .wo, [], .any⟩]⟩,
  ⟨0x30104, [(0x10, 20)], 0x0, 0, false, 0x0, 0, 0, .mc,
    [⟨0, 2, .rw, [], .any⟩, ⟨4, 2, .ro, [], .any⟩, ⟨8, 2, .ro, [], .any⟩, ⟨12, 2, .ro, [], .any⟩, ⟨16, 1, .ro, [], .any⟩, ⟨17, 1, .ro, [], .any⟩, ⟨18, 2, .ro, [], .any⟩]⟩,
  ⟨0x30108, [(0x10, 16)], 0x1, 0, false, 0x1, 0, 0, .mc,
    [⟨0, 1, .rw, [], .any⟩, ⟨1, 1, .ro, [], .any⟩, ⟨2, 1, .ro, [], .any⟩]⟩,
  ⟨0x3010c, [(0x10, 20)], 0x3, 0, false, 0x3, 0, 0, .any,
    [⟨0, 3, .ro, [], .any⟩, ⟨3, 1, .ro, [], .any⟩, ⟨4, 4, .ro, [], .any⟩, ⟨8, 8, .ro, [], .any⟩]⟩,
  ⟨0x3024c, [(0x10, 5)], 0x0, 0, false, 0x0, 0, 0, .any,
    [⟨0, 3, .ro, [], .any⟩, ⟨3, 1, .ro, [], .any⟩, ⟨4, 4, .ro, [], .any⟩, ⟨8, 8, .ro, [], .any⟩]⟩,
  ⟨0x31000, [(0x20, 25), (0x8, 4)], 0x0, 0, false, 0x0, 0, 1, .any,
    [⟨0, 32, .ro, [], .any⟩]⟩,
  ⟨0x31004, [(0x20, 25), (0x8, 4)], 0x0, 0, false, 0x0, 0, 2, .any,
    [⟨0, 32, .ro, [], .any⟩]⟩]

/-- THM registers, R478. -/
def regsTHM : List RegDesc := [
  ⟨0x40000, [], 0x14018, 0, false, 0x14018, 0, 0, .any,
    [⟨0, 8, .ro, [], .any⟩, ⟨8, 8, .ro, [], .any⟩, ⟨16, 8, .ro, [], .any⟩]⟩,
  ⟨0x40004, [], 0x6405, 0, false, 0x6405, 0, 0, .mc,
    [⟨0, 4, .rw, [(1, 15)], .any⟩, ⟨8, 8, .rw, [(1, 255)], .any⟩]⟩,
  ⟨0x40008, [], 0x5f0, 0, false, 0x5f0, 0, 0, .mc,
    [⟨0, 16, .rw, [], .any⟩]⟩,
  ⟨0x4000c, [], 0x640, 0, false, 0x640, 0, 0, .mc,
    [⟨0, 16, .rw, [], .any⟩]⟩,
  ⟨0x40010, [], 0x730, 0, false, 0x730, 0, 0, .any,
    [⟨0, 16, .ro, [], .any⟩]⟩,
  ⟨0x40014, [], 0x0, 0, false, 0x0, 0, 0, .any,
    [⟨0, 5, .ro, [], .any⟩, ⟨8, 1, .ro, [], .any⟩, ⟨16, 16, .ro, [], .any⟩]⟩,
  ⟨0x40018, [], 0x0, 0, false, 0x0, 0, 0, .any,
    [⟨0, 1, .w1c, [], .any⟩, ⟨1, 1, .w1c, [], .any⟩, ⟨2, 1, .w1c, [], .any⟩, ⟨3, 1, .w1c, [], .any⟩, ⟨4, 1, .w1c, [], .any⟩, ⟨5, 1, .w1c, [], .any⟩, ⟨6, 1, .w1c, [], .any⟩]⟩,
  ⟨0x4001c, [], 0x0, 0, false, 0x0, 0, 0, .any,
    [⟨0, 7, .rw, [], .any⟩]⟩,
  ⟨0x40020, [], 0x0, 0, false, 0x0, 0, 0, .any,
    [⟨0, 32, .ro, [], .any⟩]⟩,
  ⟨0x40024, [], 0x0, 0, false, 0x0, 0, 0, .any,
    [⟨0, 32, .ro, [], .any⟩]⟩,
  ⟨0x40100, [(0x4, 24)], 0x0, 0, false, 0x0, 0, 0, .any,
    [⟨0, 16, .ro, [], .any⟩, ⟨16, 1, .ro, [], .any⟩, ⟨17, 1, .ro, [], .any⟩, ⟨18, 2, .ro, [], .any⟩, ⟨20, 1, .ro, [], .any⟩]⟩,
  ⟨0x40200, [(0x4, 24)], 0x0, 0, false, 0x0, 0, 0, .mc,
    [⟨0, 1, .rw, [], .any⟩, ⟨8, 5, .rw, [(0, 23)], .any⟩, ⟨16, 8, .rw, [], .any⟩]⟩,
  ⟨0x40300, [(0x10, 40)], 0x0, 0, false, 0x0, 0, 0, .any,
    [⟨0, 16, .ro, [], .any⟩]⟩,
  ⟨0x40304, [(0x10, 40)], 0x0, 0, false, 0x0, 0, 0, .mc,
    [⟨0, 16, .rw, [], .any⟩]⟩,
  ⟨0x40308, [(0x10, 40)], 0xffff, 0, false, 0xffff, 0, 0, .mc,
    [⟨0, 16, .rw, [], .any⟩]⟩,
  ⟨0x40600, [(0x4, 20)], 0x0, 0, false, 0x0, 0, 0, .any,
    [⟨0, 2, .ro, [], .any⟩, ⟨2, 1, .ro, [], .any⟩, ⟨3, 5, .ro, [], .any⟩, ⟨8, 8, .ro, [], .any⟩]⟩]

/-- RAS registers, R513. -/
def regsRAS : List RegDesc := [
  ⟨0x50000, [], 0x110, 0, false, 0x110, 0, 0, .any,
    [⟨0, 8, .ro, [], .any⟩, ⟨8, 8, .ro, [], .any⟩]⟩,
  ⟨0x50004, [], 0x7, 0, false, 0x7, 0, 0, .mcpf,
    [⟨0, 1, .rw, [], .any⟩, ⟨1, 1, .rw, [], .any⟩, ⟨2, 1, .rw, [], .any⟩]⟩,
  ⟨0x50008, [], 0x3, 0, false, 0x3, 0, 0, .mcpf,
    [⟨0, 4, .rw, [(1, 15)], .any⟩]⟩,
  ⟨0x5000c, [], 0xea60, 0, false, 0xea60, 0, 0, .mcpf,
    [⟨0, 22, .rw, [(1, 3600000)], .any⟩]⟩,
  ⟨0x50010, [], 0x0, 0, false, 0x0, 0, 0, .any,
    [⟨0, 1, .w1c, [], .any⟩, ⟨1, 1, .w1c, [], .any⟩, ⟨2, 1, .w1c, [], .any⟩, ⟨3, 1, .w1c, [], .any⟩, ⟨4, 1, .w1c, [], .any⟩, ⟨5, 1, .w1c, [], .any⟩, ⟨6, 1, .w1c, [], .any⟩, ⟨7, 1, .w1c, [], .any⟩, ⟨8, 1, .w1c, [], .any⟩, ⟨9, 1, .w1c, [], .any⟩]⟩,
  ⟨0x50014, [], 0x0, 0, false, 0x0, 0, 0, .any,
    [⟨0, 10, .rw, [], .any⟩]⟩,
  ⟨0x50018, [], 0x0, 0, false, 0x0, 0, 0, .any,
    [⟨0, 16, .ro, [], .any⟩, ⟨16, 4, .ro, [], .any⟩, ⟨20, 4, .ro, [], .any⟩, ⟨24, 8, .ro, [], .any⟩]⟩,
  ⟨0x5001c, [], 0x0, 0, false, 0x0, 0, 1, .any,
    [⟨0, 32, .ro, [], .any⟩]⟩,
  ⟨0x50020, [], 0x0, 0, false, 0x0, 0, 2, .any,
    [⟨0, 16, .ro, [], .any⟩]⟩,
  ⟨0x50024, [], 0x0, 0, false, 0x0, 0, 0, .mcpf,
    [⟨0, 16, .rw, [], .any⟩, ⟨16, 4, .rw, [(1, 1), (3, 3)], .any⟩, ⟨20, 1, .rw, [], .any⟩, ⟨31, 1, .wo, [], .any⟩]⟩,
  ⟨0x50028, [], 0x0, 0, false, 0x0, 0, 0, .any,
    [⟨0, 16, .ro, [], .any⟩, ⟨16, 5, .ro, [], .any⟩, ⟨21, 6, .ro, [], .any⟩]⟩,
  ⟨0x50040, [], 0x0, 0, false, 0x0, 0, 0, .any,
    [⟨0, 32, .ro, [], .any⟩]⟩,
  ⟨0x50044, [], 0x0, 0, false, 0x0, 0, 0, .any,
    [⟨0, 32, .ro, [], .any⟩]⟩,
  ⟨0x50048, [], 0x0, 0, false, 0x0, 0, 0, .any,
    [⟨0, 32, .ro, [], .any⟩]⟩,
  ⟨0x5004c, [], 0x0, 0, false, 0x0, 0, 0, .any,
    [⟨0, 32, .ro, [], .any⟩]⟩,
  ⟨0x50050, [], 0x0, 0, false, 0x0, 0, 0, .any,
    [⟨0, 32, .ro, [], .any⟩]⟩,
  ⟨0x50054, [], 0x0, 0, false, 0x0, 0, 0, .any,
    [⟨0, 32, .ro, [], .any⟩]⟩,
  ⟨0x50058, [], 0x0, 0, false, 0x0, 0, 0, .any,
    [⟨0, 32, .ro, [], .any⟩]⟩,
  ⟨0x5005c, [], 0x0, 0, false, 0x0, 0, 0, .any,
    [⟨0, 32, .ro, [], .any⟩]⟩,
  ⟨0x50060, [], 0x0, 0, false, 0x0, 0, 0, .any,
    [⟨0, 32, .ro, [], .any⟩]⟩,
  ⟨0x50064, [], 0x0, 0, false, 0x0, 0, 0, .any,
    [⟨0, 32, .ro, [], .any⟩]⟩,
  ⟨0x50068, [], 0x0, 0, false, 0x0, 0, 0, .any,
    [⟨0, 32, .ro, [], .any⟩]⟩,
  ⟨0x5006c, [], 0x0, 0, false, 0x0, 0, 0, .any,
    [⟨0, 32, .ro, [], .any⟩]⟩,
  ⟨0x50070, [], 0x0, 0, false, 0x0, 0, 0, .any,
    [⟨0, 32, .ro, [], .any⟩]⟩,
  ⟨0x50100, [(0x4, 32)], 0x0, 0, false, 0x0, 0, 0, .any,
    [⟨0, 32, .ro, [], .any⟩]⟩,
  ⟨0x50180, [(0x4, 4)], 0x0, 0, false, 0x0, 0, 0, .any,
    [⟨0, 32, .ro, [], .any⟩]⟩,
  ⟨0x50200, [], 0x0, 0, false, 0x0, 0, 0, .any,
    [⟨0, 16, .rw, [], .any⟩]⟩,
  ⟨0x50204, [], 0x0, 0, false, 0x0, 0, 0, .any,
    [⟨0, 4, .ro, [], .any⟩, ⟨4, 4, .ro, [], .any⟩, ⟨8, 8, .ro, [], .any⟩, ⟨16, 3, .ro, [], .any⟩]⟩,
  ⟨0x50208, [], 0x0, 0, false, 0x0, 0, 0, .any,
    [⟨0, 32, .ro, [], .any⟩]⟩,
  ⟨0x5020c, [], 0x0, 0, false, 0x0, 0, 1, .any,
    [⟨0, 32, .ro, [], .any⟩]⟩,
  ⟨0x50210, [], 0x0, 0, false, 0x0, 0, 2, .any,
    [⟨0, 16, .ro, [], .any⟩]⟩]

/-- SEP registers, R514. -/
def regsSEP : List RegDesc := [
  ⟨0x60000, [], 0x12000, 0, false, 0x12000, 0, 0, .any,
    [⟨0, 16, .ro, [], .any⟩, ⟨16, 8, .ro, [], .any⟩]⟩,
  ⟨0x60004, [], 0x1, 0, false, 0x1, 0, 0, .mcpf,
    [⟨0, 1, .rw, [], .any⟩, ⟨1, 1, .rw, [], .any⟩, ⟨2, 1, .rw, [], .any⟩, ⟨3, 1, .rw, [], .any⟩, ⟨8, 1, .wo, [], .any⟩, ⟨9, 1, .wo, [], .any⟩, ⟨10, 1, .wo, [], .any⟩]⟩,
  ⟨0x60008, [], 0x0, 0, false, 0x0, 0, 0, .any,
    [⟨0, 1, .ro, [], .any⟩, ⟨1, 3, .ro, [], .any⟩, ⟨4, 2, .ro, [], .any⟩]⟩,
  ⟨0x6000c, [], 0x0, 0, false, 0x0, 0, 0, .any,
    [⟨0, 32, .ro, [], .any⟩]⟩,
  ⟨0x60010, [], 0x0, 0, false, 0x0, 0, 0, .any,
    [⟨0, 32, .ro, [], .any⟩]⟩,
  ⟨0x60014, [], 0x0, 0, false, 0x0, 0, 1, .any,
    [⟨0, 32, .ro, [], .any⟩]⟩,
  ⟨0x60018, [], 0x0, 0, false, 0x0, 0, 2, .any,
    [⟨0, 16, .ro, [], .any⟩]⟩,
  ⟨0x6001c, [], 0x0, 0, false, 0x0, 0, 0, .mcpf,
    [⟨0, 32, .wo, [], .any⟩]⟩,
  ⟨0x60020, [], 0x0, 0, false, 0x0, 0, 0, .any,
    [⟨0, 8, .rw, [], .any⟩]⟩,
  ⟨0x60024, [], 0x0, 0, false, 0x0, 0, 0, .any,
    [⟨16, 16, .rw, [], .any⟩]⟩,
  ⟨0x60028, [], 0x0, 0, false, 0x0, 0, 0, .any,
    [⟨0, 32, .rw, [], .any⟩]⟩,
  ⟨0x6002c, [], 0x0, 0, false, 0x0, 0, 0, .any,
    [⟨0, 1, .ro, [], .any⟩, ⟨1, 1, .ro, [], .any⟩, ⟨2, 1, .ro, [], .any⟩]⟩,
  ⟨0x60030, [(0x4, 4)], 0x0, 0, false, 0x0, 0, 0, .any,
    [⟨0, 32, .ro, [], .any⟩]⟩]

/-- MGT registers, R540. -/
def regsMGT : List RegDesc := [
  ⟨0x70000, [], 0x10000, 0, false, 0x10000, 0, 0, .any,
    [⟨16, 8, .ro, [], .any⟩]⟩,
  ⟨0x70004, [], 0x0, 0, false, 0x0, 0, 0, .any,
    [⟨0, 1, .rw, [], .mc⟩, ⟨1, 1, .rw, [], .any⟩]⟩,
  ⟨0x70008, [], 0x0, 0, false, 0x0, 0, 0, .any,
    [⟨0, 2, .ro, [], .any⟩, ⟨2, 3, .rw, [], .mc⟩, ⟨5, 1, .ro, [], .any⟩, ⟨6, 1, .ro, [], .any⟩, ⟨8, 4, .ro, [], .any⟩]⟩,
  ⟨0x7000c, [], 0x0, 0, false, 0x0, 0, 0, .any,
    [⟨0, 32, .rw, [], .mc⟩]⟩,
  ⟨0x70010, [], 0x1, 0, false, 0x1, 0, 0, .any,
    [⟨0, 1, .ro, [], .any⟩, ⟨1, 1, .ro, [], .any⟩, ⟨2, 1, .ro, [], .any⟩, ⟨3, 1, .ro, [], .any⟩]⟩,
  ⟨0x70014, [], 0x0, 0, false, 0x0, 0, 0, .mcpf,
    [⟨0, 1, .wo, [], .any⟩]⟩,
  ⟨0x70018, [], 0x0, 0, false, 0x0, 0, 0, .any,
    [⟨0, 14, .ro, [], .any⟩, ⟨16, 1, .ro, [], .any⟩, ⟨17, 1, .ro, [], .any⟩, ⟨18, 1, .ro, [], .any⟩]⟩,
  ⟨0x7001c, [], 0x0, 0, false, 0x0, 0, 0, .any,
    [⟨0, 14, .rw, [], .any⟩, ⟨16, 1, .rw, [], .any⟩, ⟨17, 1, .rw, [], .any⟩, ⟨18, 1, .rw, [], .any⟩]⟩,
  ⟨0x70020, [], 0x0, 0, false, 0x0, 0, 1, .any,
    [⟨0, 32, .ro, [], .any⟩]⟩,
  ⟨0x70024, [], 0x0, 0, false, 0x0, 0, 2, .any,
    [⟨0, 32, .ro, [], .any⟩]⟩,
  ⟨0x70028, [], 0x0, 0, false, 0x0, 0, 0, .any,
    [⟨0, 1, .ro, [], .any⟩, ⟨1, 1, .ro, [], .any⟩, ⟨2, 1, .ro, [], .any⟩, ⟨3, 1, .ro, [], .any⟩]⟩,
  ⟨0x7002c, [], 0x3a, 0, false, 0x3a, 0, 0, .any,
    [⟨0, 7, .rw, [], .any⟩, ⟨8, 7, .ro, [], .any⟩, ⟨15, 1, .ro, [], .any⟩, ⟨16, 1, .rw, [], .any⟩]⟩,
  ⟨0x70030, [], 0x0, 0, false, 0x0, 0, 0, .any,
    [⟨0, 32, .ro, [], .any⟩]⟩,
  ⟨0x70034, [], 0x0, 0, false, 0x0, 0, 0, .any,
    [⟨0, 32, .ro, [], .any⟩]⟩,
  ⟨0x70040, [], 0x0, 0, false, 0x0, 0, 0, .any,
    [⟨0, 32, .rw, [], .any⟩]⟩,
  ⟨0x70044, [], 0x0, 0, false, 0x0, 0, 0, .any,
    [⟨0, 16, .rw, [], .any⟩]⟩,
  ⟨0x70048, [], 0x0, 0, false, 0x0, 0, 0, .any,
    [⟨0, 16, .ro, [], .any⟩]⟩,
  ⟨0x70050, [], 0x0, 0, false, 0x0, 0, 1, .any,
    [⟨6, 26, .rw, [], .any⟩]⟩,
  ⟨0x70054, [], 0x0, 0, false, 0x0, 0, 2, .any,
    [⟨0, 32, .rw, [], .any⟩]⟩,
  ⟨0x70058, [], 0x0, 0, false, 0x0, 0, 0, .any,
    [⟨0, 32, .rw, [], .any⟩]⟩,
  ⟨0x7005c, [], 0x0, 0, false, 0x0, 0, 0, .any,
    [⟨0, 1, .wo, [], .any⟩, ⟨1, 1, .ro, [], .any⟩, ⟨2, 1, .ro, [], .any⟩, ⟨3, 1, .ro, [], .any⟩]⟩,
  ⟨0x70060, [], 0x0, 0, false, 0x0, 0, 0, .any,
    [⟨0, 7, .ro, [], .any⟩, ⟨16, 1, .ro, [], .any⟩]⟩]

/-- NOC registers, R323. -/
def regsNOC0 : List RegDesc := [
  ⟨0x100000, [], 0x120b0, 0, false, 0x120b0, 0, 0, .any,
    [⟨0, 8, .ro, [], .any⟩, ⟨8, 8, .ro, [], .any⟩, ⟨16, 8, .ro, [], .any⟩]⟩,
  ⟨0x100004, [], 0x8, 0, false, 0x8, 0, 0, .any,
    [⟨0, 5, .rw, [(2, 16)], .any⟩]⟩,
  ⟨0x100008, [], 0x2710, 0, false, 0x2710, 0, 0, .any,
    [⟨0, 24, .rw, [(10000, 16777215)], .any⟩]⟩,
  ⟨0x10000c, [], 0x4e20, 0, false, 0x4e20, 0, 0, .any,
    [⟨0, 24, .rw, [(20000, 16777215)], .any⟩]⟩,
  ⟨0x100010, [], 0x0, 0, false, 0x0, 0, 0, .any,
    [⟨0, 1, .ro, [], .any⟩, ⟨1, 2, .ro, [], .any⟩, ⟨3, 1, .ro, [], .any⟩, ⟨16, 16, .ro, [], .any⟩]⟩,
  ⟨0x100014, [], 0x0, 0, false, 0x0, 0, 0, .any,
    [⟨0, 1, .w1c, [], .any⟩, ⟨1, 1, .w1c, [], .any⟩, ⟨2, 1, .w1c, [], .any⟩, ⟨3, 1, .w1c, [], .any⟩, ⟨4, 1, .w1c, [], .any⟩, ⟨5, 1, .w1c, [], .any⟩, ⟨6, 1, .w1c, [], .any⟩, ⟨7, 1, .w1c, [], .any⟩, ⟨8, 1, .w1c, [], .any⟩, ⟨9, 1, .w1c, [], .any⟩, ⟨10, 1, .w1c, [], .any⟩, ⟨11, 1, .w1c, [], .any⟩]⟩,
  ⟨0x100018, [], 0x0, 0, false, 0x0, 0, 0, .any,
    [⟨0, 12, .rw, [], .any⟩]⟩,
  ⟨0x10001c, [], 0x0, 0, false, 0x0, 0, 0, .any,
    [⟨0, 3, .ro, [], .any⟩, ⟨3, 5, .ro, [], .any⟩, ⟨8, 8, .ro, [], .any⟩, ⟨16, 8, .ro, [], .any⟩]⟩,
  ⟨0x100020, [], 0x0, 0, false, 0x0, 0, 1, .any,
    [⟨0, 32, .ro, [], .any⟩]⟩,
  ⟨0x100024, [], 0x0, 0, false, 0x0, 0, 2, .any,
    [⟨0, 16, .ro, [], .any⟩]⟩,
  ⟨0x100028, [], 0x0, 0, false, 0x0, 0, 0, .any,
    [⟨0, 32, .ro, [], .any⟩]⟩,
  ⟨0x10002c, [], 0x0, 0, false, 0x0, 0, 1, .any,
    [⟨0, 32, .ro, [], .any⟩]⟩,
  ⟨0x100030, [], 0x0, 0, false, 0x0, 0, 2, .any,
    [⟨0, 16, .ro, [], .any⟩]⟩,
  ⟨0x100034, [], 0x0, 0, false, 0x0, 0, 0, .any,
    [⟨0, 32, .ro, [], .any⟩]⟩,
  ⟨0x100038, [], 0x0, 0, false, 0x0, 0, 0, .any,
    [⟨0, 32, .ro, [], .any⟩]⟩,
  ⟨0x10003c, [], 0x0, 0, false, 0x0, 0, 0, .any,
    [⟨0, 32, .ro, [], .any⟩]⟩,
  ⟨0x100040, [], 0x0, 0, false, 0x0, 0, 0, .any,
    [⟨0, 32, .ro, [], .any⟩]⟩,
  ⟨0x100044, [], 0x0, 0, false, 0x0, 0, 0, .any,
    [⟨0, 32, .ro, [], .any⟩]⟩,
  ⟨0x100048, [], 0x0, 0, false, 0x0, 0, 0, .any,
    [⟨0, 32, .ro, [], .any⟩]⟩,
  ⟨0x10004c, [], 0x0, 0, false, 0x0, 0, 0, .any,
    [⟨0, 32, .ro, [], .any⟩]⟩,
  ⟨0x100050, [], 0x0, 0, false, 0x0, 0, 0, .any,
    [⟨0, 8, .rw, [(0, 175)], .any⟩, ⟨8, 8, .rw, [(0, 175)], .any⟩, ⟨16, 1, .rw, [], .any⟩]⟩,
  ⟨0x100054, [], 0x0, 0, false, 0x0, 0, 0, .any,
    [⟨0, 4, .rw, [], .any⟩, ⟨4, 2, .rw, [], .any⟩]⟩,
  ⟨0x100060, [(0x4, 5)], 0x0, 0, false, 0x0, 0, 0, .any,
    [⟨0, 32, .rw, [], .any⟩]⟩,
  ⟨0x100074, [], 0x0, 0, false, 0x0, 0, 0, .any,
    [⟨0, 16, .rw, [], .any⟩]⟩,
  ⟨0x100100, [(0x4, 4)], 0x0, 0, false, 0x0, 0, 0, .any,
    [⟨0, 32, .ro, [], .any⟩]⟩,
  ⟨0x100110, [(0x4, 12)], 0x0, 0, false, 0x0, 0, 0, .any,
    [⟨0, 32, .ro, [], .any⟩]⟩,
  ⟨0x100200, [(0x4, 32)], 0x0, 0, false, 0x0, 0, 0, .any,
    [⟨0, 32, .ro, [], .any⟩]⟩,
  ⟨0x100400, [(0x4, 176)], 0x0, 0, false, 0x0, 0, 0, .any,
    [⟨0, 9, .rw, [], .any⟩, ⟨16, 8, .rw, [], .any⟩, ⟨24, 4, .w1c, [], .any⟩]⟩,
  ⟨0x102000, [(0x40, 32), (0x4, 4)], 0x0, 0, false, 0x0, 0, 0, .pf,
    [⟨0, 32, .rw, [], .any⟩]⟩,
  ⟨0x102010, [(0x40, 32)], 0x0, 0, false, 0x0, 0, 0, .pf,
    [⟨0, 4, .rw, [], .any⟩]⟩,
  ⟨0x102014, [(0x40, 32), (0x4, 8)], 0x0, 0, false, 0x0, 0, 0, .pf,
    [⟨0, 14, .rw, [], .any⟩, ⟨16, 14, .rw, [], .any⟩, ⟨31, 1, .rw, [], .any⟩]⟩,
  ⟨0x102034, [], 0x0, 0, false, 0x0, 0, 0, .pf,
    [⟨0, 1, .rw, [], .any⟩]⟩,
  ⟨0x102074, [(0x40, 31)], 0x1, 0, false, 0x1, 0, 0, .any,
    [⟨0, 1, .ro, [], .any⟩]⟩,
  ⟨0x108000, [(0x40, 32)], 0x0, 0, false, 0x0, 0, 0, .any,
    [⟨0, 1, .rw, [], .any⟩, ⟨1, 2, .rw, [(0, 2)], .any⟩, ⟨3, 1, .wo, [], .any⟩]⟩,
  ⟨0x108004, [(0x40, 32)], 0x0, 0, false, 0x0, 0, 0, .any,
    [⟨0, 8, .rw, [(0, 175)], .any⟩, ⟨8, 4, .rw, [(0, 8)], .any⟩, ⟨12, 2, .rw, [], .any⟩]⟩,
  ⟨0x108008, [(0x40, 32)], 0x0, 0, false, 0x0, 0, 0, .any,
    [⟨0, 2, .rw, [(0, 2)], .any⟩, ⟨2, 3, .rw, [(0, 5)], .any⟩, ⟨5, 1, .rw, [], .any⟩, ⟨6, 5, .rw, [], .any⟩, ⟨11, 1, .rw, [], .any⟩, ⟨12, 8, .rw, [], .any⟩, ⟨20, 1, .rw, [], .any⟩, ⟨21, 8, .rw, [], .any⟩]⟩,
  ⟨0x10800c, [(0x40, 32)], 0x0, 0, false, 0x0, 0, 1, .any,
    [⟨0, 32, .rw, [], .any⟩]⟩,
  ⟨0x108010, [(0x40, 32)], 0x0, 0, false, 0x0, 0, 2, .any,
    [⟨0, 16, .rw, [], .any⟩]⟩,
  ⟨0x108014, [(0x40, 32)], 0x0, 0, false, 0x0, 0, 1, .any,
    [⟨0, 32, .rw, [], .any⟩]⟩,
  ⟨0x108018, [(0x40, 32)], 0x0, 0, false, 0x0, 0, 2, .any,
    [⟨0, 16, .rw, [], .any⟩]⟩]

/-- NOC registers, continued. -/
def regsNOC1 : List RegDesc := [
  ⟨0x10801c, [(0x40, 32)], 0x0, 0, false, 0x0, 0, 1, .any,
    [⟨0, 32, .ro, [], .any⟩]⟩,
  ⟨0x108020, [(0x40, 32)], 0x0, 0, false, 0x0, 0, 2, .any,
    [⟨0, 32, .ro, [], .any⟩]⟩,
  ⟨0x108024, [(0x40, 32)], 0x0, 0, false, 0x0, 0, 1, .any,
    [⟨12, 20, .rw, [], .any⟩]⟩,
  ⟨0x108028, [(0x40, 32)], 0x0, 0, false, 0x0, 0, 2, .any,
    [⟨0, 16, .rw, [], .any⟩]⟩,
  ⟨0x10802c, [(0x40, 32)], 0xc, 0, false, 0xc, 0, 0, .any,
    [⟨0, 5, .rw, [(12, 24)], .any⟩]⟩,
  ⟨0x108030, [(0x40, 32)], 0x0, 0, false, 0x0, 0, 0, .any,
    [⟨0, 20, .ro, [], .any⟩]⟩,
  ⟨0x108034, [(0x40, 32)], 0x0, 0, false, 0x0, 0, 0, .any,
    [⟨0, 32, .ro, [], .any⟩]⟩]

/-- NOC registers. -/
def regsNOC : List RegDesc := regsNOC0 ++ regsNOC1

/-- MEM registers, R324. -/
def regsMEM : List RegDesc := [
  ⟨0x200000, [], 0x10240, 0, false, 0x10240, 0, 0, .any,
    [⟨0, 8, .ro, [], .any⟩, ⟨8, 8, .ro, [], .any⟩, ⟨16, 8, .ro, [], .any⟩]⟩,
  ⟨0x200004, [], 0x22, 0, false, 0x22, 0, 0, .any,
    [⟨0, 1, .rw, [], .any⟩, ⟨1, 1, .rw, [], .any⟩, ⟨2, 5, .rw, [(2, 16)], .any⟩]⟩,
  ⟨0x200008, [], 0x0, 0, false, 0x0, 0, 0, .any,
    [⟨0, 1, .ro, [], .any⟩, ⟨1, 1, .ro, [], .any⟩, ⟨2, 1, .ro, [], .any⟩]⟩,
  ⟨0x20000c, [], 0x7fc0, 0, false, 0x7fc0, 0, 0, .any,
    [⟨0, 15, .rw, [], .any⟩]⟩,
  ⟨0x200010, [], 0x40, 0, false, 0x40, 0, 0, .any,
    [⟨0, 7, .rw, [(0, 64)], .any⟩]⟩,
  ⟨0x200014, [], 0x0, 0, false, 0x0, 0, 0, .any,
    [⟨0, 1, .w1c, [], .any⟩, ⟨1, 1, .w1c, [], .any⟩, ⟨2, 1, .w1c, [], .any⟩, ⟨3, 1, .w1c, [], .any⟩]⟩,
  ⟨0x200018, [], 0x0, 0, false, 0x0, 0, 0, .any,
    [⟨0, 4, .rw, [], .any⟩]⟩,
  ⟨0x20001c, [], 0x0, 0, false, 0x0, 0, 0, .any,
    [⟨0, 6, .ro, [], .any⟩, ⟨6, 2, .ro, [], .any⟩]⟩,
  ⟨0x200020, [], 0x0, 0, false, 0x0, 0, 1, .any,
    [⟨0, 32, .ro, [], .any⟩]⟩,
  ⟨0x200024, [], 0x0, 0, false, 0x0, 0, 2, .any,
    [⟨0, 16, .ro, [], .any⟩]⟩,
  ⟨0x200028, [], 0x0, 0, false, 0x0, 0, 0, .any,
    [⟨0, 32, .ro, [], .any⟩]⟩,
  ⟨0x20002c, [], 0x0, 0, false, 0x0, 0, 0, .any,
    [⟨0, 32, .ro, [], .any⟩]⟩,
  ⟨0x200030, [], 0x0, 0, false, 0x0, 0, 0, .any,
    [⟨0, 32, .ro, [], .any⟩]⟩,
  ⟨0x200034, [], 0x0, 0, false, 0x0, 0, 0, .any,
    [⟨0, 32, .ro, [], .any⟩]⟩,
  ⟨0x200100, [(0x4, 64)], 0x0, 0, false, 0x0, 0, 0, .any,
    [⟨0, 2, .ro, [], .any⟩, ⟨8, 7, .ro, [], .any⟩]⟩]

/-- DMA registers, R349. -/
def regsDMA : List RegDesc := [
  ⟨0x300000, [(0x4000, 8)], 0x110, 0x20, false, 0x110, 0, 0, .any,
    [⟨0, 5, .ro, [], .any⟩, ⟨5, 3, .ro, [], .any⟩, ⟨8, 8, .ro, [], .any⟩]⟩,
  ⟨0x300004, [(0x4000, 8)], 0x1, 0, false, 0x1, 0, 0, .any,
    [⟨0, 1, .rw, [], .any⟩]⟩,
  ⟨0x300008, [(0x4000, 8)], 0x1000, 0, false, 0x1000, 0, 0, .any,
    [⟨0, 16, .rw, [(1, 65535)], .any⟩]⟩,
  ⟨0x30000c, [(0x4000, 8)], 0x0, 0, false, 0x0, 0, 0, .any,
    [⟨0, 16, .ro, [], .any⟩]⟩,
  ⟨0x300010, [(0x4000, 8)], 0x0, 0, false, 0x0, 0, 0, .any,
    [⟨0, 8, .ro, [], .any⟩, ⟨16, 8, .ro, [], .any⟩]⟩,
  ⟨0x300014, [(0x4000, 8)], 0x0, 0, false, 0x0, 0, 0, .any,
    [⟨0, 32, .ro, [], .any⟩]⟩,
  ⟨0x300018, [(0x4000, 8)], 0x0, 0, false, 0x0, 0, 0, .any,
    [⟨0, 3, .ro, [], .any⟩, ⟨8, 8, .ro, [], .any⟩]⟩,
  ⟨0x300100, [(0x4000, 8), (0x100, 16)], 0x38, 0, false, 0x38, 0, 0, .any,
    [⟨0, 1, .rw, [], .any⟩, ⟨1, 1, .rw, [], .any⟩, ⟨2, 1, .rw, [], .any⟩, ⟨3, 3, .rw, [], .any⟩, ⟨6, 1, .rw, [], .any⟩, ⟨7, 2, .rw, [], .any⟩, ⟨9, 1, .rw, [], .any⟩, ⟨10, 1, .rw, [], .any⟩, ⟨11, 1, .rw, [], .any⟩, ⟨29, 1, .rw, [], .any⟩, ⟨30, 1, .wo, [], .any⟩, ⟨31, 1, .wo, [], .any⟩]⟩,
  ⟨0x300104, [(0x4000, 8), (0x100, 16)], 0x180, 0, false, 0x180, 0, 0, .any,
    [⟨0, 5, .rw, [], .pf⟩, ⟨5, 1, .rw, [], .any⟩, ⟨6, 1, .rw, [], .any⟩, ⟨7, 4, .rw, [(3, 9)], .any⟩, ⟨11, 1, .ro, [], .any⟩, ⟨12, 11, .rw, [], .any⟩, ⟨23, 1, .rw, [], .any⟩]⟩,
  ⟨0x300108, [(0x4000, 8), (0x100, 16)], 0x0, 0, false, 0x0, 0, 1, .any,
    [⟨0, 32, .rw, [], .any⟩]⟩,
  ⟨0x30010c, [(0x4000, 8), (0x100, 16)], 0x0, 0, false, 0x0, 0, 2, .any,
    [⟨0, 32, .rw, [], .any⟩]⟩,
  ⟨0x300110, [(0x4000, 8), (0x100, 16)], 0x0, 0, false, 0x0, 0, 1, .any,
    [⟨0, 32, .rw, [], .any⟩]⟩,
  ⟨0x300114, [(0x4000, 8), (0x100, 16)], 0x0, 0, false, 0x0, 0, 2, .any,
    [⟨0, 32, .rw, [], .any⟩]⟩,
  ⟨0x300118, [(0x4000, 8), (0x100, 16)], 0x0, 0, false, 0x0, 0, 0, .any,
    [⟨0, 25, .rw, [(0, 16777216)], .any⟩]⟩,
  ⟨0x30011c, [(0x4000, 8), (0x100, 16)], 0x0, 0, false, 0x0, 0, 1, .any,
    [⟨0, 32, .rw, [], .any⟩]⟩,
  ⟨0x300120, [(0x4000, 8), (0x100, 16)], 0x0, 0, false, 0x0, 0, 2, .any,
    [⟨0, 32, .rw, [], .any⟩]⟩,
  ⟨0x300124, [(0x4000, 8), (0x100, 16)], 0x0, 0, false, 0x0, 0, 0, .any,
    [⟨0, 3, .ro, [], .any⟩, ⟨4, 4, .ro, [], .any⟩, ⟨8, 1, .ro, [], .any⟩]⟩,
  ⟨0x300128, [(0x4000, 8), (0x100, 16)], 0x0, 0, false, 0x0, 0, 0, .any,
    [⟨0, 32, .ro, [], .any⟩]⟩,
  ⟨0x30012c, [(0x4000, 8), (0x100, 16)], 0x0, 0, false, 0x0, 0, 0, .any,
    [⟨0, 32, .ro, [], .any⟩]⟩,
  ⟨0x300130, [(0x4000, 8), (0x100, 16)], 0x0, 0, false, 0x0, 0, 0, .any,
    [⟨0, 32, .ro, [], .any⟩]⟩,
  ⟨0x300134, [(0x4000, 8), (0x100, 16)], 0x0, 0, false, 0x0, 0, 1, .any,
    [⟨0, 32, .ro, [], .any⟩]⟩,
  ⟨0x300138, [(0x4000, 8), (0x100, 16)], 0x0, 0, false, 0x0, 0, 2, .any,
    [⟨0, 32, .ro, [], .any⟩]⟩,
  ⟨0x30013c, [(0x4000, 8), (0x100, 16)], 0x0, 0, false, 0x0, 0, 0, .any,
    [⟨0, 1, .w1c, [], .any⟩, ⟨1, 1, .w1c, [], .any⟩, ⟨2, 1, .w1c, [], .any⟩, ⟨3, 1, .w1c, [], .any⟩, ⟨4, 1, .w1c, [], .any⟩]⟩,
  ⟨0x300140, [(0x4000, 8), (0x100, 16)], 0x0, 0, false, 0x0, 0, 0, .any,
    [⟨0, 5, .rw, [], .any⟩]⟩]

/-- LNK registers, R382. -/
def regsLNK0 : List RegDesc := [
  ⟨0x400000, [(0x10000, 12)], 0x108, 0x10000, false, 0x108, 0, 0, .any,
    [⟨0, 4, .ro, [], .any⟩, ⟨8, 8, .ro, [], .any⟩, ⟨16, 4, .ro, [], .any⟩]⟩,
  ⟨0x400004, [(0x10000, 12)], 0xf, 0, false, 0xf, 0, 0, .any,
    [⟨0, 2, .rw, [], .any⟩, ⟨2, 1, .rw, [], .any⟩, ⟨3, 1, .rw, [], .any⟩]⟩,
  ⟨0x400008, [(0x10000, 12)], 0x0, 0, false, 0x0, 0, 0, .any,
    [⟨0, 8, .ro, [], .any⟩, ⟨8, 3, .ro, [], .any⟩, ⟨11, 2, .ro, [], .any⟩]⟩,
  ⟨0x40000c, [(0x10000, 12)], 0x0, 0, false, 0x0, 0, 0, .any,
    [⟨0, 1, .ro, [], .any⟩, ⟨1, 1, .w1c, [], .any⟩, ⟨2, 1, .w1c, [], .any⟩, ⟨3, 1, .w1c, [], .any⟩, ⟨4, 1, .w1c, [], .any⟩, ⟨5, 1, .w1c, [], .any⟩, ⟨6, 1, .ro, [], .any⟩, ⟨7, 1, .w1c, [], .any⟩, ⟨8, 1, .w1c, [], .any⟩, ⟨9, 1, .w1c, [], .any⟩, ⟨10, 1, .w1c, [], .any⟩, ⟨11, 1, .w1c, [], .any⟩, ⟨12, 1, .w1c, [], .any⟩]⟩,
  ⟨0x400010, [(0x10000, 12)], 0x0, 0, false, 0x0, 0, 0, .any,
    [⟨0, 13, .rw, [], .any⟩]⟩,
  ⟨0x400014, [(0x10000, 12)], 0x0, 0, false, 0x0, 0, 0, .any,
    [⟨0, 3, .rw, [], .any⟩, ⟨3, 1, .wo, [], .any⟩, ⟨4, 1, .wo, [], .any⟩]⟩,
  ⟨0x400018, [(0x10000, 12)], 0x0, 0, false, 0x0, 0, 0, .any,
    [⟨0, 3, .rw, [], .any⟩, ⟨3, 1, .wo, [], .any⟩]⟩,
  ⟨0x40001c, [(0x10000, 12)], 0x0, 0, false, 0x0, 0, 0, .any,
    [⟨0, 5, .ro, [], .any⟩, ⟨5, 1, .ro, [], .any⟩, ⟨16, 16, .ro, [], .any⟩]⟩,
  ⟨0x400020, [(0x10000, 12)], 0x0, 0, false, 0x0, 0, 1, .any,
    [⟨0, 32, .ro, [], .any⟩]⟩,
  ⟨0x400024, [(0x10000, 12)], 0x0, 0, false, 0x0, 0, 2, .any,
    [⟨0, 22, .ro, [], .any⟩]⟩,
  ⟨0x400028, [(0x10000, 12)], 0x0, 0, false, 0x0, 0, 0, .any,
    [⟨0, 1, .wo, [], .any⟩]⟩,
  ⟨0x40002c, [(0x10000, 12)], 0x9999, 0, false, 0x9999, 0, 0, .any,
    [⟨0, 24, .rw, [(4096, 16777215)], .any⟩]⟩,
  ⟨0x400030, [(0x10000, 12)], 0x0, 0, false, 0x0, 0, 0, .any,
    [⟨0, 32, .ro, [], .any⟩]⟩,
  ⟨0x400034, [(0x10000, 12)], 0x0, 0, false, 0x0, 0, 0, .any,
    [⟨0, 32, .ro, [], .any⟩]⟩,
  ⟨0x400038, [(0x10000, 12)], 0x0, 0, false, 0x0, 0, 0, .any,
    [⟨0, 32, .ro, [], .any⟩]⟩,
  ⟨0x40003c, [(0x10000, 12)], 0x0, 0, false, 0x0, 0, 0, .any,
    [⟨0, 32, .ro, [], .any⟩]⟩,
  ⟨0x400040, [(0x10000, 12)], 0x0, 0, false, 0x0, 0, 0, .any,
    [⟨0, 32, .ro, [], .any⟩]⟩,
  ⟨0x400044, [(0x10000, 12)], 0x0, 0, false, 0x0, 0, 0, .any,
    [⟨0, 32, .ro, [], .any⟩]⟩,
  ⟨0x400048, [(0x10000, 12)], 0x0, 0, false, 0x0, 0, 0, .any,
    [⟨0, 32, .ro, [], .any⟩]⟩,
  ⟨0x40004c, [(0x10000, 12)], 0x0, 0, false, 0x0, 0, 0, .any,
    [⟨0, 32, .ro, [], .any⟩]⟩,
  ⟨0x400050, [(0x10000, 12)], 0x0, 0, false, 0x0, 0, 0, .any,
    [⟨0, 32, .ro, [], .any⟩]⟩,
  ⟨0x400054, [(0x10000, 12)], 0x0, 0, false, 0x0, 0, 0, .any,
    [⟨0, 32, .ro, [], .any⟩]⟩,
  ⟨0x400058, [(0x10000, 12)], 0x0, 0, false, 0x0, 0, 0, .any,
    [⟨0, 32, .ro, [], .any⟩]⟩,
  ⟨0x40005c, [(0x10000, 12)], 0x0, 0, false, 0x0, 0, 0, .any,
    [⟨0, 32, .ro, [], .any⟩]⟩,
  ⟨0x400060, [(0x10000, 12)], 0x0, 0, false, 0x0, 0, 0, .any,
    [⟨0, 32, .ro, [], .any⟩]⟩,
  ⟨0x400100, [(0x10000, 12), (0x80, 8)], 0x2, 0, false, 0x2, 0, 0, .any,
    [⟨0, 1, .rw, [], .any⟩, ⟨1, 1, .rw, [], .any⟩, ⟨2, 1, .rw, [], .any⟩, ⟨3, 1, .rw, [], .any⟩, ⟨4, 1, .rw, [], .any⟩, ⟨5, 2, .rw, [], .any⟩]⟩,
  ⟨0x400104, [(0x10000, 12), (0x80, 8)], 0x0, 0, false, 0x0, 0, 0, .any,
    [⟨0, 4, .ro, [], .any⟩, ⟨4, 1, .ro, [], .any⟩, ⟨5, 1, .ro, [], .any⟩, ⟨6, 1, .ro, [], .any⟩, ⟨7, 1, .ro, [], .any⟩, ⟨8, 5, .ro, [], .any⟩, ⟨16, 4, .ro, [], .any⟩, ⟨24, 8, .ro, [], .any⟩]⟩,
  ⟨0x400108, [(0x10000, 12), (0x80, 8)], 0x0, 0, false, 0x0, 0, 0, .any,
    [⟨0, 1, .wo, [], .any⟩]⟩,
  ⟨0x40010c, [(0x10000, 12), (0x80, 8)], 0x0, 0, false, 0x0, 0, 0, .any,
    [⟨0, 6, .ro, [], .any⟩, ⟨8, 6, .rw, [(0, 40)], .any⟩]⟩,
  ⟨0x400110, [(0x10000, 12), (0x80, 8)], 0x440, 0, false, 0x440, 0, 0, .any,
    [⟨0, 4, .rw, [(0, 8)], .any⟩, ⟨4, 5, .rw, [(0, 16)], .any⟩, ⟨9, 3, .rw, [(0, 4)], .any⟩]⟩,
  ⟨0x400114, [(0x10000, 12), (0x80, 8)], 0x0, 0, false, 0x0, 0, 0, .any,
    [⟨0, 32, .rw, [], .any⟩]⟩,
  ⟨0x400118, [(0x10000, 12), (0x80, 8)], 0x0, 0, false, 0x0, 0, 0, .any,
    [⟨0, 32, .ro, [], .any⟩]⟩,
  ⟨0x40011c, [(0x10000, 12), (0x80, 8)], 0x0, 0, false, 0x0, 0, 0, .any,
    [⟨0, 32, .rw, [], .any⟩]⟩,
  ⟨0x400120, [(0x10000, 12), (0x80, 8)], 0xc9, 0, false, 0xc9, 0, 0, .any,
    [⟨0, 16, .rw, [], .any⟩]⟩,
  ⟨0x400124, [(0x10000, 12), (0x80, 8)], 0x25c, 0, false, 0x25c, 0, 0, .any,
    [⟨0, 16, .rw, [], .any⟩]⟩,
  ⟨0x400128, [(0x10000, 12), (0x80, 8)], 0x0, 0, false, 0x0, 0, 0, .any,
    [⟨0, 1, .rw, [], .any⟩, ⟨1, 1, .rw, [], .any⟩, ⟨2, 3, .rw, [(0, 4)], .any⟩, ⟨5, 1, .rw, [], .any⟩]⟩,
  ⟨0x40012c, [(0x10000, 12), (0x80, 8)], 0x0, 0, false, 0x0, 0, 0, .any,
    [⟨0, 1, .ro, [], .any⟩]⟩,
  ⟨0x400130, [(0x10000, 12), (0x80, 8)], 0x0, 0, false, 0x0, 0, 0, .any,
    [⟨0, 32, .ro, [], .any⟩]⟩,
  ⟨0x400134, [(0x10000, 12), (0x80, 8)], 0x0, 0, false, 0x0, 0, 0, .any,
    [⟨0, 2, .rw, [], .any⟩, ⟨2, 1, .wo, [], .any⟩, ⟨4, 8, .rw, [], .any⟩]⟩,
  ⟨0x400138, [(0x10000, 12), (0x80, 8)], 0x0, 0, false, 0x0, 0, 0, .any,
    [⟨0, 1, .w1c, [], .any⟩, ⟨1, 1, .w1c, [], .any⟩, ⟨2, 1, .w1c, [], .any⟩, ⟨3, 1, .w1c, [], .any⟩, ⟨4, 1, .w1c, [], .any⟩, ⟨5, 1, .w1c, [], .any⟩, ⟨6, 1, .w1c, [], .any⟩, ⟨7, 1, .w1c, [], .any⟩]⟩]

/-- LNK registers, continued. -/
def regsLNK1 : List RegDesc := [
  ⟨0x40013c, [(0x10000, 12), (0x80, 8)], 0x0, 0, false, 0x0, 0, 0, .any,
    [⟨0, 8, .rw, [], .any⟩]⟩,
  ⟨0x400140, [(0x10000, 12), (0x80, 8)], 0x0, 0, false, 0x0, 0, 0, .any,
    [⟨0, 32, .ro, [], .any⟩]⟩,
  ⟨0x400144, [(0x10000, 12), (0x80, 8)], 0x0, 0, false, 0x0, 0, 0, .any,
    [⟨0, 32, .ro, [], .any⟩]⟩,
  ⟨0x400148, [(0x10000, 12), (0x80, 8)], 0x0, 0, false, 0x0, 0, 0, .any,
    [⟨0, 32, .ro, [], .any⟩]⟩,
  ⟨0x40014c, [(0x10000, 12), (0x80, 8)], 0x0, 0, false, 0x0, 0, 0, .any,
    [⟨0, 32, .ro, [], .any⟩]⟩,
  ⟨0x400150, [(0x10000, 12), (0x80, 8)], 0x0, 0, false, 0x0, 0, 0, .any,
    [⟨0, 32, .ro, [], .any⟩]⟩,
  ⟨0x400154, [(0x10000, 12), (0x80, 8)], 0x0, 0, false, 0x0, 0, 0, .any,
    [⟨0, 32, .ro, [], .any⟩]⟩,
  ⟨0x400158, [(0x10000, 12), (0x80, 8)], 0x0, 0, false, 0x0, 0, 0, .any,
    [⟨0, 32, .ro, [], .any⟩]⟩,
  ⟨0x40015c, [(0x10000, 12), (0x80, 8)], 0x0, 0, false, 0x0, 0, 0, .any,
    [⟨0, 32, .ro, [], .any⟩]⟩,
  ⟨0x400160, [(0x10000, 12), (0x80, 8)], 0x0, 0, false, 0x0, 0, 0, .any,
    [⟨0, 32, .ro, [], .any⟩]⟩,
  ⟨0x400164, [(0x10000, 12), (0x80, 8)], 0x0, 0, false, 0x0, 0, 0, .any,
    [⟨0, 32, .ro, [], .any⟩]⟩,
  ⟨0x401000, [(0x10000, 12), (0x10, 256)], 0x0, 0, false, 0x0, 0, 0, .any,
    [⟨0, 1, .rw, [], .any⟩, ⟨1, 3, .rw, [], .any⟩, ⟨4, 4, .rw, [(0, 2)], .any⟩, ⟨8, 5, .rw, [], .pf⟩]⟩,
  ⟨0x401004, [(0x10000, 12), (0x10, 256)], 0x101, 0, false, 0x101, 0, 0, .any,
    [⟨0, 8, .rw, [(1, 255)], .any⟩, ⟨8, 6, .rw, [(1, 33)], .any⟩]⟩,
  ⟨0x401008, [(0x10000, 12), (0x10, 256)], 0x0, 0, false, 0x0, 0, 0, .any,
    [⟨0, 32, .rw, [], .any⟩]⟩,
  ⟨0x40100c, [(0x10000, 12), (0x10, 256)], 0x0, 0, false, 0x0, 0, 0, .any,
    [⟨0, 32, .ro, [], .any⟩]⟩,
  ⟨0x402000, [(0x10000, 12), (0x10, 256)], 0x0, 0, false, 0x0, 0, 0, .any,
    [⟨0, 1, .rw, [], .any⟩, ⟨1, 3, .rw, [], .any⟩, ⟨4, 4, .rw, [(0, 2)], .any⟩, ⟨8, 5, .rw, [], .pf⟩]⟩,
  ⟨0x402004, [(0x10000, 12), (0x10, 256)], 0x101, 0, false, 0x101, 0, 0, .any,
    [⟨0, 8, .rw, [(1, 255)], .any⟩, ⟨8, 6, .rw, [(1, 33)], .any⟩]⟩,
  ⟨0x402008, [(0x10000, 12), (0x10, 256)], 0x0, 0, false, 0x0, 0, 0, .any,
    [⟨0, 32, .ro, [], .any⟩]⟩,
  ⟨0x40200c, [(0x10000, 12), (0x10, 256)], 0x0, 0, false, 0x0, 0, 0, .any,
    [⟨0, 32, .ro, [], .any⟩]⟩]

/-- LNK registers. -/
def regsLNK : List RegDesc := regsLNK0 ++ regsLNK1

/-- FEC registers, R262. -/
def regsFEC : List RegDesc := [
  ⟨0x800000, [(0x10000, 4)], 0x12448, 0x01000000, false, 0x12448, 0, 0, .any,
    [⟨0, 4, .ro, [], .any⟩, ⟨4, 4, .ro, [], .any⟩, ⟨8, 4, .ro, [], .any⟩, ⟨12, 4, .ro, [], .any⟩, ⟨16, 8, .ro, [], .any⟩, ⟨24, 2, .ro, [], .any⟩]⟩,
  ⟨0x800004, [(0x10000, 4)], 0x3, 0, false, 0x3, 0, 0, .any,
    [⟨0, 1, .rw, [], .any⟩, ⟨1, 1, .rw, [], .any⟩]⟩,
  ⟨0x800008, [(0x10000, 4)], 0x2000, 0, false, 0x2000, 0, 0, .any,
    [⟨0, 16, .rw, [(6144, 65535)], .any⟩]⟩,
  ⟨0x80000c, [(0x10000, 4)], 0x0, 0, false, 0x0, 0, 0, .any,
    [⟨0, 1, .w1c, [], .any⟩, ⟨1, 1, .w1c, [], .any⟩, ⟨2, 1, .w1c, [], .any⟩, ⟨3, 1, .w1c, [], .any⟩, ⟨4, 1, .w1c, [], .any⟩, ⟨5, 1, .w1c, [], .any⟩, ⟨6, 1, .w1c, [], .any⟩, ⟨7, 1, .w1c, [], .any⟩]⟩,
  ⟨0x800010, [(0x10000, 4)], 0x0, 0, false, 0x0, 0, 0, .any,
    [⟨0, 8, .rw, [], .any⟩]⟩,
  ⟨0x800014, [(0x10000, 4)], 0x0, 0, false, 0x0, 0, 0, .any,
    [⟨0, 11, .ro, [], .any⟩, ⟨16, 10, .ro, [], .any⟩]⟩,
  ⟨0x800018, [(0x10000, 4)], 0x0, 0, false, 0x0, 0, 0, .any,
    [⟨0, 9, .ro, [], .any⟩, ⟨16, 9, .ro, [], .any⟩]⟩,
  ⟨0x800020, [(0x10000, 4)], 0x0, 0, false, 0x0, 0, 0, .any,
    [⟨0, 32, .ro, [], .any⟩]⟩,
  ⟨0x800024, [(0x10000, 4)], 0x0, 0, false, 0x0, 0, 0, .any,
    [⟨0, 32, .ro, [], .any⟩]⟩,
  ⟨0x800028, [(0x10000, 4)], 0x0, 0, false, 0x0, 0, 0, .any,
    [⟨0, 32, .ro, [], .any⟩]⟩,
  ⟨0x80002c, [(0x10000, 4)], 0x0, 0, false, 0x0, 0, 0, .any,
    [⟨0, 32, .ro, [], .any⟩]⟩,
  ⟨0x800030, [(0x10000, 4)], 0x0, 0, false, 0x0, 0, 0, .any,
    [⟨0, 32, .ro, [], .any⟩]⟩,
  ⟨0x800034, [(0x10000, 4)], 0x0, 0, false, 0x0, 0, 0, .any,
    [⟨0, 32, .ro, [], .any⟩]⟩,
  ⟨0x800038, [(0x10000, 4)], 0x0, 0, false, 0x0, 0, 0, .any,
    [⟨0, 32, .ro, [], .any⟩]⟩,
  ⟨0x800100, [(0x10000, 4), (0x4, 18)], 0x0, 0, false, 0x0, 0, 0, .any,
    [⟨0, 3, .ro, [], .any⟩, ⟨8, 8, .ro, [], .any⟩, ⟨16, 16, .ro, [], .any⟩]⟩]

/-- CXU registers, R292. -/
def regsCXU : List RegDesc := [
  ⟨0xa00000, [(0x4000, 32)], 0x100, 1, false, 0x100, 0, 0, .any,
    [⟨0, 5, .ro, [], .any⟩, ⟨8, 8, .ro, [], .any⟩]⟩,
  ⟨0xa00004, [(0x4000, 32)], 0x0, 0, false, 0x0, 0, 0, .any,
    [⟨0, 1, .rw, [], .any⟩, ⟨1, 1, .rw, [], .any⟩, ⟨2, 1, .rw, [], .any⟩, ⟨3, 2, .rw, [(0, 2)], .any⟩, ⟨5, 1, .rw, [], .any⟩]⟩,
  ⟨0xa00008, [(0x4000, 32)], 0x0, 0, false, 0x0, 0, 0, .any,
    [⟨0, 12, .rw, [], .any⟩]⟩,
  ⟨0xa0000c, [(0x4000, 32)], 0xc00, 0, false, 0xc00, 0, 0, .any,
    [⟨0, 18, .rw, [(768, 196608)], .any⟩]⟩,
  ⟨0xa00010, [(0x4000, 32)], 0x1101, 0, false, 0x1101, 0, 0, .any,
    [⟨0, 5, .rw, [(1, 16)], .any⟩, ⟨8, 5, .rw, [], .any⟩]⟩,
  ⟨0xa00014, [(0x4000, 32)], 0x0, 0, false, 0x0, 0, 0, .any,
    [⟨0, 32, .rw, [], .any⟩]⟩,
  ⟨0xa00018, [(0x4000, 32)], 0x0, 0, false, 0x0, 0, 0, .any,
    [⟨0, 32, .rw, [], .any⟩]⟩,
  ⟨0xa0001c, [(0x4000, 32)], 0x600, 0, false, 0x600, 0, 0, .any,
    [⟨0, 1, .wo, [], .any⟩, ⟨1, 1, .rw, [], .any⟩, ⟨2, 1, .rw, [], .any⟩, ⟨4, 1, .ro, [], .any⟩, ⟨5, 2, .ro, [], .any⟩, ⟨7, 1, .ro, [], .any⟩, ⟨8, 4, .rw, [(6, 12)], .any⟩]⟩,
  ⟨0xa00020, [(0x4000, 32)], 0x0, 0, false, 0x0, 0, 1, .any,
    [⟨0, 32, .rw, [], .any⟩]⟩,
  ⟨0xa00024, [(0x4000, 32)], 0x0, 0, false, 0x0, 0, 2, .any,
    [⟨0, 22, .rw, [], .any⟩]⟩,
  ⟨0xa00028, [(0x4000, 32)], 0x1, 0, false, 0x1, 0, 0, .any,
    [⟨0, 9, .rw, [(1, 384)], .any⟩, ⟨12, 1, .rw, [], .any⟩]⟩,
  ⟨0xa0002c, [(0x4000, 32)], 0x1, 0, false, 0x1, 0, 0, .any,
    [⟨0, 9, .rw, [(1, 384)], .any⟩, ⟨12, 1, .rw, [], .any⟩]⟩,
  ⟨0xa00030, [(0x4000, 32)], 0x0, 0, false, 0x0, 0, 0, .any,
    [⟨0, 17, .rw, [], .any⟩]⟩,
  ⟨0xa00034, [(0x4000, 32)], 0x0, 0, false, 0x0, 0, 0, .any,
    [⟨0, 17, .rw, [], .any⟩]⟩,
  ⟨0xa00038, [(0x4000, 32)], 0x0, 0, false, 0x0, 0, 0, .any,
    [⟨0, 32, .ro, [], .any⟩]⟩,
  ⟨0xa0003c, [(0x4000, 32)], 0x0, 0, false, 0x0, 0, 0, .any,
    [⟨0, 1, .wo, [], .any⟩, ⟨1, 1, .rw, [], .any⟩, ⟨8, 6, .rw, [], .any⟩]⟩,
  ⟨0xa00040, [(0x4000, 32)], 0x0, 0, false, 0x0, 0, 1, .any,
    [⟨0, 32, .rw, [], .any⟩]⟩,
  ⟨0xa00044, [(0x4000, 32)], 0x0, 0, false, 0x0, 0, 2, .any,
    [⟨0, 16, .rw, [], .any⟩]⟩,
  ⟨0xa00048, [(0x4000, 32)], 0x0, 0, false, 0x0, 0, 1, .any,
    [⟨0, 32, .rw, [], .any⟩]⟩,
  ⟨0xa0004c, [(0x4000, 32)], 0x0, 0, false, 0x0, 0, 2, .any,
    [⟨0, 16, .rw, [], .any⟩]⟩,
  ⟨0xa00050, [(0x4000, 32)], 0xc80, 0, false, 0xc80, 0, 0, .any,
    [⟨0, 1, .rw, [], .any⟩, ⟨4, 4, .rw, [(4, 10)], .any⟩, ⟨8, 5, .rw, [(12, 24)], .any⟩]⟩,
  ⟨0xa00054, [(0x4000, 32)], 0xc0, 0, false, 0xc0, 0, 0, .any,
    [⟨0, 16, .rw, [], .any⟩]⟩,
  ⟨0xa00058, [(0x4000, 32)], 0xa, 0, false, 0xa, 0, 0, .any,
    [⟨0, 5, .rw, [(4, 20)], .any⟩, ⟨5, 1, .rw, [], .any⟩, ⟨6, 1, .rw, [], .any⟩, ⟨7, 1, .rw, [], .any⟩, ⟨8, 6, .rw, [], .any⟩]⟩,
  ⟨0xa0005c, [(0x4000, 32)], 0xffffffff, 0, false, 0xffffffff, 0, 0, .any,
    [⟨0, 32, .rw, [], .any⟩]⟩,
  ⟨0xa00060, [(0x4000, 32)], 0x0, 0, false, 0x0, 0, 0, .any,
    [⟨0, 32, .rw, [], .any⟩]⟩,
  ⟨0xa00064, [(0x4000, 32)], 0x0, 0, false, 0x0, 0, 0, .any,
    [⟨0, 8, .rw, [], .any⟩, ⟨16, 7, .rw, [], .any⟩]⟩,
  ⟨0xa00068, [(0x4000, 32)], 0x0, 0, false, 0x0, 0, 0, .any,
    [⟨0, 32, .ro, [], .any⟩]⟩,
  ⟨0xa0006c, [(0x4000, 32)], 0x0, 0, false, 0x0, 0, 0, .any,
    [⟨0, 1, .ro, [], .any⟩, ⟨1, 1, .ro, [], .any⟩, ⟨2, 1, .ro, [], .any⟩]⟩,
  ⟨0xa00070, [(0x4000, 32)], 0x0, 0, false, 0x0, 0, 0, .any,
    [⟨0, 1, .w1c, [], .any⟩, ⟨1, 1, .w1c, [], .any⟩, ⟨2, 1, .w1c, [], .any⟩, ⟨3, 1, .w1c, [], .any⟩, ⟨4, 1, .w1c, [], .any⟩, ⟨5, 1, .w1c, [], .any⟩, ⟨6, 1, .w1c, [], .any⟩, ⟨7, 1, .w1c, [], .any⟩]⟩,
  ⟨0xa00074, [(0x4000, 32)], 0x0, 0, false, 0x0, 0, 0, .any,
    [⟨0, 8, .rw, [], .any⟩]⟩,
  ⟨0xa00078, [(0x4000, 32)], 0x0, 0, false, 0x0, 0, 0, .any,
    [⟨0, 32, .ro, [], .any⟩]⟩,
  ⟨0xa0007c, [(0x4000, 32)], 0x0, 0, false, 0x0, 0, 0, .any,
    [⟨0, 32, .ro, [], .any⟩]⟩,
  ⟨0xa00080, [(0x4000, 32)], 0x0, 0, false, 0x0, 0, 0, .any,
    [⟨0, 32, .ro, [], .any⟩]⟩,
  ⟨0xa00084, [(0x4000, 32)], 0x0, 0, false, 0x0, 0, 0, .any,
    [⟨0, 32, .ro, [], .any⟩]⟩,
  ⟨0xa00088, [(0x4000, 32)], 0x0, 0, false, 0x0, 0, 0, .any,
    [⟨0, 32, .ro, [], .any⟩]⟩,
  ⟨0xa0008c, [(0x4000, 32)], 0x0, 0, false, 0x0, 0, 0, .any,
    [⟨0, 32, .ro, [], .any⟩]⟩,
  ⟨0xa00090, [(0x4000, 32)], 0x0, 0, false, 0x0, 0, 0, .any,
    [⟨0, 32, .ro, [], .any⟩]⟩,
  ⟨0xa00094, [(0x4000, 32)], 0x0, 0, false, 0x0, 0, 0, .any,
    [⟨0, 3, .ro, [], .any⟩, ⟨8, 8, .ro, [], .any⟩]⟩,
  ⟨0xa01000, [(0x4000, 32), (0x4, 384)], 0x0, 0, false, 0x0, 0, 0, .any,
    [⟨0, 18, .rw, [], .any⟩]⟩,
  ⟨0xa02000, [(0x4000, 32), (0x4, 384)], 0x0, 0, false, 0x0, 0, 0, .any,
    [⟨0, 18, .rw, [], .any⟩]⟩]

/-- FFT registers, R293. -/
def regsFFT : List RegDesc := [
  ⟨0xc00000, [(0x1000, 16)], 0x100, 1, false, 0x100, 0, 0, .any,
    [⟨0, 4, .ro, [], .any⟩, ⟨8, 8, .ro, [], .any⟩]⟩,
  ⟨0xc00004, [(0x4000, 4)], 0x3, 0, false, 0x3, 0, 0, .any,
    [⟨0, 1, .rw, [], .any⟩, ⟨1, 1, .rw, [], .any⟩]⟩,
  ⟨0xc00008, [(0x4000, 4)], 0x1000, 0, false, 0x1000, 0, 0, .any,
    [⟨0, 16, .rw, [(2080, 65535)], .any⟩]⟩,
  ⟨0xc0000c, [(0x4000, 4)], 0x0, 0, false, 0x0, 0, 0, .any,
    [⟨0, 1, .w1c, [], .any⟩, ⟨1, 1, .w1c, [], .any⟩, ⟨2, 1, .w1c, [], .any⟩, ⟨3, 1, .w1c, [], .any⟩, ⟨4, 1, .w1c, [], .any⟩, ⟨5, 1, .w1c, [], .any⟩, ⟨6, 1, .w1c, [], .any⟩, ⟨7, 1, .w1c, [], .any⟩]⟩,
  ⟨0xc00010, [(0x4000, 4)], 0x0, 0, false, 0x0, 0, 0, .any,
    [⟨0, 8, .rw, [], .any⟩]⟩,
  ⟨0xc00014, [(0x4000, 4)], 0x0, 0, false, 0x0, 0, 0, .any,
    [⟨0, 9, .ro, [], .any⟩]⟩,
  ⟨0xc00020, [(0x4000, 4)], 0x0, 0, false, 0x0, 0, 0, .any,
    [⟨0, 32, .ro, [], .any⟩]⟩,
  ⟨0xc00024, [(0x4000, 4)], 0x0, 0, false, 0x0, 0, 0, .any,
    [⟨0, 32, .ro, [], .any⟩]⟩,
  ⟨0xc00028, [(0x4000, 4)], 0x0, 0, false, 0x0, 0, 0, .any,
    [⟨0, 32, .ro, [], .any⟩]⟩,
  ⟨0xc0002c, [(0x4000, 4)], 0x0, 0, false, 0x0, 0, 0, .any,
    [⟨0, 32, .ro, [], .any⟩]⟩,
  ⟨0xc00030, [(0x4000, 4)], 0x0, 0, false, 0x0, 0, 0, .any,
    [⟨0, 32, .ro, [], .any⟩]⟩,
  ⟨0xc00034, [(0x4000, 4)], 0x0, 0, false, 0x0, 0, 0, .any,
    [⟨0, 32, .ro, [], .any⟩]⟩,
  ⟨0xc00038, [(0x4000, 4)], 0x0, 0, false, 0x0, 0, 0, .any,
    [⟨0, 32, .ro, [], .any⟩]⟩,
  ⟨0xc00100, [(0x1000, 16)], 0x0, 0, false, 0x0, 0, 0, .any,
    [⟨0, 3, .ro, [], .any⟩, ⟨8, 8, .ro, [], .any⟩, ⟨16, 16, .ro, [], .any⟩]⟩]

/-- STW registers, R479. -/
def regsSTW : List RegDesc := [
  ⟨0x1000000, [(0x1000, 16)], 0x100, 1, false, 0x100, 0, 0, .any,
    [⟨0, 4, .ro, [], .any⟩, ⟨8, 8, .ro, [], .any⟩]⟩,
  ⟨0x1000004, [(0x1000, 16)], 0x33, 0, false, 0x33, 0, 0, .any,
    [⟨0, 3, .ro, [], .any⟩, ⟨3, 1, .ro, [], .any⟩, ⟨4, 2, .ro, [], .any⟩, ⟨6, 2, .ro, [], .any⟩, ⟨8, 1, .ro, [], .any⟩, ⟨9, 1, .ro, [], .any⟩, ⟨16, 8, .ro, [], .any⟩]⟩,
  ⟨0x1000008, [(0x1000, 16)], 0x0, 0, false, 0x0, 0, 0, .any,
    [⟨0, 32, .ro, [], .any⟩]⟩,
  ⟨0x100000c, [(0x1000, 16)], 0x0, 0, false, 0x0, 0, 0, .mcpf,
    [⟨0, 1, .w1c, [], .any⟩, ⟨1, 1, .w1c, [], .any⟩, ⟨2, 1, .w1c, [], .any⟩, ⟨3, 1, .w1c, [], .any⟩, ⟨4, 1, .w1c, [], .any⟩, ⟨5, 1, .w1c, [], .any⟩]⟩,
  ⟨0x1000010, [(0x1000, 16)], 0x0, 0, false, 0x0, 0, 0, .mcpf,
    [⟨0, 6, .rw, [], .any⟩]⟩,
  ⟨0x1000014, [(0x1000, 16)], 0x0, 0, false, 0x0, 0, 0, .any,
    [⟨0, 16, .ro, [], .any⟩, ⟨16, 4, .ro, [], .any⟩, ⟨20, 4, .ro, [], .any⟩, ⟨24, 8, .ro, [], .any⟩]⟩,
  ⟨0x1000018, [(0x1000, 16)], 0x0, 0, false, 0x0, 0, 0, .any,
    [⟨0, 32, .ro, [], .any⟩]⟩,
  ⟨0x100001c, [(0x1000, 16)], 0x0, 0, false, 0x0, 0, 0, .any,
    [⟨0, 32, .ro, [], .any⟩]⟩,
  ⟨0x1000020, [(0x1000, 16)], 0x0, 0, false, 0x0, 0, 0, .any,
    [⟨0, 32, .ro, [], .any⟩]⟩,
  ⟨0x1000024, [(0x1000, 16)], 0x0, 0, false, 0x0, 0, 0, .any,
    [⟨0, 32, .ro, [], .any⟩]⟩]

/-- TSU registers, R91. -/
def regsTSU : List RegDesc := [
  ⟨0x1100000, [(0x10000, 128)], 0x301, 0, false, 0x301, 0, 0, .any,
    [⟨0, 1, .rw, [], .any⟩, ⟨8, 1, .rw, [], .any⟩, ⟨9, 2, .rw, [(0, 2)], .any⟩]⟩,
  ⟨0x1100004, [(0x10000, 128)], 0xb851, 0, false, 0xb851, 0, 0, .any,
    [⟨0, 16, .rw, [(1, 47185)], .any⟩]⟩,
  ⟨0x1100008, [(0x10000, 128)], 0x800, 0, false, 0x800, 0, 0, .any,
    [⟨0, 16, .rw, [], .any⟩]⟩,
  ⟨0x110000c, [(0x10000, 128)], 0x80, 0, false, 0x80, 0, 0, .any,
    [⟨0, 8, .rw, [], .any⟩]⟩,
  ⟨0x1100010, [(0x10000, 128)], 0x7f, 0, false, 0x7f, 0, 0, .any,
    [⟨0, 8, .rw, [], .any⟩]⟩,
  ⟨0x1100014, [(0x10000, 128)], 0x4000c0, 0, false, 0x4000c0, 0, 0, .any,
    [⟨0, 8, .rw, [], .any⟩, ⟨16, 8, .rw, [], .any⟩]⟩,
  ⟨0x1100018, [(0x10000, 128)], 0x0, 0, false, 0x0, 0, 0, .any,
    [⟨0, 32, .ro, [], .any⟩]⟩,
  ⟨0x110001c, [(0x10000, 128)], 0x0, 0, false, 0x0, 0, 0, .any,
    [⟨0, 10, .ro, [], .any⟩, ⟨16, 10, .ro, [], .any⟩]⟩,
  ⟨0x1100020, [(0x10000, 128)], 0x0, 0, false, 0x0, 0, 0, .any,
    [⟨0, 10, .ro, [], .any⟩, ⟨16, 10, .ro, [], .any⟩]⟩,
  ⟨0x1100024, [(0x10000, 128)], 0x0, 0, false, 0x0, 0, 0, .any,
    [⟨0, 2, .ro, [], .any⟩, ⟨2, 1, .ro, [], .any⟩, ⟨16, 12, .ro, [], .any⟩]⟩,
  ⟨0x1100028, [(0x10000, 128)], 0x0, 0, false, 0x0, 0, 0, .any,
    [⟨0, 1, .w1c, [], .any⟩, ⟨1, 1, .w1c, [], .any⟩, ⟨2, 1, .w1c, [], .any⟩, ⟨3, 1, .w1c, [], .any⟩, ⟨4, 1, .w1c, [], .any⟩, ⟨5, 1, .w1c, [], .any⟩, ⟨6, 1, .w1c, [], .any⟩, ⟨7, 1, .w1c, [], .any⟩]⟩,
  ⟨0x110002c, [(0x10000, 128)], 0x0, 0, false, 0x0, 0, 0, .any,
    [⟨0, 8, .rw, [], .any⟩]⟩,
  ⟨0x1100030, [(0x10000, 128)], 0x0, 0, false, 0x0, 0, 0, .any,
    [⟨0, 32, .ro, [], .any⟩]⟩,
  ⟨0x1100034, [(0x10000, 128)], 0x0, 0, false, 0x0, 0, 0, .any,
    [⟨0, 32, .ro, [], .any⟩]⟩,
  ⟨0x1100038, [(0x10000, 128)], 0x0, 0, false, 0x0, 0, 0, .any,
    [⟨0, 32, .ro, [], .any⟩]⟩,
  ⟨0x110003c, [(0x10000, 128)], 0x0, 0, false, 0x0, 0, 0, .any,
    [⟨0, 32, .ro, [], .any⟩]⟩,
  ⟨0x1100040, [(0x10000, 128)], 0x0, 0, false, 0x0, 0, 0, .any,
    [⟨0, 32, .ro, [], .any⟩]⟩,
  ⟨0x1100044, [(0x10000, 128)], 0x0, 0, false, 0x0, 0, 0, .any,
    [⟨0, 32, .ro, [], .any⟩]⟩,
  ⟨0x1100100, [(0x10000, 128), (0x20, 8)], 0x0, 0, false, 0x0, 0, 0, .mcsup,
    [⟨0, 1, .wo, [], .any⟩, ⟨1, 1, .wo, [], .any⟩, ⟨2, 1, .wo, [], .any⟩]⟩,
  ⟨0x1100104, [(0x10000, 128), (0x20, 8)], 0x0, 0, false, 0x0, 0, 0, .any,
    [⟨0, 4, .ro, [], .any⟩, ⟨8, 8, .ro, [], .any⟩, ⟨16, 4, .ro, [], .any⟩, ⟨20, 1, .ro, [], .any⟩, ⟨21, 1, .ro, [], .any⟩]⟩,
  ⟨0x1100108, [(0x10000, 128), (0x20, 8)], 0x0, 0, false, 0x0, 0, 0, .any,
    [⟨0, 13, .ro, [], .any⟩, ⟨13, 5, .ro, [], .any⟩, ⟨18, 6, .ro, [], .any⟩, ⟨24, 1, .ro, [], .any⟩, ⟨25, 1, .ro, [], .any⟩]⟩,
  ⟨0x110010c, [(0x10000, 128), (0x20, 8)], 0x0, 0, false, 0x0, 0, 0, .any,
    [⟨0, 32, .ro, [], .any⟩]⟩,
  ⟨0x1100110, [(0x10000, 128), (0x20, 8)], 0x0, 0, false, 0x0, 0, 0, .any,
    [⟨0, 4, .ro, [], .any⟩, ⟨4, 4, .ro, [], .any⟩, ⟨16, 16, .ro, [], .any⟩]⟩,
  ⟨0x1100114, [(0x10000, 128), (0x20, 8)], 0x0, 0, false, 0x0, 0, 0, .any,
    [⟨0, 32, .ro, [], .any⟩]⟩,
  ⟨0x1100118, [(0x10000, 128), (0x20, 8)], 0x0, 0, false, 0x0, 0, 0, .any,
    [⟨3, 12, .ro, [], .any⟩]⟩]

/-- The blocks of the BAR0 layout (R43): first offset, one past the last, their registers. Offsets in no block are
reserved (R44). -/
def regBlocks : List (Nat × Nat × List RegDesc) := [
  (0x0, 0x100, regsID),
  (0x100, 0x1000, regsSWATCH),
  (0x1000, 0x10000, regsHIF),
  (0x10000, 0x20000, regsTLN),
  (0x20000, 0x30000, regsTIM),
  (0x30000, 0x40000, regsPWR),
  (0x40000, 0x50000, regsTHM),
  (0x50000, 0x60000, regsRAS),
  (0x60000, 0x70000, regsSEP),
  (0x70000, 0x80000, regsMGT),
  (0x100000, 0x200000, regsNOC),
  (0x200000, 0x300000, regsMEM),
  (0x300000, 0x320000, regsDMA),
  (0x400000, 0x4c0000, regsLNK),
  (0x800000, 0x840000, regsFEC),
  (0xa00000, 0xa80000, regsCXU),
  (0xc00000, 0xc10000, regsFFT),
  (0x1000000, 0x1010000, regsSTW),
  (0x1100000, 0x1900000, regsTSU)]

/-- Does offset `rem`, counted from a register's first instance, fall on an instance: the index along the first
dimension when it does. -/
def instIndex : List (Nat × Nat) → Nat → Option Nat
  | [], rem => if rem = 0 then some 0 else none
  | [(st, n)], rem => if rem % st = 0 ∧ rem / st < n then some (rem / st) else none
  | (st, n) :: rest, rem => if rem / st < n ∧ (instIndex rest (rem % st)).isSome then some (rem / st) else none

/-- The first descriptor of a list that holds the offset, with the index along its first dimension. -/
def findIn : List RegDesc → Nat → Option (RegDesc × Nat)
  | [], _ => none
  | d :: ds, a =>
    if d.base ≤ a then
      match instIndex d.dims (a - d.base) with
      | some i => some (d, i)
      | none => findIn ds a
    else findIn ds a

/-- The registers of the block that holds a BAR0 offset. -/
def blockRegs : List (Nat × Nat × List RegDesc) → Nat → List RegDesc
  | [], _ => []
  | (lo, hi, ds) :: rest, a => if lo ≤ a ∧ a < hi then ds else blockRegs rest a

/-- The FFT registers that a strip's four units share are one register: the copy of the strip's first unit (R293). -/
def canonOff (a : Nat) : Nat :=
  if 0xc00000 ≤ a ∧ a < 0xc10000 ∧ 4 ≤ a % 0x1000 ∧ a % 0x1000 < 0x100 then a - (a / 0x1000 % 4) * 0x1000 else a

/-- The register at a BAR0 offset. -/
def findReg (a : Nat) : Option (RegDesc × Nat) := findIn (blockRegs regBlocks a) a

/-- Reset value of the register with key `k` (function · 2^25 + BAR0 offset), as the register maps give it; 0 at
reserved offsets (R44). -/
def regReset (k : Nat) : BitVec 32 :=
  let f := k / 0x2000000
  let a := k % 0x2000000
  match findReg a with
  | none => 0
  | some (d, i) =>
    if f = 0 then BitVec.ofNat 32 (d.reset + d.step * i)
    else if d.perFn then
      BitVec.ofNat 32 (d.vfReset + d.fnStep * f + (if a = Reg.HIF_STAT ∧ f % 2 = 1 then 4 else 0))
    else 0

end Sys2Proof.Machine
end

