-- ==== Sys2Proof/Machine/State.lean ====
section
/-! DEFINITION. The state of the machine, as plain data. Every register of the register space is in `regs`; the
structures below hold what the chapters give each block beside its registers. -/

namespace Sys2Proof.Machine

/-- The spec names no condition that stops the block as a whole, and no meaning raises a fault. -/
inductive Fault where
  /-- Raised by no meaning (safe): the type only needs a name for the interface. -/
  | none
deriving DecidableEq, Repr

/-- Why a command has no meaning here. Every command has one: no meaning refuses. -/
inductive Refusal where
  /-- The command has no meaning in the model yet (safe). Raised by an arm of Dispatch for such a command; there is none. -/
  | notModelled (mnemonic : String)
deriving DecidableEq, Repr

/-! ## Outputs -/

/-- What the block shows the outside: answers, messages and pin events. -/
inductive Out where
  /-- A register read is answered. -/
  | read (r : Requester) (addr : Nat) (value : Word)
  /-- Bits on MSPI_MISO: value and number of bits. -/
  | spi (value : Nat) (bits : Nat)
  /-- Bytes of an I3C private read or CCC answer. -/
  | i3c (bytes : List Byte)
  /-- In-band interrupt with its mandatory byte. -/
  | ibi (b : Byte)
  /-- ALERT_N changes; true is low. -/
  | alert (low : Bool)
  /-- THERMTRIP_N goes low. -/
  | thermtrip
  /-- PPS_OUT rises or falls. -/
  | pps (high : Bool)
  /-- A pulse of 2^11 Tc on a GPIO pin. -/
  | gpioPulse (n : Nat)
  /-- An MSI-X message: function, vector, address, data. -/
  | msix (f v : Nat) (addr : Nat) (data : Word)
  /-- A PCIe completion of a BAR4 read: tag, outcome (0 success, 1 poisoned, 2 Unsupported Request, 3 Completer Abort),
  data. -/
  | pcie (f tag : Nat) (outcome : Nat) (data : List Byte)
  /-- Voltage commanded over AVSBus, in mV. -/
  | avs (mv : Nat)
  /-- A frame on a lane, as the bits that leave the serializer, marker and guards included. -/
  | frame (lane : Nat) (seq : Nat) (line : List Bool)
  /-- The training message a lane sends from now on: MSG and the payload bits above it (R361). -/
  | train (lane msg : Nat) (payload : Nat)
  /-- A flit leaves a router through a port: header and payload. -/
  | flit (router port : Nat) (hdr : Nat) (payload : Nat)
  /-- A fabric response: requester's tag, code and data. -/
  | resp (tag : Nat) (code : Nat) (data : List Byte)
  /-- A JTAG instruction takes effect: the register it selects (0 bypass, 1 device identification, 2 boundary scan) and the
  value captured there; of the boundary-scan register, its first bit. -/
  | jtag (reg : Nat) (value : Nat)
deriving DecidableEq, Repr

/-! ## Time base -/

/-- An entry of the TIME receive queue (R407). -/
structure TrxEntry where
  msg : List Byte
  stamp : Nat
  bundle : Nat
  lane : Nat
  seq : Nat
deriving DecidableEq, Repr

/-- A TIME_REQ in the responder (R408): where it came from, its SEQID and stamp t2, whether TIME_RESP has been sent,
and the transmit stamp t3 of that frame once it exists. -/
structure Responder where
  bundle : Nat
  lane : Nat
  seqid : Nat
  t2 : Nat
  respSent : Bool
  t3 : Option Nat
deriving DecidableEq, Repr

/-- The time base beside its registers: TIM_RAW, whether it counts, each requester's capture of the last TIM_NOW read
(R393), the last accepted PPS_IN edge and the end of the PPS_OUT pulse as counts with wraps, the TIME receive queue, the
mailbox message that waits for its frame (lane and bytes), the responder's requests, and for each domain the copy of the
count it last used (R386), with wraps. -/
structure TimS where
  raw : BitVec 48 := 0
  counting : Bool := false
  snap : Tab (Nat × Bool) := []
  lastPps : Option Nat := none
  ppsEnd : Option Nat := none
  trx : List TrxEntry := []
  ttx : Option (Nat × List Byte) := none
  resp : List Responder := []
  copies : Tab Nat := []
deriving DecidableEq, Repr

/-! ## Timelines, palettes, tasks -/

/-- A palette ring entry (R55); `rsv` says that a reserved bit is set. -/
structure RingEntry where
  pal : Nat
  param : Nat
  stat : Nat
  slot : Nat
  valid : Bool
  rep : Bool
  rsv : Bool
deriving DecidableEq, Repr

/-- A timeline beside its registers: whether the prepare point of the pending boundary has run, the entry it chose with its
slot number and slot start until it is bound (R57), a held repeat entry, the sampled TL_ADV. -/
structure TlS where
  prepared : Bool := false
  chosen : Option (RingEntry × Nat × Nat) := none
  held : Option RingEntry := none
  adv : Nat := 0
deriving DecidableEq, Repr

/-- A palette header as read (R59). -/
structure PalHdr where
  minOp : Nat := 0
  func : Nat := 0
  tasks : Nat := 0
  bufs : Nat := 0
  horizon : Nat := 0
  taskOff : Nat := 0
  bufOff : Nat := 0
  prog : Nat := 0
  progs : Nat := 0
deriving DecidableEq, Repr

/-- A palette that has been bound to a slot. `start`: its slot start; `adv`: TL_ADV as sampled; `period`: TL_PERIOD; `active`:
its slot start has come; `next`: its next record to deliver; `held`: its records are held (R69); then the counts of its status
block; `over`: the count at which its last task resolved; `told`: its SLOT_DONE has been posted. -/
structure Pal where
  key : Nat
  tl : Nat
  slot : Nat
  start : Nat
  addr : Nat
  param : Nat
  stat : Nat
  adv : Nat
  period : Nat
  hdr : PalHdr
  active : Bool := false
  next : Nat := 0
  held : Bool := false
  done : Nat := 0
  missed : Nat := 0
  stolen : Nat := 0
  recoated : Nat := 0
  ingressInc : Nat := 0
  commitErr : Nat := 0
  resolved : Option Nat := none
  told : Bool := false
deriving DecidableEq, Repr

/-- A task record (R60). -/
structure TaskRec where
  id : Nat := 0
  cls : Nat := 0
  prio : Nat := 0
  onMiss : Nat := 0
  prog : Nat := 0
  home : Nat := 0
  start : Nat := 0
  deadline : Nat := 0
  mask : Nat := 0
  preds : List (Option Nat) := []
  ins : List (Option Nat) := []
  outs : List (Option Nat) := []
  arg : Nat := 0
deriving DecidableEq, Repr

/-- Where a task stands. `pending`: not delivered; `handed`: on its way through the timeline unit again; `loading`:
dispatched, its program being loaded; `recoat`: fenced off its engine, waiting for its target; `committing`: HARQ
header writes await their responses. -/
inductive TPhase where
  | pending | handed | parked | queued | join | loading | running | stopping | recoat | committing | done | missed
deriving DecidableEq, Repr

/-- One pair of a DMA-class task (R342, R343): its channel, addresses, whether each lies in host space, the bytes each side
offers (SIZE of a buffer, count of a parameter entry), which entries are still to be read, its CRC and mode, its COUNT, whether
it is done, how often it has halted, the channel it halted on. -/
structure DmaPair where
  j : Nat
  chan : Option Nat := none
  src : Nat := 0
  dst : Nat := 0
  srcHost : Bool := false
  dstHost : Bool := false
  cin : Nat := 0
  cout : Nat := 0
  needIn : Bool := false
  needOut : Bool := false
  poly : Nat := 7
  mode : Nat := 0
  count : Nat := 0
  done : Bool := false
  halts : Nat := 0
  bad : Option Nat := none
deriving DecidableEq, Repr

/-- A task and its progress. `tile`: where it is queued or runs; `enq`: since when; `started`: its START has been reached;
`stolen`, `recoated`: it has been; `eng`: its engine; `reason`: why it is being stopped; `requeue`: it returns to its queue when its engine
has halted. The dispatch record (R490): `g2`, `refs` (address and size of IN0 to IN3 and OUT0 to OUT3), `prog` (image, SIZE,
ENTRY, IMG_CRC). `limitFrom`: its first bundle; `recoatRun`, `shortLimit`: the run is a recoat, with the limit of R492;
`faulty`: the engine it was fenced
off; `target`, `loaded`: the recoat's engine, and whether the program is there; `charge`: the engine a LIMIT fault is charged to
when the recoat run completes (R495). `commits`: HARQ header writes not answered. -/
structure Task where
  tr : TaskRec := {}
  phase : TPhase := .pending
  tile : Nat := 0
  enq : Nat := 0
  started : Bool := false
  stolen : Bool := false
  recoated : Bool := false
  eng : Option Nat := none
  reason : Nat := 0
  requeue : Bool := false
  g2 : Nat := 0
  refs : List (Option (Nat × Nat)) := []
  prog : Nat × Nat × Nat × Nat := (0, 0, 0, 0)
  limitFrom : Nat := 0
  recoatRun : Bool := false
  shortLimit : Bool := false
  target : Option Nat := none
  loaded : Bool := false
  faulty : Nat := 0
  charge : Option Nat := none
  commits : List (Nat × List Byte) := []
  pairs : List DmaPair := []
deriving DecidableEq, Repr

/-- A buffer of a bound palette: its CLOSE as a count and its EXPECT (INGRESS), whether it is closed, whether it has been
committed (EGRESS, HOST). -/
structure BufS where
  close : Nat := 0
  expect : Nat := 0
  ingress : Bool := false
  closed : Bool := false
  committed : Bool := false
deriving DecidableEq, Repr

/-- The timeline unit and the supervisors beside their registers: timelines, bound palettes in the order of their prepare
points, tasks by palette key · 8,192 + id, buffers by palette key · 16,384 + index, tasks on their way through the timeline
unit again (R68), and for each tile the images its program cache holds, most recently used first: image, offset in tile
memory, size. -/
structure TlnS where
  tls : Tab TlS := []
  pals : List Pal := []
  nextKey : Nat := 0
  tasks : Tab Task := []
  bufs : Tab BufS := []
  handed : List Nat := []
  pcache : Tab (List (Nat × Nat × Nat)) := []
deriving DecidableEq, Repr

/-! ## Host interface -/

/-- A command fetched from a submission queue and not completed: its 64 bytes decoded as far as its kind needs. -/
inductive HCmd where
  | nop
  | load (release : Bool) (pal : Nat)
  | submit (tl : Nat) (entry : List Byte)
  | dma (chan ctrl : Nat) (chain : Bool) (src dst count desc : Nat)
  | result (tl slot buf haddr maxlen : Nat)
  | mgmt (mcode : Nat) (args : List Byte)
  | bad (opcode : Nat)
deriving DecidableEq, Repr

/-- A command in flight: function, queue pair, CID, IMM, FENCE, its place in its queue's order, whether its body has a
set reserved bit, whether it has started. -/
structure InFlight where
  f : Nat
  q : Nat
  cid : Nat
  imm : Bool
  fence : Bool
  seq : Nat
  badParam : Bool
  started : Bool
  cmd : HCmd
deriving DecidableEq, Repr

/-- A completion waiting for room in its queue (R427). -/
structure WaitCpl where
  f : Nat
  q : Nat
  command : Bool
  imm : Bool
  words : List Word
deriving DecidableEq, Repr

/-- A validated palette (R66, R429). -/
structure Validated where
  handle : Nat
  addr : Nat
  func : Nat
  releasing : Bool
deriving DecidableEq, Repr

/-- An armed RESULT (R432), by the sequence number of its command: its slot and buffer, where the copy goes and its bound;
once the slot has been reported, the address and the bytes to copy. -/
structure Armed where
  seq : Nat
  f : Nat
  tl : Nat
  slot : Nat
  buf : Nat
  haddr : Nat
  maxlen : Nat
  copy : Option (Nat × Nat) := none
deriving DecidableEq, Repr

/-- A request in the MGMT mailbox (R433); `wait`: the unit whose transition or handshake its answer awaits, 0 for the device
level. -/
structure Mail where
  seq : Nat
  f : Nat
  mcode : Nat
  args : List Byte
  wait : Option Nat := none
deriving DecidableEq, Repr

/-- A BAR4 request accepted from PCIe and not finished (R416): function, tag, write or read, offset, bytes to write or
length to read, bytes read so far, the worst outcome so far, offset of the part in flight. -/
structure Bar4Req where
  f : Nat
  tag : Nat
  write : Bool
  off : Nat
  len : Nat
  data : List Byte
  done : Nat
  outcome : Nat
deriving DecidableEq, Repr

/-- Coalescing state of a completion queue (R435): entries since the last message, the count at which the first of them was
posted, whether one of them had IMM. -/
structure CoalS where
  p : Nat := 0
  first : Nat := 0
  imm : Bool := false
deriving DecidableEq, Repr

/-- The host interface beside its registers. (DESIGN CHOICE, unsafe: log 100) -/
structure HifS where
  cmds : List InFlight := []
  seq : Nat := 0
  waiting : List WaitCpl := []
  coal : Tab CoalS := []
  valid : List Validated := []
  armed : List Armed := []
  mail : List Mail := []
  reported : List (Nat × Nat) := []
  bar4 : List Bar4Req := []
  rrNext : Nat := 0
  vfs : Nat := 0
  devEvt : Nat := 0
  bar4En : Bool := false
  subsys : Word := 0
  resetting : List Nat := []
  hstReset : Bool := false
  linkTrained : Bool := true
  crs : Bool := true
deriving DecidableEq, Repr

/-! ## Power and thermal -/

/-- What a domain's transition engine is carrying out (R451, R454, R457, R461). -/
inductive Trans where
  /-- Entering RET or OFF: tasks handed on, then the fence runs. -/
  | enter (st : Nat) (reason : Nat) (drain : Bool)
  /-- Waiting for a free power-switch step (R464). -/
  | waitSwitch
  /-- In the power-switch step (OFF only). -/
  | switching
  /-- Clearing memories (OFF only). -/
  | clearing
  /-- Generation check, reload and ready handshake. -/
  | returning (fromOff : Bool)
  /-- A compatibility wake waits for its exact start time. -/
  | compat
  /-- VDD_CORE is being raised for a faster point (R454 step 1). -/
  | raise (op : Nat)
  /-- The LDO is settling towards a point; `faster` says that the divider change follows. -/
  | ldo (op : Nat) (faster : Bool)
deriving DecidableEq, Repr

/-- A state request: state, DRAIN, reason, or a sector reset (R529). -/
structure StateReq where
  st : Nat
  drain : Bool
  reason : Nat
  reset : Bool
deriving DecidableEq, Repr

/-- A domain's transition engine beside its registers: what it carries out, the held requests (the operating point's shows
in PWR_DOMn_OP), whether the sector PLL is locking and whether SRC = 1 has been written since the wake began, whether the
wake is native, whether a wake follows (R528), and the state being left (R466). -/
structure DomS where
  trans : Option Trans := none
  held : Option StateReq := none
  pllWait : Bool := false
  clkAsked : Bool := false
  native : Bool := false
  thenWake : Bool := false
  left : Nat := 0
deriving DecidableEq, Repr

/-- A diode reading of the present round (R468): raw value in 1/16 °C, open, short; `bad`: at the last round the sensor, or
the substitute of a retired one, was faulty; `refresh2x` (of diodes 21 and 22): the nearer stack refreshes at twice its
normal rate (R560). -/
structure SensS where
  raw : BitVec 16 := 0
  isOpen : Bool := false
  isShort : Bool := false
  bad : Bool := false
  refresh2x : Bool := false
deriving DecidableEq, Repr

/-- The power and thermal blocks beside their registers: the level that is being entered and the one held, the diodes,
whether a trip has stopped the clocks of sectors and strips (R474), the count, with wraps, of the last residency tick. -/
structure PwrS where
  doms : Tab DomS := []
  levelTarget : Option Nat := none
  heldLevel : Option Nat := none
  sens : Tab SensS := []
  clocksStopped : Bool := false
  resAt : Option Nat := none
deriving DecidableEq, Repr

/-! ## Faults and the recorder -/

/-- The RAS record of a unit (R498, R501): state 0 active, 1 fenced, 2 returning, 3 retired;
the unit's generation and the shadow's. `mute`: what is being done to the unit now is not counted (1), and not recorded as a
fault either (2); 0 outside such a command. -/
structure UnitS where
  st : Nat := 0
  gen : Nat := 0
  shadowGen : Nat := 0
  kind : Nat := 0
  total : Nat := 0
  last : Nat := 0
  stamps : List Nat := []
  mute : Nat := 0
deriving DecidableEq, Repr

/-- An event of the recorder (R504): stamp (TIM_RAW), wrap count, type, unit, generation, code, argument. -/
structure SepEvent where
  time : Nat
  wrap : Nat
  type : Nat
  unit : Nat
  gen : Nat
  code : Nat
  arg : Nat
deriving DecidableEq, Repr

/-- A recorder entry: four words (R504). -/
abbrev SepEntry := Word × Word × Word × Word

/-- A requester's capture of the RAS query (R513): status, total, last stamp. -/
structure QCap where
  stat : Word := 0
  total : Word := 0
  last : Nat := 0
deriving DecidableEq, Repr

/-- A requester's capture of a recorder entry (R510). -/
structure SepCap where
  valid : Bool := false
  gone : Bool := false
  perr : Bool := false
  words : SepEntry := (0, 0, 0, 0)
deriving DecidableEq, Repr

/-- The RAS block and the recorder beside their registers. -/
structure RasS where
  units : Tab UnitS := []
  qcap : Tab QCap := []
  queue : List SepEvent := []
  entries : Tab SepEntry := []
  badEntries : Tab Bool := []
  dropSince : Nat := 0
  rdcap : Tab SepCap := []
  dumpCause : Nat := 0
  dumpStamp : Nat := 0
deriving DecidableEq, Repr

/-! ## Management access -/

/-- The management block beside its registers: the level of BOOT_SEL; the source the boot ROM tries (0 slot A, 1 slot B, 2 the
host); the image in the boot SRAM, once loaded from the host; ENEC; the address of the next I3C read; the level of ALERT_N, of
the GPIO pins, of PERST_N; the JTAG instruction (0 IDCODE, 1 BYPASS, 2 SAMPLE/PRELOAD, 3 EXTEST, 4 HIGHZ, 5 CLAMP, 6 EXTEST_PULSE, 7
EXTEST_TRAIN); the count at which a warm reset requested by MGMT comes; the writes that wait for
a sleeping domain, in the order of acceptance: the register's key and its value with the write in it (R517, R518). -/
structure MgtS where
  bootSel : Nat := 0
  bootTry : Nat := 0
  sram : List Byte := []
  i3cEvents : Bool := false
  i3cAddr : Nat := 0
  alertLow : Bool := false
  gpioIn : Nat := 0
  perstLow : Bool := false
  jtagIr : Nat := 0
  warmAt : Option Nat := none
  late : List (Nat × Word) := []
deriving DecidableEq, Repr

/-! ## Fabric -/

/-- A fence of one scope (R313): 0 OPEN, 1 NOTICE, 2 DRAINING, 3 FENCED. -/
structure FenceS where
  st : Nat := 0
  heldLift : Bool := false
deriving DecidableEq, Repr

/-- A line of a cache of the control region (R316): 0 I, 1 S, 2 E, 3 M, and its 64 bytes. -/
structure LineS where
  st : Nat := 0
  data : List Byte := []
deriving DecidableEq, Repr

/-- A flit that waits in a router's input buffer because its entry names an isolated port (R308): router, input port, class
(0 REQ, 1 WR, 2 RD, 3 RSP, 4 SNP), first flit of its packet, header, payload. -/
structure HeldFlit where
  router : Nat
  port : Nat
  cls : Nat
  first : Bool
  hdr : Nat
  payload : Nat
deriving DecidableEq, Repr

/-- The fabric beside its registers. Fences are keyed by the unit codes of R505; `routes`: the override tables;
`heldReq`: ports that the held route-around isolates (router · 16 + port); `late`: requests (source, tag) answered TIMEOUT
whose response may still come; `lines`: the caches of the control region; `hdrErrs`: counts, with wraps, of the last header
errors of a port; `probing`: does the packet in progress match a probe, by probe, class and VN; `dropping`: is the packet in
progress at an input dropped, by router, port, class and VN; `held`: flits that wait; `coh`: base and size in MiB of the control
region in force (R324). -/
structure NocS where
  fences : Tab FenceS := []
  routes : Tab Nat := []
  heldReq : List Nat := []
  late : List (Nat × Nat) := []
  lines : Tab LineS := []
  hdrErrs : Tab (List Nat) := []
  probing : Tab Bool := []
  dropping : Tab Bool := []
  held : List HeldFlit := []
  coh : Nat × Nat := (0x7FC0, 0x40)
deriving DecidableEq, Repr

/-! ## Ochre link -/

/-- A section or missing header in a lane's egress queue (R372): its transmit time, its stream within the bundle, its
slot number, whether it is a missing header, its format, its bytes on the lane. -/
structure EgItem where
  t : Nat
  stream : Nat
  slot : Nat
  missing : Bool
  fmt : Nat
  bytes : List Byte
deriving DecidableEq, Repr

/-- A receive stream bound to an INGRESS buffer (R57, R368, R370): the palette and the buffer, the slot number, the
buffer's first stream, its address, EXPECT, the offset of its presence map, the receive entry as sampled, whether it is
closed, and the sections placed through it. -/
structure RxBind where
  pal : Nat
  buf : Nat
  slot : Nat
  first : Nat
  addr : Nat
  expect : Nat
  pres : Nat
  cfg : Word
  layout : Word
  tdoff : Word
  headLayout : Word
  closed : Bool
  count : Nat
  start : Nat
  period : Nat
deriving DecidableEq, Repr

/-- An EGRESS buffer bound to its streams (R57, R372): the palette, the timeline and the buffer, the slot number, the transmit time,
the device-wide first stream, the number of streams, the address, the transmit entries as sampled, whether the
buffer has been committed. -/
structure TxBind where
  pal : Nat
  tl : Nat
  buf : Nat
  slot : Nat
  t : Nat
  first : Nat
  n : Nat
  addr : Nat
  layout : Word
  cfgs : List Word
  committed : Bool
deriving DecidableEq, Repr

/-- A read of a section image that the link layer has issued (R372): device-wide stream, its transmit entry, where,
how long, the transmit time and the slot. -/
structure EgRead where
  stream : Nat
  cfg : Word
  addr : Nat
  len : Nat
  t : Nat
  slot : Nat
deriving DecidableEq, Repr

/-- A frame's section or message that has been received and not handled yet: the frame's TYPE and NSEC, its stamp, its SEQ,
and the bytes. -/
structure RxItem where
  type : Nat
  nsec : Nat
  stamp : Nat
  seq : Nat
  bytes : List Byte
deriving DecidableEq, Repr

/-- A lane beside its registers. Counts with wraps: `attempt`, the start of the attempt timer; `backoff`, the end of the
backoff; `absentAt`, the last attempt from ABSENT. `fromAbsent`: the attempt was made in ABSENT. `valid`: consecutive valid
headers before lock. `window`: for the last 64 headers after lock, newest first, whether each was invalid. `rxScr`: the last
58 received payload bits. `trn`: the training message last received and not handled, with its block payload. `capsOk`,
`ackIn`: the partner's CAPS accepted, its ACK received. `txSeq`, `rxSeq`: next sequence number to send, expected one.
`good`, `bad`: consecutive good frames, consecutive frames without a valid header. `msgs`: control messages waiting, with
whether they are urgent. `sinceCtrl`: frames since the last CTRL frame of other messages. `egress`: the egress queue.
`lastBit`: the last bit sent. `tsreq`: the next frame is to be stamped. Then the injections of R381, and what received
frames carried. -/
structure LaneS where
  attempt : Nat := 0
  fromAbsent : Bool := false
  backoff : Nat := 0
  absentAt : Nat := 0
  valid : Nat := 0
  window : List Bool := []
  rxScr : Nat := 0
  trn : Option (Nat × Nat) := none
  capsOk : Bool := false
  ackIn : Bool := false
  txSeq : Nat := 0
  rxSeq : Nat := 0
  good : Nat := 0
  bad : Nat := 0
  msgs : List (Bool × List Byte) := []
  sinceCtrl : Nat := 3
  egress : List EgItem := []
  lastBit : Bool := false
  tsreq : Bool := false
  injBit : Bool := false
  injCrc : Bool := false
  injHdr : Nat := 0
  rxMsgs : List RxItem := []
  rxSecs : List RxItem := []
deriving DecidableEq, Repr

/-- A bundle beside its registers (R374, R375, R377): the next MID; the MIDs last accepted, by TYPE; the transmit-stamp
queue (identifier, stamp); its own SWITCH or REVERT that awaits its acknowledgement (bytes, first and last sending, as
counts with wraps); the lane of the partner's last refused request; whether the spare has lost lock while it carried a
lane. -/
structure BundleS where
  mid : Nat := 0
  seen : List (Nat × Nat) := []
  txts : List (Nat × Nat) := []
  own : Option (List Byte × Nat × Nat) := none
  partner : Option Nat := none
  spareLost : Bool := false
deriving DecidableEq, Repr

/-- The link layers beside their registers. -/
structure LnkS where
  lanes : Tab LaneS := []
  bundles : Tab BundleS := []
  rx : Tab (List RxBind) := []
  tx : List TxBind := []
  reads : List EgRead := []
  tdNext : Tab (Option Nat) := []
deriving DecidableEq, Repr

/-! ## Signal engines -/

/-- State of CP0 (R214, R218): CM0 to CM15, the 32 lanes of 40 bits of MA, CMCTL, CMSIG, CMSTAT. (DESIGN CHOICE, unsafe: log 99) -/
structure Cp0S where
  cm : List (BitVec 512) := List.replicate 16 0
  ma : BitVec 1280 := 0
  ctl : Word := 0
  sigma : Word := 0
  stat : Word := 0
deriving DecidableEq, Repr

/-- State of CP1 (R219, R220, R223): BCRCCFG, the raw CRC state, BSEQX1, BSEQX2, BSTAT. -/
structure Cp1S where
  cfg : Word := 0
  crc : Word := 0
  x1 : Word := 1
  x2 : Word := 0
  stat : Word := 0
deriving DecidableEq, Repr

/-- An engine's context in CP3 (R229): DMCFG, DMSCALE, DMREF, DMSTAT. -/
structure Cp3S where
  cfg : Word := 0x7F02
  scale : Word := 0x100
  ref : Word := 0
  stat : Word := 0
deriving DecidableEq, Repr

/-- What a write in flight will change (R94): a scalar register by its number S, a physical vector register, a predicate,
an accumulator as its readers see it, a special register, the sticky flags of a special register, or nothing but the
moment at which ACCOV falls due (R132). -/
inductive EDst where
  | s (r : Nat) | v (k : Nat) | p (n : Nat) | acc (n : Nat) | sr (n : Nat) | flag (n : Nat) | accov
deriving DecidableEq, Repr

/-- A write in flight: issue cycles until it lands, its place, the bits it writes and their values, the beats of its
instruction, whether it has stayed in a protected stretch (R96). -/
structure InFl where
  left : Nat
  dst : EDst
  mask : Nat
  val : Nat
  beats : Nat := 1
  prot : Bool := true
deriving DecidableEq, Repr

/-- The slot B instruction of the bundle that is being formed: UNDEF at decode or issue, whether the slot is not NOP, the
writes it will have in flight, the new value of an accumulator as MACs see it, the coprocessor states it leads to, a CPSAVE
or CPLOAD (R177) with its bytes to store and its fault, a DMAP that goes to CP3 (R225). -/
structure SlotB where
  undef : Bool := false
  busy : Bool := true
  fl : List InFl := []
  acc : Option (Nat × BitVec 2560) := none
  cp0 : Option Cp0S := none
  cp1 : Option Cp1S := none
  cp3 : Option Cp3S := none
  image : Bool := false
  store : List (Nat × List Byte) := []
  flt : Option (Nat × Nat) := none
  dmap : Bool := false
deriving DecidableEq, Repr

/-- An element of a vector access: its index, the physical register and byte offset it occupies, the local addresses of its
bytes. -/
structure VElem where
  idx : Nat
  reg : Nat
  off : Nat
  addrs : List Nat
deriving DecidableEq, Repr

/-- What a load does when its data have arrived: a scalar load by size code and destination, or a vector load: its
elements, the latency of each register, beats, predicate to cut and element size for a first-faulting form. -/
inductive LoadOp where
  | scal (sz rt : Nat) (addr : Nat)
  | vec (elems : List VElem) (lats : List (Nat × Nat)) (beats : Nat) (ff : Option (Nat × Nat))
deriving DecidableEq, Repr

/-- A bundle frozen at E1 by a load from tile memory or a window (R106): what the load does, the update of An (its number S
and value), the requests not yet answered (local address, device address, length, window or not), the bytes that have
arrived by local address, the local ranges answered with an error. -/
structure Frozen where
  op : LoadOp
  upd : Option (Nat × Nat)
  reqs : List (Nat × Nat × Nat × Bool)
  got : List (Nat × Byte)
  bad : List (Nat × Nat)
deriving DecidableEq, Repr

/-- An exception or interrupt that has been taken and whose handler has not been entered (R119, R565). -/
structure EExc where
  code : Nat
  imprecise : Bool
  epc : Nat
  eaddr : Option Nat
deriving DecidableEq, Repr

/-- A store that awaits its response (R106): the number of its instruction, local
address, device address, bytes, window or not. -/
structure EStore where
  seq : Nat
  addr : Nat
  dev : Nat
  data : List Byte
  win : Bool
deriving DecidableEq, Repr

/-- A signal engine. `st`: code of TSU_ENG_STATE. `task`: key of the task on it. `run`: a task's code runs, so bundles may
issue. `early`: engine code has not written ESTAT since task entry (R123). `ended`: TEND has issued. `image`, `size`: device
address and size of the loaded program image. `scal`: G, A and M registers by S (R179). `acc`: accumulators as their
readers see them; `accN`: as the next MAC sees them. `sr`: special registers by number (R140). `cycHi`, `timHi`: holding copies
of ECYC_HI and ETIME_HI (R15). `fl`: writes in flight, in program order. `impAcc`: address of a store whose error response waits for a
bundle boundary; `accov`: address of a MAC's bundle whose ACCOV is due. `cp0N` and the like: the state a coprocessor will
have when its confirmed instructions end. `base`: number of the first store of the task on it. `badStore`: last store instruction that has raised its imprecise ACCESS. `fault`: a fault
the engine has found and not yet reported: kind, site, address. (DESIGN CHOICE, unsafe: log 99) -/
structure EngS where
  st : Nat := 0
  task : Option Nat := none
  run : Bool := false
  halt : Bool := false
  early : Bool := false
  ended : Bool := false
  image : Option Nat := none
  size : Nat := 0
  func : Nat := 0
  pc : Nat := 0
  scal : List Word := List.replicate 64 0
  vec : List (BitVec 4096) := List.replicate 32 0
  pred : List (BitVec 512) := List.replicate 8 0
  acc : List (BitVec 2560) := List.replicate 4 0
  accN : List (BitVec 2560) := List.replicate 4 0
  sr : List Word := List.replicate 80 0
  cycHi : Option Word := none
  timHi : Option Word := none
  fl : List InFl := []
  slotB : Option SlotB := none
  frozen : Option Frozen := none
  exc : Option EExc := none
  impAcc : Option Nat := none
  accov : Option Nat := none
  stores : List EStore := []
  seq : Nat := 0
  base : Nat := 0
  badSeq : Option Nat := none
  storeErr : Bool := false
  grant : Bool := false
  cp0 : Cp0S := {}
  cp0N : Option Cp0S := none
  cp1 : Cp1S := {}
  cp1N : Option Cp1S := none
  cp3 : Cp3S := {}
  cp3N : Option Cp3S := none
  fault : Option (Nat × Nat × Nat) := none
deriving DecidableEq, Repr

/-- The CP3 of a tile (R225): the engine whose DMAP keeps it busy, the last engine it accepted. -/
structure Cp3U where
  busy : Option Nat := none
  last : Nat := 7
deriving DecidableEq, Repr

/-! ## Jobs of the strips -/

/-- Where a job stands (R239). `reading` stage 0: the HARQ header, 1: the committed slot, 2: the input. `work`: everything has
been read. `writing`: its first write is outstanding. `record`: its completion record is outstanding. -/
inductive JPhase where
  | queued | reading (stage : Nat) | work | writing | record
deriving DecidableEq, Repr

/-- An accepted job. `kind`: 1 LDPC decode, 2 LDPC encode, 3 polar decode, 4 turbo decode, 6 FFT. `eng`: the engine that
posted it, if one did; `func`: the function of its poster. `unit`: the unit it runs on, by its index within strip and kind;
`reads`, `got`: requests of the stage not yet answered, bytes that have arrived. `slot`: address of the working slot; `stamp`:
CSLOT and CTASK; `comm`: the committed slot's address, then its bytes when they are used; `writes`: writes not yet answered. Then
what its record will say. -/
structure JobS where
  id : Nat
  q : Nat
  kind : Nat
  eng : Option Nat
  func : Nat
  desc : BitVec 512
  phase : JPhase := .queued
  unit : Option Nat := none
  ran : Option Nat := none
  replayed : Bool := false
  cancelled : Bool := false
  reads : List (Nat × Nat) := []
  got : List Byte := []
  slot : Nat := 0
  comm : Nat := 0
  stamp : Nat × Nat := (0, 0)
  head : List Byte := []
  soft : Option (List Byte) := none
  writes : List (Nat × List Byte) := []
  status : Nat := 0
  crcOk : Bool := false
  et : Bool := false
  syn : Bool := false
  stale : Bool := false
  newbuf : Bool := false
  iter : Nat := 0
  aux : Nat := 0
deriving DecidableEq, Repr

/-- The jobs accepted and not finished, in order of acceptance, and the number of the next one. -/
structure JobT where
  list : List JobS := []
  next : Nat := 0
deriving DecidableEq, Repr

/-! ## Carrier extraction units -/

/-- A complex sample and whether it comes from a substituted input (R267). -/
structure CxSmp where
  re : Int
  im : Int
  gap : Bool
deriving DecidableEq, Repr

/-- An input sample that waits (R265, R266): its frame's stamp in Tc/64, how many samples it stands before the section's first
sample (substituted ones, R371), whether it is the first of its frame. -/
structure CxIn where
  x : CxSmp
  stamp : Nat
  back : Nat
  first : Bool
deriving DecidableEq, Repr

/-- The block in progress: samples so far, its stamp, PARTIAL, flags in place (bits 11 to 17 of word 0x0C), the samples
themselves for STEER. -/
structure CxBlk where
  n : Nat := 0
  stamp : Nat := 0
  part : Nat := 0
  fade : Bool := false
  sat : Bool := false
  gap : Bool := false
  bank : Nat := 0
  slip : Bool := false
  data : List Byte := []
deriving DecidableEq, Repr

/-- A CXU beside its registers. `ctl` to `outCfg`: the registers sampled at enable (R284). `queue`: inputs not yet processed.
`syncGo`, `tlSyncs`: a SYNC pending at the next input sample, timeline boundaries whose SYNC is pending. `stop`: EN has gone to
0. `time`: running input time in Tc/192 modulo 3·2^54 of the next sample, once known. `n`, `h0`, `u`, `j`: inputs of the chain, the
second half-band stage, the FIR, and FIR outputs since the SYNC. `d0`, `d1`, `fir`: delay lines, newest first. `fadeI`,
`fadeLog`: progress and length of a fade. `left`: partial outputs still to come. `outN`: outputs written since enable.
`satNext`, `gapNext`, `slipNext`: flags for the block that receives the next output. `hdrs`: headers that wait for their samples'
responses. `restart`: the unit starts again after a fault. -/
structure CxuS where
  ctl : Word := 0
  src : Nat := 0
  iper : Nat := 0
  dec : Word := 0
  out : Nat := 0
  hdr : Nat := 0
  outCfg : Word := 0
  queue : List CxIn := []
  syncGo : Bool := false
  tlSyncs : List Nat := []
  stop : Bool := false
  time : Option Nat := none
  acc : Word := 0
  n : Nat := 0
  h0 : Nat := 0
  u : Nat := 0
  j : Nat := 0
  d0 : List CxSmp := []
  d1 : List CxSmp := []
  fir : List CxSmp := []
  fadeI : Nat := 0
  fadeLog : Nat := 0
  left : Nat := 0
  outN : Nat := 0
  satNext : Bool := false
  gapNext : Bool := false
  slipNext : Bool := false
  blk : CxBlk := {}
  hdrs : List (Nat × List Byte) := []
  pwrSum : Nat := 0
  pwrN : Nat := 0
deriving DecidableEq, Repr

/-! ## DMA channels -/

/-- A DMA channel beside its registers. `crc`, `poly`: running CRC and polynomial (7 none). `rdOff`, `wrOff`: bytes of the
transfer whose read, write has been issued; `total`: bytes to write, an appended CRC among them. `reads`, `writes`: accesses not
answered, by offset; `data`: bytes that have arrived and await their write. `wDone`: offset below which every write has been
answered. `active`: the descriptor or transfer has accesses to make. `fetch`: a descriptor read is outstanding. `next`: NEXT of the
descriptor in progress; `descHost`: that descriptor lies in host space. `wb`: the write-back of the
descriptor is outstanding. `stored`: a CRC was stored for the descriptor. `burst`, `bursts`: bytes left of the burst, bursts
since START. `stopAt`: stop at the next descriptor boundary (R347). -/
structure ChS where
  crc : Nat := 0
  poly : Nat := 7
  rdOff : Nat := 0
  wrOff : Nat := 0
  total : Nat := 0
  reads : List (Nat × Nat) := []
  data : List Byte := []
  writes : List (Nat × List Byte) := []
  wDone : Nat := 0
  fetch : Bool := false
  next : Nat := 0
  descHost : Bool := false
  wb : Bool := false
  stored : Bool := false
  active : Bool := false
  burst : Nat := 0
  bursts : Nat := 0
  stopAt : Bool := false
deriving DecidableEq, Repr

/-! ## The machine -/

/-- The state of the block. -/
structure State where
  /-- Commands waiting, first in first out. -/
  pending : List Instr := []
  /-- The model's own: how many free values have been used. (DESIGN CHOICE, safe: log 8) -/
  fresh : Nat := 0
  /-- What the block has shown the outside, newest first. -/
  out : List Out := []
  /-- The register space (R43), keyed function · 2^25 + BAR0 offset; shared registers at function 0. -/
  regs : Tab Word := []
  /-- Holding copies of R15 pairs: read side, keyed by requester. -/
  holdR : Tab (Option Word) := []
  /-- Holding copies of R15 pairs: write side. -/
  holdW : Tab (Option Word) := []
  /-- Device memory, bytes by device address. (DESIGN CHOICE, unsafe: log 4) -/
  mem : Tab Byte := []
  /-- Host memory, bytes by PCIe address. (DESIGN CHOICE, unsafe: log 4) -/
  hostMem : Tab Byte := []
  /-- Boot flash. (DESIGN CHOICE, unsafe: log 4) -/
  flash : Tab Byte := []
  /-- Bytes of device memory that read with an error: 1 parity (sideband parity in HBM), 2 uncorrectable array error; 4 more
  when the error has been counted against its tile. -/
  damaged : Tab Nat := []
  tim : TimS := {}
  tln : TlnS := {}
  hif : HifS := {}
  pwr : PwrS := {}
  ras : RasS := {}
  mgt : MgtS := {}
  noc : NocS := {}
  lnk : LnkS := {}
  /-- The signal engines, by number. -/
  eng : Tab EngS := []
  /-- The shared demappers, by tile. -/
  cp3 : Tab Cp3U := []
  /-- Jobs of the coding and FFT units. -/
  job : JobT := {}
  /-- The carrier extraction units, by number. -/
  cxu : Tab CxuS := []
  /-- The DMA channels, by number. -/
  dma : Tab ChS := []
deriving DecidableEq, Repr

/-- The machine right after reset: every register at the value of its map, memories and queues empty.
(DESIGN CHOICE, unsafe: log 98, 100) -/
def State.reset : State := {}

end Sys2Proof.Machine
end

