-- ==== Sys2Proof/Machine/Tab.lean ====
section
/-! DEFINITION. Reading and writing sparse tables. Every addressed store of the machine (registers, memories, units
by number) is one: unlisted keys hold a default, and writing the default removes the entry. -/

namespace Sys2Proof.Machine

/-- The value at a key; `d` gives the value of unlisted keys. -/
def Tab.get {α : Type} (d : Nat → α) : Tab α → Nat → α
  | [], k => d k
  | (k', v) :: t, k => if k' = k then v else Tab.get d t k

/-- Puts a value at its place among rising keys. -/
def Tab.ins {α : Type} (k : Nat) (v : α) : Tab α → Tab α
  | [] => [(k, v)]
  | (k', v') :: t =>
    if k < k' then (k, v) :: (k', v') :: t
    else if k' = k then (k, v) :: t
    else (k', v') :: Tab.ins k v t

/-- Drops a key. -/
def Tab.del {α : Type} (k : Nat) : Tab α → Tab α
  | [] => []
  | (k', v') :: t => if k' = k then Tab.del k t else (k', v') :: Tab.del k t

/-- Writes a key. -/
def Tab.put {α : Type} [DecidableEq α] (d : Nat → α) (t : Tab α) (k : Nat) (v : α) : Tab α :=
  if v = d k then Tab.del k t else Tab.ins k v t

/-- Changes the value at a key. -/
def Tab.upd {α : Type} [DecidableEq α] (d : Nat → α) (t : Tab α) (k : Nat) (f : α → α) : Tab α :=
  Tab.put d t k (f (Tab.get d t k))

/-- Do all keys of a table lie above `k`? -/
def Tab.above {α : Type} (k : Nat) : Tab α → Bool
  | [] => true
  | (k', _) :: t => decide (k < k') && Tab.above k t

/-- Canonical form: keys rise strictly, and no entry holds its key's default. -/
def Tab.wf {α : Type} [DecidableEq α] (d : Nat → α) : Tab α → Bool
  | [] => true
  | (k, v) :: t => decide (v ≠ d k) && Tab.above k t && Tab.wf d t

end Sys2Proof.Machine
end

