-- ==== Sys2Proof/Machine/Ops.lean ====
section
/-! DEFINITION. The named operations over registers, memories, free values and outputs that every block uses. -/

namespace Sys2Proof.Machine

/-- What a meaning answers. -/
abbrev Res := Host.Outcome State Fault Refusal

/-! ## Bits and bytes -/

/-- Field `f` of a word, as a number. -/
def getF (w : Word) (f : Fld) : Nat := w.toNat / 2 ^ f.lo % 2 ^ f.width

/-- Word `w` with field `f` set to the low bits of `v`. -/
def putF (w : Word) (f : Fld) (v : Nat) : Word :=
  let m : Word := BitVec.ofNat 32 ((2 ^ f.width - 1) * 2 ^ f.lo)
  (w &&& ~~~m) ||| (BitVec.ofNat 32 (v * 2 ^ f.lo) &&& m)

/-- Bits [lo + n − 1 : lo] of a number. -/
def bits (v lo n : Nat) : Nat := v / 2 ^ lo % 2 ^ n

/-- Bit `i` of a number. -/
def bitAt (v i : Nat) : Bool := v / 2 ^ i % 2 = 1

/-- A number as a signed number of `n` bits. -/
def sgn (n v : Nat) : Int := if v % 2 ^ n < 2 ^ (n - 1) then (v % 2 ^ n : Nat) else (v % 2 ^ n : Nat) - (2 ^ n : Nat)

/-- An integer modulo 2^n. -/
def wrapN (n : Nat) (v : Int) : Nat := (v % (2 ^ n : Nat)).toNat

/-- Little-endian value of bytes. -/
def leNat : List Byte → Nat
  | [] => 0
  | b :: bs => b.toNat + 256 * leNat bs

/-- The low `n` bytes of a number, little-endian. -/
def leBytes : Nat → Nat → List Byte
  | 0, _ => []
  | n + 1, v => BitVec.ofNat 8 v :: leBytes n (v / 256)

/-- Four bytes at offset `o` of a byte list, little-endian. -/
def leAt (bs : List Byte) (o n : Nat) : Nat := leNat ((bs.drop o).take n)

/-- Number of set bits among the low `n`. -/
def popc : Nat → Nat → Nat
  | 0, _ => 0
  | n + 1, v => v % 2 + popc n (v / 2)

/-- The least index below `n` from `i` on that satisfies `p`. -/
def firstFrom (p : Nat → Bool) : Nat → Nat → Option Nat
  | 0, _ => none
  | n + 1, i => if p i then some i else firstFrom p n (i + 1)

/-- The indices below `n`. -/
abbrev upto (n : Nat) : List Nat := List.range n

/-! ## Registers -/

/-- Key of function `f`'s own copy of the register at BAR0 offset `a`. -/
def fnKey (f a : Nat) : Nat := f * 0x2000000 + a

/-- Current value of a register. -/
def rd (s : State) (a : Nat) : Word := Tab.get regReset s.regs a

/-- Sets a register. -/
def wr (s : State) (a : Nat) (v : Word) : State := { s with regs := Tab.put regReset s.regs a v }

/-- A field of a register. -/
def fld (s : State) (a : Nat) (f : Fld) : Nat := getF (rd s a) f

/-- Is a one-bit field set? -/
def isSet (s : State) (a : Nat) (f : Fld) : Bool := fld s a f ≠ 0

/-- Sets a field of a register. -/
def setFld (s : State) (a : Nat) (f : Fld) (v : Nat) : State := wr s a (putF (rd s a) f v)

/-- Counts an event in a counter that wraps modulo 2^32. -/
def inc (s : State) (a : Nat) : State := wr s a (rd s a + 1)

/-- Adds to a counter. -/
def addCnt (s : State) (a n : Nat) : State := wr s a (rd s a + BitVec.ofNat 32 n)

/-- Counts an event in a field that wraps. -/
def incFld (s : State) (a : Nat) (f : Fld) : State := setFld s a f (fld s a f + 1)

/-- Sets an event bit. -/
def evt (s : State) (a : Nat) (f : Fld) : State := setFld s a f 1

/-- The value of a register pair. -/
def rd64 (s : State) (lo : Nat) : Nat := (rd s lo).toNat + 2 ^ 32 * (rd s (lo + 4)).toNat

/-- Sets a register pair. -/
def wr64 (s : State) (lo v : Nat) : State :=
  wr (wr s lo (BitVec.ofNat 32 v)) (lo + 4) (BitVec.ofNat 32 (v / 2 ^ 32))

/-- Puts the registers between two offsets back to their reset values, as a reset does. -/
def resetRange (s : State) (lo hi : Nat) : State :=
  { s with regs := s.regs.filter fun e => decide (e.1 < lo) || decide (hi ≤ e.1) }

/-- Puts one register back to its reset value. -/
def resetReg (s : State) (a : Nat) : State := wr s a (regReset a)

/-! ## Free values -/

/-- A fresh free value of `w` bits and the state that has used it. (DESIGN CHOICE, safe: log 8) -/
def free (w : Nat) (s : State) : Nat × State :=
  ((Config.free w s.fresh).toNat, { s with fresh := s.fresh + 1 })

/-- A fresh free truth value. (DESIGN CHOICE, safe: log 8) -/
def freeBool (s : State) : Bool × State := let (v, s) := free 1 s; (v = 1, s)

/-- A fresh free number below `n` (0 when `n` is 0). (DESIGN CHOICE, safe: log 8) -/
def freeBelow (n : Nat) (s : State) : Nat × State := let (v, s) := free 64 s; (v % n, s)

/-! ## Signal engines -/

/-- State of an engine. -/
def eng (s : State) (e : Nat) : EngS := Tab.get (fun _ => {}) s.eng e

/-- Sets the state of an engine. -/
def setEng (s : State) (e : Nat) (x : EngS) : State := { s with eng := Tab.put (fun _ => {}) s.eng e x }

/-- Changes the state of an engine. -/
def updEng (s : State) (e : Nat) (g : EngS → EngS) : State := setEng s e (g (eng s e))

/-! ## Outputs -/

/-- Shows something to the outside. -/
def emit (s : State) (o : Out) : State := { s with out := o :: s.out }

/-! ## Memories -/

/-- What a byte nothing has written reads as. -/
abbrev byte0 : Nat → Byte := fun _ => 0

/-- Memory in canonical form. -/
def Memory.wf (m : Tab Byte) : Bool := Tab.wf byte0 m

/-- One byte of a memory. (DESIGN CHOICE, unsafe: log 4) -/
def memGet (m : Tab Byte) (a : Nat) : Byte := Tab.get byte0 m a

/-- Writes one byte. -/
def memPut (m : Tab Byte) (a : Nat) (b : Byte) : Tab Byte := Tab.put byte0 m a b

/-- `n` bytes from `a`. -/
def memGetN (m : Tab Byte) (a n : Nat) : List Byte := (upto n).map fun i => memGet m (a + i)

/-- Writes bytes from `a` on. -/
def memPutN (m : Tab Byte) (a : Nat) : List Byte → Tab Byte
  | [] => m
  | b :: bs => memPutN (memPut m a b) (a + 1) bs

/-- Reads device memory, with no check. -/
def loadN (s : State) (a n : Nat) : List Byte := memGetN s.mem a n

/-- A little-endian number of device memory. -/
def loadLE (s : State) (a n : Nat) : Nat := leNat (loadN s a n)

/-- Does any of `n` bytes from `a` read with an error? -/
def damagedIn (s : State) (a n : Nat) : Bool := s.damaged.any fun e => decide (a ≤ e.1) && decide (e.1 < a + n)

/-- Writes device memory, with no check; written bytes carry good protection codes. -/
def storeN (s : State) (a : Nat) (bs : List Byte) : State :=
  { s with
    mem := memPutN s.mem a bs
    damaged := s.damaged.filter fun e => !(decide (a ≤ e.1) && decide (e.1 < a + bs.length)) }

/-- Writes a little-endian number of `n` bytes to device memory. -/
def storeLE (s : State) (a n v : Nat) : State := storeN s a (leBytes n v)

/-- Marks bytes of device memory as reading with an error of a kind. -/
def damage (s : State) (a n kind : Nat) : State :=
  { s with damaged := (upto n).foldl (fun t i => Tab.put (fun _ => 0) t (a + i) kind) s.damaged }

/-- Clears device memory between two addresses. -/
def clearMem (s : State) (lo hi : Nat) : State :=
  { s with
    mem := s.mem.filter fun e => decide (e.1 < lo) || decide (hi ≤ e.1)
    damaged := s.damaged.filter fun e => decide (e.1 < lo) || decide (hi ≤ e.1) }

/-- Reads host memory. -/
def hostLoad (s : State) (a n : Nat) : List Byte := memGetN s.hostMem a n

/-- Writes host memory. -/
def hostStore (s : State) (a : Nat) (bs : List Byte) : State := { s with hostMem := memPutN s.hostMem a bs }

/-! ## Time (R49, R384) -/

/-- TIM_RAW. -/
def raw (s : State) : Nat := s.tim.raw.toNat

/-- TIM_RAW with its wraps: Tc since it began to count. -/
def rawTotal (s : State) : Nat := (rd s Reg.TIM_WRAP_CNT).toNat * 2 ^ 48 + raw s

/-- Has a count reached a target (R49): their difference, as a signed 48-bit number, is zero or positive. -/
def reached (now tgt : Nat) : Bool := (now + 2 ^ 48 - tgt % 2 ^ 48) % 2 ^ 48 < 2 ^ 47

/-- Count `a` minus count `b`, as a signed 48-bit number. -/
def dist (a b : Nat) : Int := sgn 48 (a + 2 ^ 48 - b % 2 ^ 48)

/-! ## The recorder's queue (R506, R507) -/

/-- Power-on raw count at which an event is stamped, and the unit's generation, go into the entry (R504). -/
def sepMake (s : State) (type unit code arg : Nat) : SepEvent :=
  { time := raw s, wrap := (rd s Reg.TIM_WRAP_CNT).toNat % 256, type := type, unit := unit,
    gen := (Tab.get (fun _ => ({} : UnitS)) s.ras.units unit).gen, code := code, arg := arg }

/-- An event reaches the recorder: it joins the queue of 64, of which four are kept for FATAL events. It is dropped and
counted when the queue is full, when the recorder is frozen (R508) and when SEP_CTL.EN is 0 (R514). (DEDUCED, unsafe: log 17) -/
def sep (s : State) (type unit code arg : Nat) : State :=
  if isSet s Reg.SEP_STAT F.SEP_STAT_FROZEN || !isSet s Reg.SEP_CTL F.SEP_CTL_EN then inc s Reg.SEP_DROP_CNT
  else if s.ras.queue.length < (if type = 0x13 then 64 else 60) then
    { s with ras := { s.ras with queue := s.ras.queue ++ [sepMake s type unit code arg] } }
  else
    let s := inc s Reg.SEP_DROP_CNT
    { s with ras := { s.ras with dropSince := s.ras.dropSince + 1 } }

/-- A FATAL event of a cause (R508). -/
def fatal (s : State) (cause : Nat) : State := sep s 0x13 0 cause 0

/-! ## MSI-X (R435, R436) -/

/-- Table size of a function. -/
def msixSize (s : State) (f : Nat) : Nat :=
  if f = 0 then (if bitAt (rd s (fnKey 0 (Reg.DRV_SWATCH 0))).toNat 9 && isSet s Reg.SWATCH_STAT F.SWATCH_STAT_ACCEPTED
    then 2048 else 256) else 64

/-- A message on a vector: it goes out, or waits in the pending bit of a masked vector. A vector beyond the table sends
nothing. (DESIGN CHOICE, unsafe: log 16; DEDUCED, unsafe: log 77) -/
def msixSend (s : State) (f v : Nat) : State :=
  if msixSize s f ≤ v then s
  else if isSet s (fnKey f (Reg.MSIX_VCTL v)) F.MSIX_VCTL_MASK then
    let a := fnKey f (Reg.MSIX_PBA (v / 32))
    wr s a (rd s a ||| BitVec.ofNat 32 (2 ^ (v % 32)))
  else if s.hif.linkTrained then emit s (.msix f v (rd64 s (fnKey f (Reg.MSIX_ADDR_LO v))) (rd s (fnKey f (Reg.MSIX_DATA v))))
  else s

/-- An event of a function's HIF block; a bit that becomes set while enabled signals HIF_EVT_VEC (R436).
(DESIGN CHOICE, unsafe: log 16) -/
def hifEvt (s : State) (f : Nat) (b : Fld) : State :=
  let a := fnKey f Reg.HIF_EVT
  let was := isSet s a b
  let s := evt s a b
  let vec := fnKey f Reg.HIF_EVT_VEC
  if !was && isSet s (fnKey f Reg.HIF_EVT_EN) b && isSet s vec F.HIF_EVT_VEC_EN then
    msixSend s f (fld s vec F.HIF_EVT_VEC_VECTOR) else s

end Sys2Proof.Machine
end

