-- ==== Sys2Proof/Machine/Crc.lean ====
section
/-! DEFINITION. The CRCs of the device (R219, R357) and the additive frame scrambler (R355). -/

namespace Sys2Proof.Machine

/-- Width, generator (without its leading term) of the polynomials of R219: 0 to 2 CRC-24A to C, 3 CRC-16, 4 CRC-11, 5 CRC-6,
6 CRC-32C in reflected form. The 3GPP generators are those of TS 38.212 5.1, which R219 names (PRESUMED: log 5).
(PRESUMED, unsafe: log 5) -/
def crcPoly (p : Nat) : Nat × Nat :=
  match p with
  | 0 => (24, 0x864CFB)
  | 1 => (24, 0x800063)
  | 2 => (24, 0xB2B117)
  | 3 => (16, 0x1021)
  | 4 => (11, 0x621)
  | 5 => (6, 0x21)
  | _ => (32, 0x82F63B78)

/-- Initial state of a polynomial. -/
def crcInit (p : Nat) : Nat := if p = 6 then 0xFFFFFFFF else 0

/-- One bit into a CRC taken most significant bit first. -/
def crcBitMsb (w g st : Nat) (b : Bool) : Nat :=
  let top := bitAt st (w - 1)
  let sh := st * 2 % 2 ^ w
  if top ≠ b then sh ^^^ g else sh

/-- One bit into a reflected CRC. -/
def crcBitLsb (g st : Nat) (b : Bool) : Nat :=
  let sh := st / 2
  if bitAt st 0 ≠ b then sh ^^^ g else sh

/-- One bit into the running state of polynomial `p`. -/
def crcBit (p st : Nat) (b : Bool) : Nat :=
  if p = 6 then crcBitLsb (crcPoly 6).2 st b else crcBitMsb (crcPoly p).1 (crcPoly p).2 st b

/-- The bits of a byte, most significant first. -/
def bitsMsb (b : Byte) : List Bool := [b.getLsbD 7, b.getLsbD 6, b.getLsbD 5, b.getLsbD 4, b.getLsbD 3, b.getLsbD 2,
  b.getLsbD 1, b.getLsbD 0]

/-- The bits of a byte, least significant first. -/
def bitsLsb (b : Byte) : List Bool := [b.getLsbD 0, b.getLsbD 1, b.getLsbD 2, b.getLsbD 3, b.getLsbD 4, b.getLsbD 5,
  b.getLsbD 6, b.getLsbD 7]

/-- Bytes into the running state: bit 7 of each byte first, but bit 0 first for CRC-32C (R219). -/
def crcBytes (p st : Nat) (bs : List Byte) : Nat :=
  bs.foldl (fun st b => (if p = 6 then bitsLsb b else bitsMsb b).foldl (crcBit p) st) st

/-- What a read of the running CRC returns (R219). -/
def crcRead (p st : Nat) : Nat := if p = 6 then st ^^^ 0xFFFFFFFF else st

/-- CRC of a byte string. -/
def crcOf (p : Nat) (bs : List Byte) : Nat := crcRead p (crcBytes p (crcInit p) bs)

/-- CRC-8 of a frame header (R357): bits [55:0], bit 55 first, generator x^8 + x^2 + x + 1, initial state 0. -/
def hcrc (hdr : Nat) : Nat := (upto 56).foldl (fun st i => crcBitMsb 8 0x07 st (bitAt hdr (55 - i))) 0

/-- The additive scrambler of a frame (R355) over its bits, from state `st`. -/
def scramble : Nat → List Bool → List Bool
  | _, [] => []
  | st, b :: bs =>
    let k := bitAt st 30 != bitAt st 27
    (b != k) :: scramble ((st * 2 + k.toNat) % 2 ^ 31) bs

/-- The scrambler's initial state for a sequence number (R355): SEQ[23:0] followed by 0b101_0101. -/
def scrSeed (seq : Nat) : Nat := seq % 2 ^ 24 * 128 + 0x55

/-- Stuffs bits (R356): after 15 identical bits, one of the opposite value, which starts a new run. `run` counts the
identical bits sent last, of value `v`. -/
def stuff : Nat → Bool → List Bool → List Bool
  | _, _, [] => []
  | run, v, b :: bs =>
    let r := if run ≠ 0 ∧ b = v then run + 1 else 1
    if r = 15 then b :: (!b) :: stuff 1 (!b) bs else b :: stuff r b bs

/-- Removes stuffed bits (R356); nothing when a stuffed bit has the value of its run. -/
def unstuff : Nat → Bool → List Bool → Option (List Bool)
  | _, _, [] => some []
  | run, v, b :: bs =>
    if run = 15 then (if b = v then none else unstuff 1 b bs)
    else
      let r := if run ≠ 0 ∧ b = v then run + 1 else 1
      (unstuff r b bs).map (b :: ·)

/-- Bytes as bits, each byte most significant bit first (R354). -/
def bytesToBits (bs : List Byte) : List Bool := bs.flatMap bitsMsb

/-- A byte from at most eight bits, most significant first. -/
def byteOfBits (bs : List Bool) : Byte := BitVec.ofNat 8 (bs.foldl (fun v b => v * 2 + b.toNat) 0)

/-- `n` bytes from bits. -/
def bitsToBytes : Nat → List Bool → List Byte
  | 0, _ => []
  | n + 1, bs => byteOfBits (bs.take 8) :: bitsToBytes n (bs.drop 8)

end Sys2Proof.Machine
end

