-- ==== Sys2Proof/Machine/Ras.lean ====
section
/-! DEFINITION. Domains, fences (R313), and the counting of faults (R498): the operations every block uses to contain and
record a fault. -/

namespace Sys2Proof.Machine

/-! ## Domains (R34, R446) -/

/-- State of a domain (codes of PWR_DOMAIN_STATE). -/
def domSt (s : State) (n : Nat) : Nat := fld s (Reg.PWR_DOMAIN_STATE n) F.PWR_DOMAIN_STATE_STATE

/-- Is a domain ACT or IDLE? -/
def domLive (s : State) (n : Nat) : Bool := decide (domSt s n ≤ 1)

/-- A domain changes its state (R459); every change is recorded (R506). (DEDUCED, unsafe: log 38) -/
def setDom (s : State) (n st : Nat) : State :=
  let old := domSt s n
  let s := setFld s (Reg.PWR_DOMAIN_STATE n) F.PWR_DOMAIN_STATE_STATE st
  sep s 0x08 (0xD000 + n) st (old + fld s (Reg.PWR_DOMAIN_STATE n) F.PWR_DOMAIN_STATE_REASON * 16)

/-- An arrival ends IDLE (R449). (DEDUCED, unsafe: log 45) -/
def wakeIdle (s : State) (n : Nat) : State := if domSt s n = 1 then setDom s n 0 else s

/-- Does a sector run on its fast oscillator? -/
def onOsc (s : State) (n : Nat) : Bool := decide (n < 16) && isSet s (Reg.PWR_DOM_CLK n) F.PWR_DOM_CLK_ON_OSC

/-- Largest lag of a domain's copy of TIM_RAW (R386). (DESIGN CHOICE, safe: log 14) -/
def lagMax (s : State) (n : Nat) : Nat := if n < 16 then (if onOsc s n then 64 else 48) else 32

/-- The most a domain's copy of TIM_RAW can show now (R386): 16 Tc behind, in steps of 8. -/
def copyMax (s : State) (_n : Nat) : Nat := (rawTotal s - 16) / 8 * 8

/-- A domain uses its copy of TIM_RAW (R386): a multiple of 8 that lags by a free amount of the domain's range and
never decreases. The answer is a count of 48 bits. (DESIGN CHOICE, safe: log 14) -/
def copyNow (s : State) (n : Nat) : Nat × State :=
  let (x, s) := freeBelow (lagMax s n - 15) s
  let v := (rawTotal s - (16 + x)) / 8 * 8
  let v := max v (Tab.get (fun _ => 0) s.tim.copies n)
  (v % 2 ^ 48, { s with tim := { s.tim with copies := Tab.put (fun _ => 0) s.tim.copies n v } })

/-! ## Units -/

/-- The record of a unit (R498, R501). -/
def unit (s : State) (u : Nat) : UnitS := Tab.get (fun _ => {}) s.ras.units u

/-- Changes the record of a unit. -/
def updUnit (s : State) (u : Nat) (g : UnitS → UnitS) : State :=
  { s with ras := { s.ras with units := Tab.upd (fun _ => {}) s.ras.units u g } }

/-- State of a unit: 0 active, 1 fenced, 2 returning, 3 retired (R513). -/
def unitSt (s : State) (u : Nat) : Nat := (unit s u).st

/-- Sets the state of a unit. -/
def setUnitSt (s : State) (u st : Nat) : State := updUnit s u fun x => { x with st := st }

/-- Does a unit code name a unit (R505)? -/
def unitExists (u : Nat) : Bool :=
  let i := u % 4096
  match u / 4096 with
  | 0 => decide (i = 0)
  | 1 => decide (i < 1024)
  | 2 => decide (i < 128)
  | 3 => decide (i < 128)
  | 4 => decide (i / 16 < 176 ∧ i % 16 ≤ 8)
  | 5 => decide (i < 96)
  | 6 => decide (i < 32)
  | 7 => decide (i < 16)
  | 8 => decide (i < 16)
  | 9 => decide (i < 8)
  | 10 => decide (i < 32)
  | 11 => decide (i < 16)
  | 12 => decide (i < 8)
  | 13 => decide (i < 25)
  | 14 => decide (i < 24)
  | 15 => decide (i < 32)
  | _ => false

/-- Unit codes (R505). (DEDUCED, unsafe: log 10) -/
abbrev uEng (e : Nat) : Nat := 0x1000 + e
abbrev uTile (t : Nat) : Nat := 0x2000 + t
abbrev uCp3 (t : Nat) : Nat := 0x3000 + t
abbrev uPort (r p : Nat) : Nat := 0x4000 + r * 16 + p
abbrev uLane (l : Nat) : Nat := 0x5000 + l
abbrev uCxu (n : Nat) : Nat := 0xA000 + n
abbrev uFft (n : Nat) : Nat := 0xB000 + n
abbrev uDma (n : Nat) : Nat := 0xC000 + n
abbrev uDom (n : Nat) : Nat := 0xD000 + n

/-- The sector whose steward owns a unit, if a steward does (R20). -/
def unitSector (u : Nat) : Option Nat :=
  match u / 4096 with
  | 1 => some (u % 4096 / 64)
  | 2 => some (u % 4096 / 8)
  | 3 => some (u % 4096 / 8)
  | 13 => if u % 4096 < 16 then some (u % 4096) else none
  | _ => none

/-! ## Fences (R313) -/

/-- Fences at reset: sectors and strips are OFF behind their fences (R32, R450). -/
def fence0 (u : Nat) : FenceS := if uDom 0 ≤ u ∧ u < uDom 20 then { st := 3 } else {}

/-- The fence of a scope. -/
def fence (s : State) (u : Nat) : FenceS := Tab.get fence0 s.noc.fences u

/-- Sets the fence of a scope. -/
def setFence (s : State) (u : Nat) (x : FenceS) : State :=
  { s with noc := { s.noc with fences := Tab.put fence0 s.noc.fences u x } }

/-- Is refusal in force at a scope: DRAINING or FENCED? -/
def refuses (s : State) (u : Nat) : Bool := decide (2 ≤ (fence s u).st)

/-- Is a scope being fenced or fenced: its steering and binding have stopped? -/
def fenced (s : State) (u : Nat) : Bool := decide ((fence s u).st ≠ 0)

/-- A steward or controller requests the fence of a scope: OPEN becomes NOTICE. (DEDUCED, unsafe: log 46) -/
def fenceRequest (s : State) (u : Nat) : State :=
  if (fence s u).st = 0 then
    let s := setFence s u { st := 1 }
    match unitSector u with
    | some n => inc s (Reg.STW_FENCE_CNT n)
    | none => s
  else s

/-- The notice is acknowledged: NOTICE becomes DRAINING, and refusal begins. -/
def fenceAck (s : State) (u : Nat) : State :=
  if (fence s u).st = 1 then setFence s u { fence s u with st := 2 } else s

/-- Must the ready handshake precede the lift of a scope's fence (R32)? -/
def needsHandshake (u : Nat) : Bool := decide (u / 4096 = 13)

/-- Everything accepted has been answered: DRAINING becomes FENCED, and the owner is told. A held lift then applies. -/
def fenceDrained (s : State) (u : Nat) : State :=
  if (fence s u).st = 2 then
    let held := (fence s u).heldLift
    let s := match unitSector u with
      | some n => evt s (Reg.STW_EVT n) F.STW_EVT_FENCED
      | none => s
    if held && !needsHandshake u then setFence s u {} else setFence s u { st := 3, heldLift := held }
  else s

/-- A lift request: FENCED becomes OPEN; before FENCED the request is held. -/
def fenceLift (s : State) (u : Nat) : State :=
  if (fence s u).st = 3 then setFence s u {}
  else if (fence s u).st = 0 then s
  else setFence s u { fence s u with heldLift := true }

/-! ## Counting faults (R498, R513) -/

/-- The RAS counter of a unit's class. -/
def fltCounter (u : Nat) : Option Nat :=
  match u / 4096 with
  | 1 => some Reg.RAS_ENG_FLT_CNT
  | 2 => some Reg.RAS_TILE_FLT_CNT
  | 3 => some Reg.RAS_UNIT_FLT_CNT
  | 4 => some Reg.RAS_PORT_FLT_CNT
  | 5 => some Reg.RAS_LANE_FLT_CNT
  | 6 => some Reg.RAS_UNIT_FLT_CNT
  | 7 => some Reg.RAS_UNIT_FLT_CNT
  | 8 => some Reg.RAS_UNIT_FLT_CNT
  | 9 => some Reg.RAS_UNIT_FLT_CNT
  | 10 => some Reg.RAS_UNIT_FLT_CNT
  | 11 => some Reg.RAS_UNIT_FLT_CNT
  | 12 => some Reg.RAS_UNIT_FLT_CNT
  | _ => none

/-- Fault window in Tc: 1 ms is 1,966,080 Tc. -/
def fltWindow (s : State) : Nat := fld s Reg.RAS_FLT_WINDOW F.RAS_FLT_WINDOW_MS * 1966080

/-- Faults of a unit inside the window that ends now. -/
def inWindow (s : State) (u : Nat) : Nat :=
  ((unit s u).stamps.filter fun t => decide (rawTotal s - t < fltWindow s)).length

/-- UNIT, KIND, SITE and GEN as RAS_ERR_INFO and STW_LAST_FLT hold them. -/
def fltInfo (s : State) (u kind site : Nat) : Word :=
  BitVec.ofNat 32 (u + kind * 2 ^ 16 + site * 2 ^ 20 + (unit s u).gen % 256 * 2 ^ 24)

/-- A fault is recorded: the steward's record and the recorder's FAULT event. -/
def recordFault (s : State) (u kind addr site : Nat) : State :=
  if (unit s u).mute = 2 then s else
  let info := fltInfo s u kind site
  let s := match unitSector u with
    | some n => evt (inc (wr s (Reg.STW_LAST_FLT n) info) (Reg.STW_FLT_CNT n)) (Reg.STW_EVT n) F.STW_EVT_FAULT
    | none => s
  sep s 0x01 u kind (addr % 2 ^ 32)

/-- RAS_ERR_INFO and RAS_ERR_ADDR take the first fault while RAS_EVT.FAULT is clear. -/
def captureFault (s : State) (u kind addr site : Nat) : State :=
  if isSet s Reg.RAS_EVT F.RAS_EVT_FAULT then s
  else wr64 (wr s Reg.RAS_ERR_INFO (fltInfo s u kind site)) Reg.RAS_ERR_ADDR_LO (addr % 2 ^ 48)

/-- A unit's fault is counted (R498): its class counter, its total, its stamps. Answers whether the fault is permanent. -/
def countOnly (s : State) (u kind addr site : Nat) : Bool × State :=
  if (unit s u).mute ≠ 0 then (false, s) else
  let s := match fltCounter u with | some c => inc s c | none => s
  let s := evt (captureFault s u kind addr site) Reg.RAS_EVT F.RAS_EVT_FAULT
  let lim := fld s Reg.RAS_FLT_LIMIT F.RAS_FLT_LIMIT_LIMIT
  let s := updUnit s u fun x =>
    { x with total := (x.total + 1) % 2 ^ 32, kind := kind, last := raw s, stamps := (rawTotal s :: x.stamps).take lim }
  (decide (lim ≤ inWindow s u), s)

/-- A fault is recorded and counted. -/
def countFault (s : State) (u kind addr site : Nat) : Bool × State :=
  countOnly (recordFault s u kind addr site) u kind addr site

/-- A unit is retired (R499): `code` 0 at the limit, 1 by management, 2 after a handshake failure. A tile takes its engines
and its CP3 with it. -/
def retireUnit (s : State) (u code : Nat) : State :=
  let s := setUnitSt s u 3
  let s := if u / 4096 = 2 then
      (upto 8).foldl (fun s e => setUnitSt s (uEng (u % 4096 * 8 + e)) 3) (setUnitSt s (uCp3 (u % 4096)) 3)
    else s
  let s := evt (inc s Reg.RAS_RETIRE_CNT) Reg.RAS_EVT F.RAS_EVT_RETIRE
  sep s 0x06 u code (inWindow s u)

/-- What follows from the limit (R498): a permanent fault retires the unit or, with AUTO_RETIRE = 0, leaves it FENCED and
sets RAS_EVT.LIMIT; a transient one leaves it FENCED until it returns. -/
def judgeFault (s : State) (u : Nat) (permanent : Bool) : State :=
  if !permanent then setUnitSt s u 1
  else if isSet s Reg.RAS_CTL F.RAS_CTL_AUTO_RETIRE then retireUnit s u 0
  else evt (setUnitSt s u 1) Reg.RAS_EVT F.RAS_EVT_LIMIT

/-- A fault of a unit that fences it, counted and judged. -/
def unitFault (s : State) (u kind addr site : Nat) : State :=
  let (p, s) := countFault s u kind addr site
  judgeFault (fenceRequest s u) u p

/-- A report of a unit is discarded (R501). -/
def stale (s : State) : State := evt (inc s Reg.RAS_STALE_CNT) Reg.RAS_EVT F.RAS_EVT_STALE

/-- Does the owner discard a report of a unit: the unit is not active, or the generations differ (R501)? -/
def discards (s : State) (u : Nat) : Bool := decide (unitSt s u ≠ 0) || decide ((unit s u).gen ≠ (unit s u).shadowGen)

/-- Step 5 of the ready handshake (R502): generations advance, the fence lifts, the unit is active. -/
def handshakeDone (s : State) (u : Nat) : State :=
  let s := sep s 0x07 u 0 (unit s u).gen
  let s := updUnit s u fun x => { x with st := 0, gen := (x.gen + 1) % 256, shadowGen := (x.shadowGen + 1) % 256 }
  let s := setFence s u {}
  match unitSector u with
  | some n => evt (inc s (Reg.STW_HS_CNT n)) (Reg.STW_EVT n) F.STW_EVT_READY
  | none => s

/-- Step 2 of the ready handshake fails (R502): a fault of kind GEN_FAIL, and the unit stays FENCED. -/
def genFail (s : State) (u : Nat) : State :=
  let (p, s) := countFault s u 10 0 0
  let s := evt (inc s Reg.RAS_GEN_FAIL_CNT) Reg.RAS_EVT F.RAS_EVT_GEN_FAIL
  let s := match unitSector u with
    | some n => evt s (Reg.STW_EVT n) F.STW_EVT_GEN_FAIL
    | none => s
  judgeFault s u p

end Sys2Proof.Machine
end

