-- ==== Sys2Proof/Machine/Fabric.lean ====
section
/-! DEFINITION. Requests on the fabric: address decoding (R37 to R41, R297), partition checks (R315), fences (R313), the
coherent region (R316, R317), memories and their errors (R318, R321). -/

namespace Sys2Proof.Machine

/-- Response codes (R311). -/
abbrev OKAY : Nat := 0
abbrev DECERR : Nat := 1
abbrev FENCED : Nat := 2
abbrev PARERR : Nat := 3
abbrev TIMEOUT : Nat := 4
abbrev DENIED : Nat := 5

/-- Who issues a request: its function, its router, the scopes it lies in, whether it is a tile supervisor, its number when
it is an engine. -/
structure Issuer where
  func : Nat
  src : Nat
  scopes : List Nat
  sup : Bool := false
  eng : Option Nat := none
deriving DecidableEq, Repr

/-- What a device address names (R37 to R41). -/
inductive Target where
  | hbm
  | tmem (t off : Nat)
  | emem (e off : Nat)
  | strip (q off : Nat)
  | config (off : Nat)
  | sepia (off : Nat)
  | image (off : Nat)
  /-- Inside a window, but reserved there: the target's own decode answers DECERR. -/
  | hole (router : Nat)
  /-- In a range that R37 marks reserved. -/
  | reserved
deriving DecidableEq, Repr

/-- Decodes a device address (R37, R38, R39, R41). -/
def target (a : Nat) : Target :=
  if a < 0x800000000 then .hbm
  else if 0x100000000000 ≤ a ∧ a < 0x100080000000 then
    let t := (a - 0x100000000000) / 0x1000000
    let o := (a - 0x100000000000) % 0x1000000
    if o < 0x100000 then .tmem t o
    else if o < 0x300000 then
      let x := (o - 0x100000) % 0x40000
      if x < 0x28000 then .emem (t * 8 + (o - 0x100000) / 0x40000) x else .hole t
    else .hole t
  else if 0x200000000000 ≤ a ∧ a < 0x200400000000 then
    let q := (a - 0x200000000000) / 0x100000000
    let o := (a - 0x200000000000) % 0x100000000
    if o < 0x70000000 then .strip q o else .hole ((if q % 2 = 0 then 160 else 168) + q / 2 * 4)
  else if 0x300000000000 ≤ a ∧ a < 0x300002000000 then .config (a - 0x300000000000)
  else if 0x3F0000000000 ≤ a ∧ a < 0x3F0004000000 then
    let o := a - 0x3F0000000000
    if o < 0x20000 then .sepia o else if 0x2000000 ≤ o then .image (o - 0x2000000) else .hole 136
  else .reserved

/-- Pseudo-channel of an HBM address (R319). -/
def pseudoChannel (a : Nat) : Nat := 16 * bits a 33 2 + (bits a 8 4 ^^^ bits a 20 4)

/-- Strip group of a window offset (R39, R296). -/
def stripGroup (off : Nat) : Nat :=
  match off / 0x10000000 with
  | 0 => 0
  | 1 => 1
  | 2 => 1
  | 3 => 1
  | 4 => 2
  | 5 => 2
  | _ => 3

/-- Edge router of a strip's group (R296). -/
def stripRouter (q k : Nat) : Nat := (if q % 2 = 0 then 160 else 168) + q / 2 * 4 + k

/-- TGT and DSUB of an address (R297). -/
def routeOf (a : Nat) : Nat × Nat :=
  match target a with
  | .hbm =>
    let n := pseudoChannel a
    if n < 32 then (128 + n / 2, n % 2) else (144 + (n - 32) / 2, n % 2)
  | .tmem t _ => (t, 0)
  | .emem e _ => (e / 8, 0)
  | .strip q off => (stripRouter q (stripGroup off), 0)
  | .config _ => (136, 3)
  | .sepia _ => (136, 3)
  | .image _ => (136, 3)
  | .hole r => (r, if r = 136 then 3 else 0)
  | .reserved => (0, 0)

/-- Units of a strip window's offset that a unit-scope fence covers: the CXU of its window, the DMA engine of its request
window (R265, R339). -/
def stripUnits (q off : Nat) : List Nat :=
  match off / 0x10000000 with
  | 4 => [uCxu (q * 8 + off % 0x10000000 / 0x2000000)]
  | 6 => if off % 0x10000000 / 0x10000 < 2 then [uDma (q * 2 + off % 0x10000000 / 0x10000)] else []
  | _ => []

/-- The fence scopes that cover an address (R313). -/
def scopesAt (a : Nat) : List Nat :=
  match target a with
  | .tmem t _ => [uDom (t / 8), uTile t]
  | .emem e _ => [uDom (e / 64), uTile (e / 8), uEng e]
  | .strip q off => uDom (16 + q) :: stripUnits q off
  | _ => []

/-- Does the whole range of a request lie in the function's partition (R315)? -/
def inPartition (s : State) (f a n : Nat) : Bool :=
  let last := a + n - 1
  match target a with
  | .hbm => (upto 8).any fun i =>
      let r := Reg.PART_HBM f i
      isSet s r F.PART_HBM_EN && decide (fld s r F.PART_HBM_BASE ≤ a / 0x200000) &&
        decide (last / 0x200000 ≤ fld s r F.PART_HBM_LAST)
  | .tmem t _ => bitAt (rd s (Reg.PART_TILE f (t / 32))).toNat (t % 32)
  | .emem e _ => bitAt (rd s (Reg.PART_TILE f (e / 8 / 32))).toNat (e / 8 % 32)
  | .hole r =>
    if r < 128 then bitAt (rd s (Reg.PART_TILE f (r / 32))).toNat (r % 32)
    else bitAt (rd s (Reg.PART_ACC f)).toNat ((r - 160) % 8 / 4 * 2 + (r - 160) / 8)
  | .strip q _ => bitAt (rd s (Reg.PART_ACC f)).toNat q
  | _ => false

/-- Is a function checked against its partition: every virtual function, and the physical one while its PART_CTL.EN is 1? -/
def partChecked (s : State) (f : Nat) : Bool :=
  decide (f ≠ 0) || isSet s (Reg.PART_CTL 0) F.PART_CTL_EN

/-- Does the partition check let a request pass (R315)? -/
def partOk (s : State) (f a n : Nat) : Bool := !partChecked s f || inPartition s f a n

/-- The first error answer is captured while NOC_EVT.ERR_CAP is clear (R323). -/
def nocErr (s : State) (code f src tgt a : Nat) : State :=
  if isSet s Reg.NOC_EVT F.NOC_EVT_ERR_CAP then s
  else
    let s := wr s Reg.NOC_ERR_INFO (BitVec.ofNat 32 (code + f * 2 ^ 3 + src * 2 ^ 8 + tgt * 2 ^ 16))
    evt (wr64 s Reg.NOC_ERR_ADDR_LO (a % 2 ^ 48)) Reg.NOC_EVT F.NOC_EVT_ERR_CAP

/-- An error answer of the fabric, with its counters. -/
def nocFail (s : State) (iss : Issuer) (a code : Nat) : State :=
  let s := nocErr s code iss.func iss.src (routeOf a).1 a
  if code = DENIED then evt (inc s Reg.NOC_DENIED_CNT) Reg.NOC_EVT F.NOC_EVT_DENIED
  else if code = TIMEOUT then evt (inc s Reg.NOC_TIMEOUT_CNT) Reg.NOC_EVT F.NOC_EVT_TIMEOUT
  else s

/-- A request outside the partition is also counted in the RAS block (R42, R315). (DEDUCED, unsafe: log 25) -/
def rasDenied (s : State) : State := evt (inc s Reg.RAS_DENIED_CNT) Reg.RAS_EVT F.RAS_EVT_DENIED

/-- Is HBM answering: the controllers are enabled and MEM is not in RET (R321, R324)? -/
def hbmUp (s : State) : Bool := isSet s Reg.MEM_CTL F.MEM_CTL_EN && domLive s 21

/-- State of an engine (codes of TSU_ENG_STATE). -/
def engSt (s : State) (e : Nat) : Nat :=
  match unitSt s (uEng e) with
  | 1 => 5
  | 2 => 1
  | 3 => 6
  | _ => (eng s e).st

/-- The code that address decoding, the partition, the fences and the guard of instruction memories (R109) give a request
before it is performed, and whether the partition refused it. (DEDUCED, unsafe: log 24, 25) -/
def precheck (s : State) (iss : Issuer) (a n : Nat) (write : Bool) : Nat × Bool :=
  if iss.scopes.any (refuses s) then (FENCED, false)
  else if target a = .reserved ∨ a / 256 ≠ (a + n - 1) / 256 then (DECERR, false)
  else match target a with
    | .config _ => if iss.sup then (OKAY, false) else (DENIED, decide (iss.func ≠ 0))
    | .sepia _ => if iss.func ≠ 0 then (DENIED, true) else if write then (DENIED, false) else (OKAY, false)
    | .image _ => if iss.func ≠ 0 then (DENIED, true) else if write then (DENIED, false) else (OKAY, false)
    | .hole r =>
      if r = 136 then (if iss.func ≠ 0 then (DENIED, true) else (DECERR, false))
      else if partOk s iss.func a n then (DECERR, false) else (DENIED, true)
    | .hbm =>
      if !partOk s iss.func a n then (DENIED, true) else if hbmUp s then (OKAY, false) else (FENCED, false)
    | .emem e off =>
      if !partOk s iss.func a n then (DENIED, true)
      else if (scopesAt a).any (refuses s) then (FENCED, false)
      else if write && decide (0x20000 ≤ off ∧ 3 ≤ engSt s e) then (DENIED, false) else (OKAY, false)
    | _ =>
      if !partOk s iss.func a n then (DENIED, true)
      else if (scopesAt a).any (refuses s) then (FENCED, false) else (OKAY, false)

/-! ## Errors in memories -/

/-- An HBM read finds an error (R321): counted, and the first one recorded. -/
def hbmError (s : State) (a kind : Nat) : State :=
  let s := if isSet s Reg.MEM_EVT F.MEM_EVT_PAR || isSet s Reg.MEM_EVT F.MEM_EVT_ECC_UNC then s
    else wr64 (wr s Reg.MEM_ERR_INFO (BitVec.ofNat 32 (pseudoChannel a + kind * 64))) Reg.MEM_ERR_ADDR_LO a
  if kind = 1 then evt (inc s Reg.MEM_PAR_CNT) Reg.MEM_EVT F.MEM_EVT_PAR
  else evt (inc s Reg.MEM_ECC_UNC_CNT) Reg.MEM_EVT F.MEM_EVT_ECC_UNC

/-- A read of tile memory finds a parity error (R318, R489): reported as a tile fault, counted once for each 64-byte unit
until the unit is rewritten. -/
def tmemError (s : State) (t a : Nat) : State :=
  let base := a / 64 * 64
  let s := evt s Reg.RAS_EVT F.RAS_EVT_TMEM
  if s.damaged.any fun e => decide (base ≤ e.1 ∧ e.1 < base + 64 ∧ 4 ≤ e.2) then s
  else
    let s := { s with damaged := s.damaged.map fun e =>
      if base ≤ e.1 ∧ e.1 < base + 64 ∧ e.2 < 4 then (e.1, e.2 + 4) else e }
    let (p, s) := countFault s (uTile t) 1 a 0
    if p then judgeFault s (uTile t) true else s

/-- The first byte of a range that reads with an error, and its kind. -/
def firstDamage (s : State) (a n : Nat) : Option (Nat × Nat) :=
  s.damaged.find? fun e => decide (a ≤ e.1 ∧ e.1 < a + n)

/-! ## The coherent region (R316, R317) -/

/-- Is an address in the shared control region? -/
def inCoherent (s : State) (a : Nat) : Bool :=
  decide (s.noc.coh.1 * 0x100000 ≤ a ∧ a < (s.noc.coh.1 + s.noc.coh.2) * 0x100000)

/-- Key of a line in a cache: caches 0 to 127 are the supervisors', 128 to 131 the management cores'. -/
def lineKey (c a : Nat) : Nat := c * 2 ^ 42 + a / 64

/-- A line in a cache. -/
def line (s : State) (c a : Nat) : LineS := Tab.get (fun _ => {}) s.noc.lines (lineKey c a)

/-- Sets a line in a cache. -/
def setLine (s : State) (c a : Nat) (x : LineS) : State :=
  { s with noc := { s.noc with lines := Tab.put (fun _ => {}) s.noc.lines (lineKey c a) x } }

/-- A holder answers a snoop (R317): dirty data go to memory, and the line becomes S, or I when it is invalidated.
(DEDUCED, unsafe: log 26) -/
def snoopOne (s : State) (c a : Nat) (invalidate : Bool) : State :=
  let l := line s c a
  if l.st = 0 then s
  else
    let s := if l.st = 3 then storeN s (a / 64 * 64) l.data else s
    setLine s c a (if invalidate then {} else { l with st := 1 })

/-- The home snoops every holder of a line but one. -/
def snoopAll (s : State) (a : Nat) (invalidate : Bool) (but : Option Nat) : State :=
  (upto 132).foldl (fun s c => if but = some c then s else snoopOne s c a invalidate) s

/-- The caches that hold a line of the region an access touches are snooped before it is performed. -/
def coherent (s : State) (a n : Nat) (write : Bool) : State :=
  (upto ((a + n - 1) / 64 + 1 - a / 64)).foldl (fun s i =>
    let x := (a / 64 + i) * 64
    if inCoherent s x then snoopAll s x write none else s) s

/-! ## Requests to memories -/

/-- Is an address in a memory? Windows of units are served by Access.lean; here they answer DECERR. -/
def isMemory (a : Nat) : Bool :=
  match target a with
  | .hbm => true
  | .tmem _ _ => true
  | .emem _ _ => true
  | _ => false

/-- The code of a request to a memory (`precheck`). (DEDUCED, unsafe: log 132) -/
def memCheck (s : State) (iss : Issuer) (a n : Nat) (write : Bool) : Nat × Bool :=
  let (c, out) := precheck s iss a n write
  if c = OKAY ∧ isMemory a = false then (DECERR, false) else (c, out)

/-- A read of memory that has passed its checks: code and bytes. -/
def memRead (s : State) (a n : Nat) : Nat × List Byte × State :=
  let s := match target a with
    | .hbm => coherent s a n false
    | .tmem t _ => wakeIdle s (t / 8)
    | .emem e _ => wakeIdle s (e / 64)
    | _ => s
  match firstDamage s a n with
  | none => (OKAY, loadN s a n, s)
  | some (x, k) =>
    match target a with
    | .hbm => (PARERR, [], hbmError s x k)
    | .tmem t _ => (PARERR, [], tmemError s t x)
    | _ => (PARERR, [], s)

/-- A write of memory that has passed its checks. -/
def memWrite (s : State) (a : Nat) (bs : List Byte) : State :=
  match target a with
  | .hbm => storeN (coherent s a bs.length true) a bs
  | .tmem t _ => storeN (wakeIdle s (t / 8)) a bs
  | .emem e _ => storeN (wakeIdle s (e / 64)) a bs
  | _ => storeN s a bs

/-- A read request to a memory (R305): code, bytes. -/
def fabRead (s : State) (iss : Issuer) (a n : Nat) : Nat × List Byte × State :=
  let (c, out) := memCheck s iss a n false
  let s := if out then rasDenied s else s
  if c = OKAY then memRead s a n else (c, [], nocFail s iss a c)

/-- A non-posted write request to a memory: its code. -/
def fabWrite (s : State) (iss : Issuer) (a : Nat) (bs : List Byte) : Nat × State :=
  let (c, out) := memCheck s iss a bs.length true
  let s := if out then rasDenied s else s
  if c = OKAY then (OKAY, memWrite s a bs) else (c, nocFail s iss a c)

/-- A posted write meets a fence: dropped and counted, its address recorded when the count was 0 (R313). -/
def fenceDrop (s : State) (a : Nat) : State :=
  let s := if rd s Reg.NOC_FENCE_DROP = 0 then wr64 s Reg.NOC_FENCE_DROP_ADDR_LO a else s
  evt (inc s Reg.NOC_FENCE_DROP) Reg.NOC_EVT F.NOC_EVT_FENCE_DROP

/-- A posted write request to a memory. Answers the code an answer would have carried; the issuer never sees it. -/
def fabPost (s : State) (iss : Issuer) (a : Nat) (bs : List Byte) : Nat × State :=
  let (c, out) := memCheck s iss a bs.length true
  let s := if out then rasDenied s else s
  if c = OKAY then (OKAY, memWrite s a bs)
  else if c = FENCED then (c, fenceDrop s a)
  else (c, nocFail s iss a c)

/-- Length of the first request of a longer access: up to the next 256-byte boundary (R297). -/
def chunk (a n : Nat) : Nat := min n (256 - a % 256)

/-- A longer read, split at 256-byte boundaries; it stops at the first error. `fuel` bounds the requests. -/
def fabReads : Nat → State → Issuer → Nat → Nat → Nat × List Byte × State
  | 0, s, _, _, _ => (OKAY, [], s)
  | k + 1, s, iss, a, n =>
    if n = 0 then (OKAY, [], s)
    else
      let m := chunk a n
      match fabRead s iss a m with
      | (c, bs, s) =>
        if c ≠ OKAY then (c, [], s)
        else match fabReads k s iss (a + m) (n - m) with
          | (c, bs', s) => (c, bs ++ bs', s)

/-- A longer non-posted write, split at 256-byte boundaries; the worst code of its requests. -/
def fabWrites : Nat → State → Issuer → Nat → List Byte → Nat × State
  | 0, s, _, _, _ => (OKAY, s)
  | k + 1, s, iss, a, bs =>
    if bs.isEmpty then (OKAY, s)
    else
      let m := chunk a bs.length
      match fabWrite s iss a (bs.take m) with
      | (c, s) =>
        match fabWrites k s iss (a + m) (bs.drop m) with
        | (c', s) => (if c ≠ OKAY then c else c', s)

/-- A longer posted write, split at 256-byte boundaries; the first code that is not OKAY. -/
def fabPosts : Nat → State → Issuer → Nat → List Byte → Nat × State
  | 0, s, _, _, _ => (OKAY, s)
  | k + 1, s, iss, a, bs =>
    if bs.isEmpty then (OKAY, s)
    else
      let m := chunk a bs.length
      match fabPost s iss a (bs.take m) with
      | (c, s) =>
        match fabPosts k s iss (a + m) (bs.drop m) with
        | (c', s) => (if c ≠ OKAY then c else c', s)

/-! ## Issuers -/

/-- The host as function `f` (R412). -/
def hostIssuer (f : Nat) : Issuer := { func := f, src := if f % 2 = 0 then 135 else 136, scopes := [] }

/-- The timeline unit, for the owner of a timeline. -/
def tlnIssuer (f : Nat) : Issuer := { func := f, src := 135, scopes := [] }

/-- A supervisor, for the function of a palette. -/
def supIssuer (t f : Nat) : Issuer := { func := f, src := t, scopes := [uDom (t / 8), uTile t], sup := true }

/-- An engine, for the function of its task. -/
def engIssuer (e f : Nat) : Issuer :=
  { func := f, src := e / 8, scopes := [uDom (e / 64), uTile (e / 8), uEng e], eng := some e }

/-- The link layer of a bundle, for a stream's owner. -/
def lnkIssuer (b f : Nat) : Issuer :=
  { func := f, src := stripRouter (b / 3) (b % 3), scopes := [] }

/-- An accelerator unit of a strip, for the poster of its job. -/
def accIssuer (q k u f : Nat) : Issuer := { func := f, src := stripRouter q k, scopes := [uDom (16 + q), u] }

end Sys2Proof.Machine
end

