-- ==== Sys2Proof/Machine/Events.lean ====
section
/-! DEFINITION. What follows from event bits: the device event summary and its messages (R436), ALERT_N and its in-band
interrupt (R525, R527). -/

namespace Sys2Proof.Machine

/-- The block code of R443 whose event register stands at a BAR0 offset; its enable register is 4 above. -/
def evtBlock (a : Nat) : Option Nat :=
  if a = Reg.TLN_EVT ∨ (Reg.TL_EVT 0 ≤ a ∧ a ≤ Reg.TL_EVT 63 ∧ (a - Reg.TL_EVT 0) % 0x40 = 0) then some 0
  else if a = Reg.TIM_EVT ∨ a = Reg.TIM_CMP_EVT then some 1
  else if a = Reg.PWR_EVT ∨ (Reg.STW_EVT 0 ≤ a ∧ a ≤ Reg.STW_EVT 15 ∧ (a - Reg.STW_EVT 0) % 0x1000 = 0) then some 2
  else if a = Reg.THM_EVT then some 3
  else if a = Reg.RAS_EVT then some 4
  else if a = Reg.NOC_EVT then some 7
  else if a = Reg.MEM_EVT then some 8
  else if 0x400000 ≤ a ∧ a < 0x4C0000 then
    let o := a % 0x10000
    if o = 0xC ∨ (0x100 ≤ o ∧ o < 0x500 ∧ o % 0x80 = 0x38) then some 9 else none
  else if 0x800000 ≤ a ∧ a < 0x840000 ∧ a % 0x10000 = 0xC then some 10
  else if 0xA00000 ≤ a ∧ a < 0xA80000 ∧ a % 0x4000 = 0x70 then some 11
  else if 0xC00000 ≤ a ∧ a < 0xC10000 ∧ a % 0x4000 = 0xC then some 12
  else if 0x300000 ≤ a ∧ a < 0x320000 ∧ 0x100 ≤ a % 0x4000 ∧ a % 0x4000 < 0x1100 ∧ a % 0x100 = 0x3C then some 13
  else none

/-- Blocks that hold a stored event bit whose enable is set. -/
def storedSum (s : State) : Nat :=
  s.regs.foldl (fun m e =>
    match evtBlock e.1 with
    | some k => if e.2 &&& rd s (e.1 + 4) ≠ 0 then m ||| 2 ^ k else m
    | none => m) 0

/-- HIF_DEVEVT_SUM (R436): bit k is set while block k has an event bit set whose enable is set. TIM_EVT.TRX and
LNK_EVT.TXTS follow their queues. (DEDUCED, unsafe: log 18) -/
def devEvtSum (s : State) : Nat :=
  let m := storedSum s
  let m := if !s.tim.trx.isEmpty && bitAt (rd s Reg.TIM_EVT_EN).toNat 1 then m ||| 2 else m
  if s.lnk.bundles.any fun e => !e.2.txts.isEmpty && bitAt (rd s (Reg.LNK_EVT_EN e.1)).toNat 6 then m ||| 2 ^ 9 else m

/-- MGT_ALERT_STAT (R527, R540). -/
def alertStat (s : State) : Nat :=
  devEvtSum s
    ||| (if isSet s Reg.SEP_STAT F.SEP_STAT_FROZEN then 2 ^ 16 else 0)
    ||| (if fld s Reg.MGT_BOOT_STAT F.MGT_BOOT_STAT_STAGE = 4 then 2 ^ 17 else 0)
    ||| (if isSet s Reg.THM_STAT F.THM_STAT_TRIP then 2 ^ 18 else 0)

/-- The event summary follows the event bits (R436): a message for every bit of it that has become set. -/
def settleEvents (s : State) : State :=
  let old := s.hif.devEvt
  let s := { s with hif := { s.hif with devEvt := devEvtSum s } }
  if (upto 14).any (fun k => bitAt s.hif.devEvt k && !bitAt old k) && isSet s Reg.HIF_DEVEVT_VEC F.HIF_DEVEVT_VEC_EN
  then msixSend s 0 (fld s Reg.HIF_DEVEVT_VEC F.HIF_DEVEVT_VEC_VECTOR) else s

/-- Is an enabled alert source set (R527)? -/
def alertDue (s : State) : Bool := decide (alertStat s &&& (rd s Reg.MGT_ALERT_EN).toNat ≠ 0)

/-- ALERT_N goes to a level. When it goes low, the I3C target raises its interrupt if it may (R525). -/
def setAlert (s : State) (low : Bool) : State :=
  let s := emit { s with mgt := { s.mgt with alertLow := low } } (.alert low)
  if low && isSet s Reg.MGT_I3C_CFG F.MGT_I3C_CFG_IBI_EN && s.mgt.i3cEvents then emit s (.ibi 1) else s

/-- ALERT_N is brought to the level that its sources call for (R527). -/
def settleAlert (s : State) : State := if alertDue s = s.mgt.alertLow then s else setAlert s (alertDue s)

/-- After a command: the event summary and its messages, then ALERT_N. -/
def settle (s : State) : State := settleAlert (settleEvents s)

/-- The answer of a meaning whose effect leads to `s`. -/
def done (s : State) : Res := .next (settle s)

end Sys2Proof.Machine
end

