-- ==== Sys2Proof/Machine/Time.lean ====
section
/-! DEFINITION. The TIM block (R383 to R401): the count, disciplined time, compare units, PPS, and the mailbox and queue of
TIME messages. -/

namespace Sys2Proof.Machine

/-- Is a swatch feature of a function in force (R440, R441)? -/
def feature (s : State) (f bit : Nat) : Bool :=
  isSet s (fnKey f Reg.SWATCH_STAT) F.SWATCH_STAT_ACCEPTED && bitAt (rd s (fnKey f (Reg.DRV_SWATCH (bit / 32)))).toNat (bit % 32)

/-! ## Disciplined time (R389 to R394) -/

/-- OFFSET, RATE (signed) and RAW_BASE. -/
def timOffset (s : State) : Nat := rd64 s Reg.TIM_OFFSET_LO
def timRate (s : State) : Int := (rd s Reg.TIM_RATE).toInt
def timBase (s : State) : Nat := rd64 s Reg.TIM_RAW_BASE_LO

/-- (d × RATE) >> 40, rounding towards minus infinity (R389). -/
def timCorr (rate : Int) (d : Nat) : Int := Int.fdiv ((d : Int) * rate) (2 ^ 40)

/-- Tc since RAW_BASE. -/
def timD (s : State) : Nat := (raw s + 2 ^ 48 - timBase s % 2 ^ 48) % 2 ^ 48

/-- TIM_NOW (R389). -/
def timNow (s : State) : Nat := wrapN 64 ((timOffset s : Int) + raw s + timCorr (timRate s) (timD s))

/-- Folds the rate correction into OFFSET and sets RAW_BASE to the count (R390, R391). -/
def timFold (s : State) : State :=
  wr64 (wr64 s Reg.TIM_OFFSET_LO (wrapN 64 ((timOffset s : Int) + timCorr (timRate s) (timD s))))
    Reg.TIM_RAW_BASE_LO (raw s)

/-- Sets the count. -/
def setRaw (s : State) (n : Nat) : State := { s with tim := { s.tim with raw := BitVec.ofNat 48 n } }

/-- One Tc passes (R384, R391): the count advances once it has started; when d reaches
2^44 the correction is folded; at the wrap it is folded, RAW_BASE becomes 0 and OFFSET gains 2^48. (DESIGN CHOICE, unsafe: log 1) -/
def tick (s : State) : State :=
  if !s.tim.counting then s
  else if raw s ≠ 2 ^ 48 - 1 then
    let s := setRaw s (raw s + 1)
    if 2 ^ 44 ≤ timD s then timFold s else s
  else
    let s := timFold (setRaw (inc s Reg.TIM_WRAP_CNT) 0)
    wr64 s Reg.TIM_OFFSET_LO ((timOffset s + 2 ^ 48) % 2 ^ 64)

/-- A parameter write counts in TIM_PARAM_GEN (R395). -/
def paramGen (s : State) : State := inc s Reg.TIM_PARAM_GEN

/-- A write of TIM_RATE (R390). -/
def timSetRate (s : State) (v : Word) : State := paramGen (wr (timFold s) Reg.TIM_RATE v)

/-- A write of TIM_STEP (R392); ignored while the feature is not in force (R440). -/
def timStep (s : State) (v : Word) : State :=
  if feature s 0 11 then paramGen (wr64 s Reg.TIM_OFFSET_LO (wrapN 64 ((timOffset s : Int) + v.toInt))) else s

/-- A write of the pair TIM_OFFSET (R392). -/
def timSetOffset (s : State) (lo hi : Word) : State :=
  paramGen (setFld (wr (wr s Reg.TIM_OFFSET_LO lo) Reg.TIM_OFFSET_HI hi) Reg.TIM_STATUS F.TIM_STATUS_SET 1)

/-! ## Stamps -/

/-- A stamp in disciplined time (R395, R403), with the present parameters: 64 bits in Tc/64. -/
def stampNow64 (s : State) (stamp : Nat) : Nat :=
  let base : Int := (timBase s : Int) * 64
  let e : Int := sgn 54 (wrapN 54 ((stamp : Int) - base))
  wrapN 64 ((timOffset s : Int) * 64 + base + e + Int.fdiv (e * timRate s) (2 ^ 40))

/-! ## Events -/

/-- The AON PLL locks (R35, R384): the count starts, or holdover ends. -/
def aonPllLock (s : State) : State :=
  if isSet s Reg.TIM_STATUS F.TIM_STATUS_LOCK then s
  else
    let again := isSet s Reg.TIM_STATUS F.TIM_STATUS_HOLDOVER
    let s := setFld s Reg.TIM_STATUS F.TIM_STATUS_LOCK 1
    let s := setFld s Reg.TIM_STATUS F.TIM_STATUS_HOLDOVER 0
    let s := { s with tim := { s.tim with counting := true } }
    if again then sep s 0x0F 0 1 0 else s

/-- The AON PLL loses lock (R385). -/
def aonPllLoss (s : State) : State :=
  if !isSet s Reg.TIM_STATUS F.TIM_STATUS_LOCK then s
  else
    let s := setFld s Reg.TIM_STATUS F.TIM_STATUS_LOCK 0
    let s := setFld s Reg.TIM_STATUS F.TIM_STATUS_HOLDOVER 1
    sep (evt s Reg.TIM_EVT F.TIM_EVT_HOLDOVER) 0x0F 0 0 0

/-- The link PLL locks and the LNK copy is aligned (R387). -/
def lnkAlign (s : State) : State := setFld s Reg.TIM_STATUS F.TIM_STATUS_LNKALIGN 1

/-- d has reached 2^44 Tc: the correction is folded (R391). -/
def timRebase (s : State) : State := if 2 ^ 44 ≤ timD s then timFold s else s

/-- Is the count at its last value, so that the next Tc wraps it? -/
def timWrap (s : State) : State := if s.tim.counting && decide (raw s = 2 ^ 48 - 1) then tick s else s

/-- A pulse starts on PPS_OUT (R400). A pulse still high ends first. -/
def ppsOut (s : State) : State :=
  let s := if s.tim.ppsEnd.isSome then emit s (.pps false) else s
  let w := fld s Reg.TIM_PPSOUT_W F.TIM_PPSOUT_W_VALUE
  emit { s with tim := { s.tim with ppsEnd := some (rawTotal s + w * 128) } } (.pps true)

/-- The action of a firing (R397): 1 a pulse on GPIO[n] when the pin is assigned to time output, 2 a pulse on PPS_OUT, for
unit 15 only. -/
def cmpAct (s : State) (n : Nat) : State :=
  match fld s (Reg.TIM_CMP_CTL n) F.TIM_CMP_CTL_ACT with
  | 1 => if bits (rd s Reg.MGT_GPIO_FUNC).toNat (2 * n) 2 = 2 then emit s (.gpioPulse n) else s
  | 2 => if n = 15 then ppsOut s else s
  | _ => s

/-- The periodic step (R398): the target moves by PERIOD and ADJ, and by further periods while it is past. With PERIOD 0
the step never ends; the skips are then a free value. -/
def cmpStep (s : State) (n : Nat) : State :=
  let per := (rd s (Reg.TIM_CMP_PERIOD n)).toNat
  let adj := sgn 16 (fld s (Reg.TIM_CMP_ADJ n) F.TIM_CMP_ADJ_ADJ)
  let tgt := wrapN 48 ((rd64 s (Reg.TIM_CMP_TGT_LO n) : Int) + per + adj)
  let s := setFld s (Reg.TIM_CMP_ADJ n) F.TIM_CMP_ADJ_ADJ 0
  let (open_, s) := if per = 0 then free 32 s else (0, s)
  let lag := (raw s + 2 ^ 48 - tgt) % 2 ^ 48
  let skips := if !reached (raw s) tgt then 0 else if per = 0 then open_ else lag / per + 1
  addCnt (wr64 s (Reg.TIM_CMP_TGT_LO n) ((tgt + skips * per) % 2 ^ 48)) (Reg.TIM_CMP_SKIP_CNT n) skips

/-- A compare unit fires in the first Tc in which it is enabled and its target is reached (R397, R398). -/
def timCmpFire (s : State) (n : Nat) : State :=
  if isSet s (Reg.TIM_CMP_CTL n) F.TIM_CMP_CTL_EN && reached (raw s) (rd64 s (Reg.TIM_CMP_TGT_LO n)) then
    let s := wr s Reg.TIM_CMP_EVT (rd s Reg.TIM_CMP_EVT ||| BitVec.ofNat 32 (2 ^ n))
    let s := cmpAct (inc s (Reg.TIM_CMP_FIRE_CNT n)) n
    if isSet s (Reg.TIM_CMP_CTL n) F.TIM_CMP_CTL_PERIODIC then cmpStep s n
    else setFld s (Reg.TIM_CMP_CTL n) F.TIM_CMP_CTL_EN 0
  else s

/-- The PPS_OUT pulse ends (R400). -/
def ppsPulseEnd (s : State) : State :=
  match s.tim.ppsEnd with
  | some t => if t ≤ rawTotal s then emit { s with tim := { s.tim with ppsEnd := none } } (.pps false) else s
  | none => s

/-- An edge on PPS_IN (R401), sampled `sub` Tc/64 after the present count. -/
def ppsIn (s : State) (rising : Bool) (sub : Nat) : State :=
  let mask := (rd s Reg.TIM_PPSIN_MASK).toNat * 2 ^ 11
  let masked := match s.tim.lastPps with
    | some t => decide (rawTotal s - t ≤ mask)
    | none => false
  if !isSet s Reg.TIM_CTL F.TIM_CTL_PPSIN_EN || (rising == isSet s Reg.TIM_CTL F.TIM_CTL_PPSIN_FALL) || masked then s
  else
    let stamp := wrapN 54 ((raw s * 64 + sub : Int) - fld s Reg.TIM_PPSIN_LAT F.TIM_PPSIN_LAT_VALUE)
    let s := if isSet s Reg.TIM_PPSIN_STAT F.TIM_PPSIN_STAT_VALID then inc s Reg.TIM_PPSIN_OVR_CNT else s
    let s := wr64 s Reg.TIM_PPSIN_LO stamp
    let s := incFld (setFld s Reg.TIM_PPSIN_STAT F.TIM_PPSIN_STAT_VALID 1) Reg.TIM_PPSIN_STAT F.TIM_PPSIN_STAT_COUNT
    evt { s with tim := { s.tim with lastPps := some (rawTotal s) } } Reg.TIM_EVT F.TIM_EVT_PPSIN

/-! ## TIME messages (R404 to R408) -/

/-- Is a device lane UP? -/
def laneUp (s : State) (l : Nat) : Bool := decide (fld s (Reg.LN_STAT (l / 8) (l % 8)) F.LN_STAT_STATE = 6)

/-- The 16 message bytes of the transmit mailbox, MID 0. -/
def ttxBytes (s : State) : List Byte :=
  (upto 4).flatMap fun k =>
    let w := (rd s (Reg.TIM_TTX_MSG k)).toNat
    leBytes 4 (if k = 0 then bits w 0 8 + bits w 16 3 * 2 ^ 16 else w)

/-- A write of TIM_TTX_CTL with GO (R406). -/
def ttxGo (s : State) : State :=
  let lane := fld s Reg.TIM_TTX_CTL F.TIM_TTX_CTL_BUNDLE * 8 + fld s (Reg.TIM_TTX_MSG 0) F.TIM_TTX_MSG_LANE
  let type := fld s (Reg.TIM_TTX_MSG 0) F.TIM_TTX_MSG_TYPE
  let refuse (s : State) (e : Nat) : State :=
    evt (setFld s Reg.TIM_TTX_STAT F.TIM_TTX_STAT_ERR e) Reg.TIM_EVT F.TIM_EVT_TTX_ERR
  if isSet s Reg.TIM_TTX_STAT F.TIM_TTX_STAT_BUSY then refuse s 3
  else
    let s := setFld s Reg.TIM_TTX_STAT F.TIM_TTX_STAT_DONE 0
    if type < 0x10 ∨ 0x12 < type then refuse s 1
    else if !laneUp s lane then refuse s 2
    else
      let s := setFld s Reg.TIM_TTX_STAT F.TIM_TTX_STAT_ERR 0
      let s := setFld s Reg.TIM_TTX_STAT F.TIM_TTX_STAT_BUSY 1
      { s with tim := { s.tim with ttx := some (lane, ttxBytes s) } }

/-- The frame that carries the mailbox message has gone, with stamp identifier `id` (R406). -/
def ttxSent (s : State) (id : Nat) : State :=
  let s := setFld s Reg.TIM_TTX_STAT F.TIM_TTX_STAT_BUSY 0
  let s := setFld s Reg.TIM_TTX_STAT F.TIM_TTX_STAT_DONE 1
  let s := setFld s Reg.TIM_TTX_STAT F.TIM_TTX_STAT_ID id
  let s := evt (inc s Reg.TIM_TTX_CNT) Reg.TIM_EVT F.TIM_EVT_TTX_DONE
  { s with tim := { s.tim with ttx := none } }

/-- A message joins the TIME receive queue of 64 (R407). -/
def trxPush (s : State) (e : TrxEntry) : State :=
  let s := inc s Reg.TIM_TRX_CNT
  if s.tim.trx.length < 64 then { s with tim := { s.tim with trx := s.tim.trx ++ [e] } }
  else evt (inc s Reg.TIM_TRX_OVF_CNT) Reg.TIM_EVT F.TIM_EVT_TRX_OVF

/-- Removes the head of the TIME receive queue. -/
def trxPop (s : State) : State := { s with tim := { s.tim with trx := s.tim.trx.drop 1 } }

/-- Is the responder on (R408, R440)? -/
def autoResp (s : State) : Bool := isSet s Reg.TIM_CTL F.TIM_CTL_AUTORESP && feature s 0 12

/-- A received TIME message (R407): a TIME_REQ goes to the responder while it is on, every other message into the queue. -/
def timeReceive (s : State) (lane seq stamp : Nat) (msg : List Byte) : State :=
  if leAt msg 0 1 = 0x10 && autoResp s then
    let s := inc s Reg.TIM_AUTORESP_CNT
    { s with tim := { s.tim with resp := s.tim.resp ++
      [{ bundle := lane / 8, lane := lane % 8, seqid := leAt msg 4 2, t2 := stamp, respSent := false, t3 := none }] } }
  else trxPush s { msg := msg, stamp := stamp, bundle := lane / 8, lane := lane % 8, seq := seq % 2 ^ 13 }

/-- FLAGS and STAMP of an answer of the responder (R403, R408): disciplined with DISC once OFFSET has been written, raw
with NOTSET before. -/
def respStamp (s : State) (stamp : Nat) : Nat × Nat :=
  if isSet s Reg.TIM_STATUS F.TIM_STATUS_SET then (1, stampNow64 s stamp % 2 ^ 54) else (2, stamp % 2 ^ 54)

/-- A message of the responder, MID 0 (R404). -/
def respMsg (s : State) (type lane seqid stamp : Nat) : List Byte :=
  let (fl, st) := respStamp s stamp
  leBytes 4 (type + lane * 2 ^ 16) ++ leBytes 2 seqid ++ leBytes 1 fl ++ leBytes 1 0 ++ leBytes 7 st ++ leBytes 1 0

/-! ## Meanings of the events of the time base -/

/-- AON_PLL_LOSS (R385). -/
def execAonPllLoss (s : State) : Res := done (aonPllLoss s)

/-- LNKALIGN (R386). -/
def execLnkalign (s : State) : Res := done (lnkAlign s)

/-- TIM_WRAP (R391). -/
def execTimWrap (s : State) : Res := done (timWrap s)

/-- TIM_REBASE (R391). -/
def execTimRebase (s : State) : Res := done (timRebase s)

/-- TIM_CMP_FIRE (R397). -/
def execTimCmpFire (n : Fin 16) (s : State) : Res := done (timCmpFire s n)

/-- PPS_PULSE_END (R400). -/
def execPpsPulseEnd (s : State) : Res := done (ppsPulseEnd s)

/-- PPS_IN (R401). -/
def execPpsIn (rising : Bool) (sub : Fin 64) (s : State) : Res := done (ppsIn s rising sub)

end Sys2Proof.Machine
end

