-- ==== Sys2Proof/Machine/Hif.lean ====
section
/-! DEFINITION. Queue pairs and completions (R421 to R428, R434, R435): what every block that posts a completion uses. -/

namespace Sys2Proof.Machine

/-- Is a feature bit accepted by a function, and its swatch in force (R440, R442)? -/
abbrev accepted (s : State) (f k : Nat) : Bool := feature s f k

/-- Register of queue pair `q` of function `f`. -/
def qp (f q : Nat) (r : Nat → Nat) : Nat := fnKey f (r q)

/-- Entries of a CQ and an SQ. -/
def cqSize (s : State) (f q : Nat) : Nat := 2 ^ fld s (qp f q Reg.QP_SIZE) F.QP_SIZE_CQ_LOG2
def sqSize (s : State) (f q : Nat) : Nat := 2 ^ fld s (qp f q Reg.QP_SIZE) F.QP_SIZE_SQ_LOG2

/-- Is a CQ full (R427)? -/
def cqFull (s : State) (f q : Nat) : Bool :=
  decide ((fld s (qp f q Reg.QP_CQ_TAIL) F.QP_CQ_TAIL_INDEX + 1) % cqSize s f q = fld s (qp f q Reg.QP_CQ_HEAD) F.QP_CQ_HEAD_INDEX)

/-- Is a function being reset (R437)? -/
def resetting (s : State) (f : Nat) : Bool := s.hif.resetting.contains f

/-- A message of a function, unless it is being reset. -/
def cqMessage (s : State) (f v : Nat) : State := if resetting s f then s else msixSend s f v

/-- Coalescing state of a CQ. -/
def coal (s : State) (f q : Nat) : CoalS := Tab.get (fun _ => {}) s.hif.coal (f * 64 + q)

/-- Sets it. -/
def setCoal (s : State) (f q : Nat) (c : CoalS) : State :=
  { s with hif := { s.hif with coal := Tab.put (fun _ => {}) s.hif.coal (f * 64 + q) c } }

/-- Microseconds of a field in Tc × 100: 1 µs is 1,966.08 Tc. -/
def usTc100 (us : Nat) : Nat := us * 196608

/-- Do the conditions of R435 for a message hold? -/
def coalDue (s : State) (f q : Nat) : Bool :=
  let c := coal s f q
  let r := qp f q Reg.QP_COAL
  let t := fld s r F.QP_COAL_TIME
  decide (fld s r F.QP_COAL_COUNT ≤ c.p) || (decide (1 ≤ c.p) && c.imm)
    || (decide (1 ≤ c.p) && decide (t ≠ 0) && accepted s f 2 && decide (usTc100 t ≤ (rawTotal s - c.first) * 100))

/-- A CQ sends its message when it is due. (DESIGN CHOICE, safe: log 95) -/
def coalCheck (s : State) (f q : Nat) : State :=
  if coalDue s f q && isSet s (qp f q Reg.QP_CTL) F.QP_CTL_IEN then
    cqMessage (setCoal s f q {}) f (fld s (qp f q Reg.QP_VEC) F.QP_VEC_VECTOR)
  else s

/-- A completion is discarded (R427, R439). -/
def cplLost (s : State) (f : Nat) : State := hifEvt (inc s (fnKey f Reg.HIF_CPL_LOST_CNT)) f F.HIF_EVT_CPL_LOST

/-- Writes a completion entry at the CQ tail (R426): `words` are those at 0x00 to 0x14. -/
def writeCpl (s : State) (w : WaitCpl) : State :=
  let (f, q) := (w.f, w.q)
  let tail := fld s (qp f q Reg.QP_CQ_TAIL) F.QP_CQ_TAIL_INDEX
  let phase := fld s (qp f q Reg.QP_CQ_TAIL) F.QP_CQ_TAIL_PHASE
  let (t, s) := copyNow s 22
  let time := if accepted s f 1 then t % 2 ^ 32 else 0
  let head := if w.command then fld s (qp f q Reg.QP_SQ_HEAD) F.QP_SQ_HEAD_INDEX else 0
  let bytes := (w.words.flatMap fun x => leBytes 4 x.toNat) ++ leBytes 4 time ++ leBytes 4 (head + q * 2 ^ 16 + phase * 2 ^ 31)
  let base := rd64 s (qp f q Reg.QP_CQ_BASE_LO)
  let s := hostStore s (base + tail * 32) bytes
  let next := (tail + 1) % cqSize s f q
  let s := setFld s (qp f q Reg.QP_CQ_TAIL) F.QP_CQ_TAIL_INDEX next
  let s := if next = 0 then setFld s (qp f q Reg.QP_CQ_TAIL) F.QP_CQ_TAIL_PHASE (1 - phase) else s
  let c := coal s f q
  let s := setCoal s f q { p := c.p + 1, first := if c.p = 0 then rawTotal s else c.first, imm := c.imm || w.imm }
  coalCheck s f q

/-- Does a completion of a CQ wait? -/
def waits (s : State) (f q : Nat) : Bool := s.hif.waiting.any fun w => decide (w.f = f ∧ w.q = q)

/-- SLOT_DONE and EVENT completions in a function's hold. -/
def holdLen (s : State) (f : Nat) : Nat := (s.hif.waiting.filter fun w => decide (w.f = f) && !w.command).length

/-- A completion arises (R427, R437, R439). (DEDUCED, unsafe: log 77) -/
def postCpl (s : State) (w : WaitCpl) : State :=
  if resetting s w.f then s
  else if !s.hif.linkTrained then cplLost s w.f
  else if !w.command && !isSet s (qp w.f w.q Reg.QP_CTL) F.QP_CTL_EN then cplLost s w.f
  else if !waits s w.f w.q && !cqFull s w.f w.q then writeCpl s w
  else if !w.command && decide (256 ≤ holdLen s w.f) then cplLost s w.f
  else { s with hif := { s.hif with waiting := s.hif.waiting ++ [w] } }

/-- Takes the first completion that waits for a CQ out of a list. -/
def takeWaiting (f q : Nat) : List WaitCpl → Option (WaitCpl × List WaitCpl)
  | [] => none
  | w :: ws =>
    if w.f = f ∧ w.q = q then some (w, ws)
    else (takeWaiting f q ws).map fun (x, r) => (x, w :: r)

/-- Space in a CQ is given to what waits for it, in order. `fuel` bounds the completions. -/
def flushCq : Nat → State → Nat → Nat → State
  | 0, s, _, _ => s
  | n + 1, s, f, q =>
    if cqFull s f q then s
    else match takeWaiting f q s.hif.waiting with
      | none => s
      | some (w, rest) => flushCq n (writeCpl { s with hif := { s.hif with waiting := rest } } w) f q

/-- Words of a completion's fields. -/
def words (ns : List Nat) : List Word := ns.map fun n => BitVec.ofNat 32 n

/-- A completion that answers no command (R434): KIND 1 SLOT_DONE, 2 EVENT, to CQ TL_CTL.CQ of a timeline's owner. -/
def postEvent (s : State) (tl kind : Nat) (fields : List Nat) : State :=
  let f := fld s (Reg.TL_CTL tl) F.TL_CTL_OWNER
  let q := fld s (Reg.TL_CTL tl) F.TL_CTL_CQ
  postCpl s { f := f, q := q, command := false, imm := false, words := words ((0xFFFF + kind * 2 ^ 16) :: fields) }

/-- Command status codes (R428). -/
abbrev stOK : Nat := 0
abbrev stBADOP : Nat := 1
abbrev stBADPARAM : Nat := 2
abbrev stDENIED : Nat := 3
abbrev stBUSY : Nat := 4
abbrev stRINGFULL : Nat := 5
abbrev stVALIDATION : Nat := 6
abbrev stDMAERR : Nat := 7
abbrev stGONE : Nat := 8
abbrev stMISSED : Nat := 9
abbrev stMGMTTIMEOUT : Nat := 10
abbrev stMGMTERR : Nat := 11
abbrev stUNSUPPORTED : Nat := 12
abbrev stSLOTFAIL : Nat := 13
abbrev stCOPYERR : Nat := 14

/-- A command in flight, by its sequence number. -/
def cmd? (s : State) (n : Nat) : Option InFlight := s.hif.cmds.find? fun c => decide (c.seq = n)

/-- A command completes with a status and the words from 0x04 on (R426). -/
def completeCmd (s : State) (n status : Nat) (fields : List Nat) : State :=
  match cmd? s n with
  | none => s
  | some c =>
    let s := { s with hif := { s.hif with cmds := s.hif.cmds.filter fun x => decide (x.seq ≠ n) } }
    let s := inc s (fnKey c.f Reg.HIF_CMD_CNT)
    postCpl s { f := c.f, q := c.q, command := true, imm := c.imm,
                words := words ((c.cid + status * 2 ^ 24) :: (fields ++ [0, 0, 0, 0, 0]).take 5) }

/-- Management firmware answers a request of the mailbox (R433): the command completes with ACODE and 16 bytes. -/
def answerMail (s : State) (m : Mail) (acode : Nat) (bytes : List Byte) : State :=
  let s := { s with hif := { s.hif with mail := s.hif.mail.filter fun x => decide (x.seq ≠ m.seq) } }
  completeCmd s m.seq (if acode = 0 then stOK else stMGMTERR) (acode % 2 ^ 16 :: (upto 4).map fun i => leAt bytes (4 * i) 4)

end Sys2Proof.Machine
end

