-- ==== Sys2Proof/Machine/Dma.lean ====
section
/-! DEFINITION. DMA channels (R326 to R348): starting, moving bytes, CRCs, chains, pacing, errors, stops and faults.
Channels are numbered 0 to 127. -/

namespace Sys2Proof.Machine

/-- A channel beside its registers. -/
def chan (s : State) (k : Nat) : ChS := Tab.get (fun _ => {}) s.dma k

/-- Changes it. -/
def updCh (s : State) (k : Nat) (g : ChS → ChS) : State := { s with dma := Tab.upd (fun _ => {}) s.dma k g }

/-- A register of a channel. -/
def chReg (k : Nat) (r : Nat → Nat → Nat) : Nat := r (k / 16) (k % 16)

/-- A field of CH_CTRL, of CH_CFG. -/
def chCtl (s : State) (k : Nat) (f : Fld) : Nat := fld s (chReg k Reg.CH_CTRL) f
def chCfg (s : State) (k : Nat) (f : Fld) : Nat := fld s (chReg k Reg.CH_CFG) f

/-- CH_STATUS.STATE: 0 IDLE, 1 RUN, 2 WAITREQ, 3 DRAIN, 4 HALTED, 5 FENCED, 6 RETIRED. -/
def chState (s : State) (k : Nat) : Nat :=
  if unitSt s (uDma (k / 16)) = 3 then 6 else fld s (chReg k Reg.CH_STATUS) F.CH_STATUS_STATE

/-- Sets STATE, ERR. -/
def setChState (s : State) (k v : Nat) : State := setFld s (chReg k Reg.CH_STATUS) F.CH_STATUS_STATE v
def setChErr (s : State) (k v : Nat) : State := setFld s (chReg k Reg.CH_STATUS) F.CH_STATUS_ERR v
def chErr (s : State) (k : Nat) : Nat := fld s (chReg k Reg.CH_STATUS) F.CH_STATUS_ERR

/-- Is a channel RUN, WAITREQ or DRAIN? -/
def chBusy (s : State) (k : Nat) : Bool := decide (1 ≤ chState s k ∧ chState s k ≤ 3)

/-- Does a channel belong to dispatch (R342)? -/
def chDisp (s : State) (k : Nat) : Bool := bitAt (rd s (Reg.TLN_DMA_CH (k / 32))).toNat (k % 32)

/-- Function of a channel. -/
def chFunc (s : State) (k : Nat) : Nat := chCfg s k F.CH_CFG_FUNC

/-- Who issues a channel's device accesses. -/
def dmaIssuer (s : State) (k : Nat) : Issuer := accIssuer (k / 32) 3 (uDma (k / 16)) (chFunc s k)

/-- An event of a channel; when enabled it raises the channel's vector (R436). -/
def chEvt (s : State) (k : Nat) (f : Fld) : State :=
  let a := chReg k Reg.CH_EVT
  let was := isSet s a f
  let s := evt s a f
  if !was && isSet s (chReg k Reg.CH_EVT_EN) f && chCfg s k F.CH_CFG_IRQ_EN = 1
  then cqMessage s (chFunc s k) (chCfg s k F.CH_CFG_VECTOR) else s

/-! ## Errors (R337, R338) -/

/-- Error codes of CH_STATUS.ERR above the response codes. -/
abbrev eCHAIN : Nat := 6
abbrev eBADDESC : Nat := 7
abbrev eSTOPPED : Nat := 8
abbrev eFAULT : Nat := 9
abbrev eHOST : Nat := 10

/-- A channel stops issuing, with the first error's code and address, and drains. -/
def chStop (s : State) (k code addr : Nat) : State :=
  let s := if chErr s k = 0 then wr64 (setChErr s k code) (chReg k Reg.CH_ERR_ADDR_LO) addr else s
  updCh (setChState s k 3) k fun x => { x with active := false, data := [] }

/-- A stop that no access caused keeps the error address. -/
def chStopNoAddr (s : State) (k code : Nat) : State :=
  let s := if chErr s k = 0 then setChErr s k code else s
  updCh (setChState s k 3) k fun x => { x with active := false, data := [] }

/-- A channel halts with an error. -/
def chHalt (s : State) (k : Nat) : State :=
  let s := updCh (inc (setChState s k 4) (Reg.DMA_ERR_CNT (k / 16))) k fun x => { x with poly := 7, stopAt := false }
  chEvt s k F.CH_EVT_ERROR

/-- A START or a descriptor that is refused with BAD_DESC. -/
def chBadDesc (s : State) (k : Nat) : State :=
  chHalt (updCh (setChErr s k eBADDESC) k fun x => { x with active := false, fetch := false }) k

/-! ## CRC (R332, R333) -/

/-- Bytes of an appended CRC. -/
def crcLen (p : Nat) : Nat := if p = 6 then 4 else if 7 ≤ p then 0 else ((crcPoly p).1 + 7) / 8

/-- An appended CRC: most significant bit first, zeros in the unused low bits; CRC-32C little-endian. -/
def crcAppend (p v : Nat) : List Byte :=
  if p = 6 then leBytes 4 v else (leBytes (crcLen p) (v * 2 ^ (crcLen p * 8 - (crcPoly p).1))).reverse

/-- Does the transfer in progress compute a CRC and store it by bit `b` of CRC_MODE? -/
def crcStores (s : State) (k b : Nat) : Bool :=
  decide ((chan s k).poly ≠ 7) && bitAt (chCtl s k F.CH_CTRL_CRC_MODE) b

/-! ## Issuing (R329 to R331, R340) -/

/-- Length of a host access of at most `n` bytes: within a 4 KiB boundary and 512 bytes. (DEDUCED, unsafe: log 128) -/
def hostChunk (a n : Nat) : Nat := min (min n 512) (4096 - a % 4096)

/-- Source and destination of the transfer. -/
def chSrc (s : State) (k : Nat) : Nat := rd64 s (chReg k Reg.CH_SRC_LO)
def chDst (s : State) (k : Nat) : Nat := rd64 s (chReg k Reg.CH_DST_LO)
def chCount (s : State) (k : Nat) : Nat := fld s (chReg k Reg.CH_COUNT) F.CH_COUNT_COUNT

/-- Reads, writes outstanding of an engine. -/
def engReads (s : State) (d : Nat) : Nat := ((upto 16).map fun c => (chan s (d * 16 + c)).reads.length).sum
def engWrites (s : State) (d : Nat) : Nat := ((upto 16).map fun c => (chan s (d * 16 + c)).writes.length).sum

/-- Bytes of a burst. -/
def burstLen (s : State) (k : Nat) : Nat := 2 ^ (chCfg s k F.CH_CFG_BURST_LOG2 + 3)

/-- Length of the next read: within its side's boundary, the burst, and short of bytes the same read's data are written
to. (DESIGN CHOICE, safe: log 129) -/
def readLen (s : State) (k : Nat) : Nat :=
  let x := chan s k
  let a := chSrc s k + x.rdOff
  let host := chCtl s k F.CH_CTRL_SRC_HOST = 1
  let n := chCount s k - x.rdOff
  let n := if host then hostChunk a n else chunk a n
  let n := if chCfg s k F.CH_CFG_REQ_EN = 1 then min n x.burst else n
  let gap := chDst s k - chSrc s k
  if chCtl s k F.CH_CTRL_SRC_HOST = chCtl s k F.CH_CTRL_DST_HOST ∧ gap ≠ 0 then min n gap else n

/-- Does a read have to wait for an earlier write of the transfer (R330)? -/
def readWaits (s : State) (k n : Nat) : Bool :=
  let x := chan s k
  let a := chSrc s k + x.rdOff
  decide (chCtl s k F.CH_CTRL_SRC_HOST = chCtl s k F.CH_CTRL_DST_HOST)
    && decide (a < chDst s k + x.rdOff ∧ chDst s k + x.wDone < a + n)

/-- The channel samples its request level for a new burst (R340): the burst starts, or the channel waits.
(DESIGN CHOICE, safe: log 129) -/
def sampleLevel (s : State) (k : Nat) : State :=
  if isSet s (chReg k Reg.CH_STATUS) F.CH_STATUS_LEVEL then
    let n := burstLen s k
    updCh (setChState s k 1) k fun x => { x with burst := n, bursts := (x.bursts + 1) % 2 ^ 16 }
  else setChState s k 2

/-- Issues the next read, if the channel may. -/
def issueRead (s : State) (k : Nat) : Option State :=
  let x := chan s k
  let n := readLen s k
  if !x.active || chState s k ≠ 1 || chCount s k ≤ x.rdOff || 32 ≤ x.reads.length || 128 ≤ engReads s (k / 16) || n = 0
      || readWaits s k n then none
  else
    let s := updCh s k fun x => { x with reads := x.reads ++ [(x.rdOff, n)], rdOff := x.rdOff + n, burst := x.burst - n }
    some (if chCfg s k F.CH_CFG_REQ_EN = 1 ∧ (chan s k).burst = 0 ∧ (chan s k).rdOff < chCount s k then sampleLevel s k else s)

/-- Issues the next write, if its bytes have arrived. -/
def issueWrite (s : State) (k : Nat) : Option State :=
  let x := chan s k
  let a := chDst s k + x.wrOff
  let n := x.total - x.wrOff
  let n := if chCtl s k F.CH_CTRL_DST_HOST = 1 then hostChunk a n else chunk a n
  if !x.active || n = 0 || x.data.length < n || 32 ≤ x.writes.length || 128 ≤ engWrites s (k / 16) then none
  else
    some (updCh s k fun x =>
      { x with writes := x.writes ++ [(x.wrOff, x.data.take n)], data := x.data.drop n, wrOff := x.wrOff + n })

/-- Is a channel in chain mode? -/
def chChain (s : State) (k : Nat) : Bool := decide (chCtl s k F.CH_CTRL_CHAIN = 1)

/-- Issues what the channel may issue; after the last write of a transfer the channel drains. `fuel` bounds the accesses. -/
def pump : Nat → State → Nat → State
  | 0, s, _ => s
  | n + 1, s, k =>
    if s.pwr.clocksStopped then s else
    match issueWrite s k with
    | some s => pump n s k
    | none =>
      match issueRead s k with
      | some s => pump n s k
      | none =>
        let x := chan s k
        if x.active && decide (x.wrOff = x.total) && !chChain s k then
          updCh (setChState s k 3) k fun x => { x with active := false }
        else s

/-- Accesses that one event can free. -/
abbrev pumpFuel : Nat := 256

/-! ## Starting a transfer or a descriptor -/

/-- Is an address of `n` bytes good in its space (R327)? -/
def rangeOk (host : Bool) (a n : Nat) : Bool := host || decide (a < 2 ^ 48 ∧ a + n ≤ 2 ^ 48)

/-- The transfer that the registers describe begins (R326, R332). -/
def beginTransfer (s : State) (k : Nat) : State :=
  let n := chCount s k
  let s := wr s (chReg k Reg.CH_DONE_BYTES) 0
  let p := chCtl s k F.CH_CTRL_POLY
  let s := if chCtl s k F.CH_CTRL_CRC_INIT = 1 then
      updCh s k fun x => { x with poly := p, crc := if p = 7 then 0 else crcInit p } else s
  let w := if crcStores s k 0 && decide (n ≠ 0) then crcLen (chan s k).poly else 0
  let s := updCh s k fun x =>
    { x with rdOff := 0, wrOff := 0, total := n + w, reads := [], data := [], writes := [], wDone := 0, wb := false,
             stored := false, active := true, burst := 0 }
  let s := setChState s k 1
  if n = 0 then s
  else if chCfg s k F.CH_CFG_REQ_EN = 1 then sampleLevel s k else s

/-- Is a channel able to accept a START (R328), ownership apart? -/
def startable (s : State) (k : Nat) : Bool :=
  decide (chState s k = 0 ∨ chState s k = 4) && isSet s (Reg.DMA_CTL (k / 16)) F.DMA_CTL_EN
    && decide (unitSt s (uDma (k / 16)) = 0)

/-- An accepted START: a transfer, or the fetch of the first descriptor. (DEDUCED, unsafe: log 128) -/
def startChannel (s : State) (k : Nat) : State :=
  let s := wakeIdle s (16 + k / 32)
  let s := wr (wr (setChErr s k 0) (chReg k Reg.CH_DONE_BYTES) 0) (chReg k Reg.CH_DESC_CNT) 0
  let s := updCh s k fun x => { x with bursts := 0, stopAt := false, fetch := false, reads := [], writes := [], data := [] }
  if chChain s k then updCh (setChState s k 1) k fun x => { x with fetch := true, active := false }
  else
    let n := chCount s k
    if !rangeOk (chCtl s k F.CH_CTRL_SRC_HOST = 1) (chSrc s k) n || !rangeOk (chCtl s k F.CH_CTRL_DST_HOST = 1) (chDst s k) n
    then chBadDesc s k
    else
      let s := beginTransfer s k
      if n = 0 then chEvt (setChState (updCh s k fun x => { x with active := false }) k 0) k F.CH_EVT_DONE
      else pump pumpFuel s k

/-- Is a POLY value reserved for the channel's function (R440)? -/
def polyReserved (s : State) (k p : Nat) : Bool := decide (p = 6) && !accepted s (chFunc s k) 7

/-- RW bits of CH_CTRL. -/
abbrev ctlRw : Word := 0x20000FFF

/-- The RW fields of a write of CH_CTRL; a reserved POLY leaves its field unchanged (R11). -/
def ctlStore (s : State) (k : Nat) (v : Word) : Word :=
  let w := v &&& ctlRw
  if polyReserved s k (getF v F.CH_CTRL_POLY) then putF w F.CH_CTRL_POLY (chCtl s k F.CH_CTRL_POLY) else w

/-- STOP (R338). (DEDUCED, unsafe: log 130) -/
def chStopCmd (s : State) (k : Nat) : State :=
  let s := updCh s k fun x => { x with poly := 7 }
  if chBusy s k then chStopNoAddr s k eSTOPPED else s

/-- A write of CH_CTRL (R326, R328, R338); `disp`: by a supervisor, which alone starts dispatch channels. -/
def ctlWrite (s : State) (k : Nat) (v : Word) (disp : Bool) : State :=
  let busy (s : State) := chEvt s k F.CH_EVT_WBUSY
  let new := ctlStore s k v
  let old := rd s (chReg k Reg.CH_CTRL) &&& ctlRw
  if getF v F.CH_CTRL_STOP = 1 then
    let s := if chBusy s k && new ≠ old then busy s else s
    chStopCmd s k
  else if chBusy s k then busy s
  else
    let s := wr s (chReg k Reg.CH_CTRL) new
    if getF v F.CH_CTRL_START = 0 then s
    else if chDisp s k && !disp then chEvt s k F.CH_EVT_DISP_OWNED
    else if startable s k then startChannel s k
    else busy s

/-! ## The end of a descriptor, of a chain, of a transfer (R335, R336) -/

/-- A descriptor is complete. -/
def descNext (s : State) (k : Nat) : State :=
  let s := if chCtl s k F.CH_CTRL_IRQ = 1 then chEvt s k F.CH_EVT_DESC else s
  let s := updCh (inc s (chReg k Reg.CH_DESC_CNT)) k fun x => { x with active := false, wb := false }
  if chCtl s k F.CH_CTRL_END = 1 then setChState s k 3
  else
    let s := wr64 s (chReg k Reg.CH_DESC_LO) (chan s k).next
    if (chan s k).stopAt then chStopNoAddr s k eSTOPPED
    else if (rd s (chReg k Reg.CH_DESC_CNT)).toNat = fld s (Reg.DMA_CHAIN_MAX (k / 16)) F.DMA_CHAIN_MAX_MAX then
      chStopNoAddr s k eCHAIN
    else updCh s k fun x => { x with fetch := true }

/-- Every byte of a transfer or descriptor has been written: its CRC is placed in CH_CRC_RESULT. -/
def storeResult (s : State) (k : Nat) : State :=
  let x := chan s k
  if chCount s k ≠ 0 ∧ crcStores s k 1 = true then
    wr s (chReg k Reg.CH_CRC_RESULT) (BitVec.ofNat 32 (crcRead x.poly x.crc)) else s

/-- Every write of a descriptor has been answered: its write-back, then the next descriptor. -/
def descDone (s : State) (k : Nat) : State :=
  let stored := decide (chCount s k ≠ 0) && (crcStores s k 0 || crcStores s k 1)
  let x := chan s k
  let s := storeResult s k
  if chCtl s k F.CH_CTRL_WB = 1 ∧ accepted s (chFunc s k) 8 = true then
    let crc := if stored then crcRead x.poly x.crc else 0
    updCh s k fun x => { x with wb := true, active := false,
                                writes := [(0x38, leBytes 4 crc ++ leBytes 4 (1 + stored.toNat * 2))] }
  else descNext s k

/-- Is the descriptor in progress finished but for what follows it? -/
def descOver (s : State) (k : Nat) : Bool :=
  let x := chan s k
  chChain s k && x.active && x.writes.isEmpty && x.reads.isEmpty && decide (x.wrOff = x.total)

/-- After an event: issue, and end a descriptor that is over. -/
def chGo (s : State) (k : Nat) : State :=
  let s := pump pumpFuel s k
  if descOver s k && decide (chErr s k = 0) then descDone s k else s

/-- Every response has arrived (R336): the channel completes, or halts. -/
def drainDone (s : State) (k : Nat) : State :=
  let x := chan s k
  if chState s k ≠ 3 ∨ !x.reads.isEmpty ∨ !x.writes.isEmpty ∨ x.fetch then s
  else if chErr s k ≠ 0 then chHalt s k
  else
    let s := if chChain s k then s else storeResult s k
    chEvt (updCh (setChState s k 0) k fun x => { x with stopAt := false }) k F.CH_EVT_DONE

/-! ## Responses -/

/-- A read's response. -/
def chReadDone (s : State) (k off n code : Nat) (bs : List Byte) : State :=
  let s := updCh s k fun x => { x with reads := x.reads.drop 1 }
  if chErr s k ≠ 0 then s
  else if code ≠ OKAY then chStop s k code (chSrc s k + off)
  else
    let s := updCh s k fun x =>
      { x with data := x.data ++ bs, crc := if x.poly = 7 then x.crc else crcBytes x.poly x.crc bs }
    let x := chan s k
    let s := if off + n = chCount s k ∧ x.total ≠ chCount s k then
        updCh s k fun x => { x with data := x.data ++ crcAppend x.poly (crcRead x.poly x.crc) } else s
    chGo s k

/-- A write's response. DONE_BYTES counts data bytes. -/
def chWriteDone (s : State) (k off n code : Nat) : State :=
  let x := chan s k
  let s := updCh s k fun x => { x with writes := x.writes.drop 1, wDone := off + n }
  if code ≠ OKAY then
    chStop s k code (if x.wb then rd64 s (chReg k Reg.CH_DESC_LO) + 0x38 else chDst s k + off)
  else if x.wb then (if chErr s k = 0 then descNext s k else s)
  else
    let s := wr s (chReg k Reg.CH_DONE_BYTES) (BitVec.ofNat 32 (min (off + n) (chCount s k)))
    if chErr s k ≠ 0 then s else chGo s k

/-! ## Descriptors (R334) -/

/-- Is a descriptor good? -/
def chDescOk (s : State) (k : Nat) (b : List Byte) : Bool :=
  let w (o : Nat) := leAt b o 4
  let ctl := w 0x14
  let n := w 0x10
  decide (n ≤ 16777216 ∧ ctl < 2 ^ 12 ∧ w 0x18 % 64 = 0) && ((b.drop 0x20).take 0x18).all (fun x => decide (x = 0))
    && !polyReserved s k (bits ctl 3 3)
    && rangeOk (bitAt ctl 0) (leAt b 0 8) n && rangeOk (bitAt ctl 1) (leAt b 8 8) n

/-- A descriptor has been read. -/
def descLoaded (s : State) (k code : Nat) (b : List Byte) : State :=
  let s := updCh s k fun x => { x with fetch := false }
  if chErr s k ≠ 0 then s
  else if code ≠ OKAY then chStop s k code (rd64 s (chReg k Reg.CH_DESC_LO))
  else if !chDescOk s k b then chBadDesc s k
  else
    let s := wr64 (wr64 s (chReg k Reg.CH_SRC_LO) (leAt b 0 8)) (chReg k Reg.CH_DST_LO) (leAt b 8 8)
    let s := wr s (chReg k Reg.CH_COUNT) (BitVec.ofNat 32 (leAt b 0x10 4))
    let old := rd s (chReg k Reg.CH_CTRL)
    let s := wr s (chReg k Reg.CH_CTRL) ((old &&& 0x20000000) ||| BitVec.ofNat 32 (leAt b 0x14 4 % 2 ^ 12))
    let s := updCh s k fun x => { x with next := leAt b 0x18 8, descHost := getF old F.CH_CTRL_NEXT_HOST = 1 }
    chGo (beginTransfer s k) k

/-! ## Pacing (R339, R340) -/

/-- A write of a request word sets the level. -/
def requestWrite (s : State) (k : Nat) (v : Nat) : State :=
  setFld s (chReg k Reg.CH_STATUS) F.CH_STATUS_LEVEL (v % 2)

/-- A read of a request word. -/
def requestRead (s : State) (k : Nat) : Nat :=
  fld s (chReg k Reg.CH_STATUS) F.CH_STATUS_LEVEL + (chan s k).bursts * 2 ^ 16

/-- A waiting channel samples its level as 1. -/
def waitreqResume (s : State) (k : Nat) : State :=
  if chState s k = 2 ∧ isSet s (chReg k Reg.CH_STATUS) F.CH_STATUS_LEVEL = true then chGo (sampleLevel s k) k else s

/-! ## Strip stops and unit faults (R347, R348) -/

/-- The strip's controller asks its running channels to stop at their next descriptor boundary. -/
def stripStopDma (s : State) (q : Nat) : State :=
  (upto 32).foldl (fun s i =>
    let k := q * 32 + i
    if chBusy s k then updCh s k fun x => { x with stopAt := true } else s) s

/-- A channel has not reached a boundary in time. -/
def dmaStopTimeout (s : State) (k : Nat) : State :=
  if chBusy s k && (chan s k).stopAt then chStopCmd s k else s

/-- Does a channel of a strip still run? -/
def stripDmaBusy (s : State) (q : Nat) : Bool := (upto 32).any fun i => chBusy s (q * 32 + i)

/-- A DMA engine faults: its channels halt with FAULT, and it is fenced. (DEDUCED, unsafe: log 130) -/
def dmaFault (s : State) (d kind : Nat) : State :=
  let u := uDma d
  if discards s u || !domLive s (16 + d / 2) then s
  else
    let s := (upto 16).foldl (fun s c =>
      let k := d * 16 + c
      let s := updCh (setChErr s k eFAULT) k fun x =>
        { x with active := false, reads := [], writes := [], data := [], fetch := false }
      setChState (chHalt s k) k 5) s
    unitFault s u kind 0 0

/-- The engine returns: its channels are HALTED with FAULT. -/
def dmaReturn (s : State) (d : Nat) : State :=
  (upto 16).foldl (fun s c => if fld s (Reg.CH_STATUS d c) F.CH_STATUS_STATE = 5 then setChState s (d * 16 + c) 4 else s) s

/-! ## Dispatch (R342) -/

/-- A supervisor programs a dispatch channel in register mode and starts it. -/
def dispatchChannel (s : State) (k func : Nat) (srcHost dstHost : Bool) (src dst n poly mode : Nat) : State :=
  let cfg := rd s (chReg k Reg.CH_CFG)
  let cfg := putF (putF (putF (putF cfg F.CH_CFG_FUNC func) F.CH_CFG_VN 0) F.CH_CFG_REQ_EN 0) F.CH_CFG_BURST_LOG2 3
  let s := wr s (chReg k Reg.CH_CFG) cfg
  let s := wr64 (wr64 s (chReg k Reg.CH_SRC_LO) src) (chReg k Reg.CH_DST_LO) dst
  let s := wr s (chReg k Reg.CH_COUNT) (BitVec.ofNat 32 n)
  ctlWrite s k (BitVec.ofNat 32 (srcHost.toNat + dstHost.toNat * 2 + poly * 8 + 2 ^ 6 + mode * 2 ^ 7 + 2 ^ 30)) true

end Sys2Proof.Machine
end

