-- ==== Sys2Proof/Machine/Engine.lean ====
section
/-! DEFINITION. The signal engine's pipeline (chapter 03): registers with writes in flight, bundles, hardware loops,
exceptions. A slot B command leaves its results in the bundle that is being formed; the slot A command that follows
issues the bundle. -/

namespace Sys2Proof.Machine

/-! ## Special registers (R140) -/

abbrev Sr.ESTAT : Nat := 0x00
abbrev Sr.EPC : Nat := 0x01
abbrev Sr.ECAUSE : Nat := 0x02
abbrev Sr.EADDR : Nat := 0x03
abbrev Sr.EIE : Nat := 0x04
abbrev Sr.EIP : Nat := 0x05
abbrev Sr.ECYC_LO : Nat := 0x06
abbrev Sr.ECYC_HI : Nat := 0x07
abbrev Sr.ECMP : Nat := 0x08
abbrev Sr.EID : Nat := 0x09
abbrev Sr.ETIME_LO : Nat := 0x0A
abbrev Sr.ETIME_HI : Nat := 0x0B
abbrev Sr.VCTL : Nat := 0x10
abbrev Sr.VST_LO : Nat := 0x11
abbrev Sr.VST_HI : Nat := 0x12
abbrev Sr.SST : Nat := 0x13
abbrev Sr.FST : Nat := 0x14
abbrev Sr.VL : Nat := 0x15
abbrev Sr.VFX : Nat := 0x16
abbrev Sr.RB : Nat := 0x17
abbrev Sr.LC (n : Nat) : Nat := 0x18 + n
abbrev Sr.LS (n : Nat) : Nat := 0x1B + n
abbrev Sr.LE (n : Nat) : Nat := 0x1E + n
abbrev Sr.WIN (n : Nat) : Nat := 0x24 + n
abbrev Sr.CB (n : Nat) : Nat := 0x30 + n
abbrev Sr.CL (n : Nat) : Nat := 0x40 + n

/-- Is a special-register number listed? -/
def srExists (n : Nat) : Bool :=
  decide (n ≤ 0x0B ∨ (0x10 ≤ n ∧ n ≤ 0x20) ∨ (0x24 ≤ n ∧ n ≤ 0x27) ∨ (0x30 ≤ n ∧ n ≤ 0x4F))

/-- Bits of a special register that MTS writes; for a W1C register, the bits it may clear. -/
def srMask (n : Nat) : Nat :=
  if n = Sr.ESTAT then 7
  else if n = Sr.EPC then 0x7FF8
  else if n = Sr.EIE ∨ n = Sr.EIP then 0xF
  else if n = Sr.ECMP ∨ n = Sr.VST_LO ∨ n = Sr.VST_HI then 0xFFFFFFFF
  else if n = Sr.VCTL ∨ n = Sr.SST then 3
  else if n = Sr.FST then 0x1F
  else if n = Sr.VL then 0x1FFF
  else if n = Sr.VFX then 0x3FF
  else if n = Sr.RB then 0xF
  else if 0x18 ≤ n ∧ n ≤ 0x1A then 0x80FFFFFF
  else if 0x1B ≤ n ∧ n ≤ 0x20 then 0x7FF8
  else if 0x24 ≤ n ∧ n ≤ 0x27 then 0x3FFFFFF
  else if 0x30 ≤ n ∧ n ≤ 0x3F then 0xFFFFFFFF
  else if 0x40 ≤ n ∧ n ≤ 0x4F then 0xFFFFFF
  else 0

/-- Is a special register of type W1C? -/
def srW1c (n : Nat) : Bool := decide (n = Sr.EIP ∨ (Sr.VST_LO ≤ n ∧ n ≤ Sr.FST))

/-- Latency of MTS (R95). -/
def srLat (n : Nat) : Nat :=
  if n = Sr.VL ∨ n = Sr.RB then 2
  else if (0x18 ≤ n ∧ n ≤ 0x20) ∨ (0x24 ≤ n ∧ n ≤ 0x27) ∨ 0x30 ≤ n then 4 else 1

/-- The value of a special register. -/
def EngS.srN (x : EngS) (n : Nat) : Nat := (x.sr.getD n 0).toNat

/-- Sets a special register. -/
def EngS.setSr (x : EngS) (n v : Nat) : EngS := { x with sr := x.sr.set n (BitVec.ofNat 32 v) }

/-- Bits that MTS of `v` writes (R9, R11): a reserved ESIZE, or a COUNT whose elements exceed 512 bytes, leaves its field
unchanged. -/
def srWriteMask (x : EngS) (n v : Nat) : Nat :=
  if n = Sr.VL then
    let es := if bits v 10 2 = 3 then bits (x.srN Sr.VL) 10 2 else bits v 10 2
    let keepSize := if bits v 10 2 = 3 then 0x13FF else 0x1FFF
    if 512 < bits v 0 10 * 2 ^ es * (1 + bits v 12 1) then keepSize &&& 0x1C00 else keepSize
  else if srW1c n then v &&& srMask n
  else srMask n

/-- Is a stretch protected now (R96): no interrupt can be taken? -/
def EngS.protect (x : EngS) : Bool :=
  !bitAt (x.srN Sr.ESTAT) 0 || bitAt (x.srN Sr.ESTAT) 2 || x.early

/-! ## Writes in flight (R94, R97) -/

/-- A value with the bits of a mask replaced. -/
def mergeN (cur mask val : Nat) : Nat := (cur ^^^ (cur &&& mask)) ||| (val &&& mask)

/-- A write lands. -/
def EngS.land1 (x : EngS) (w : InFl) : EngS :=
  match w.dst with
  | .s r => if r = 0 then x else { x with scal := x.scal.set r (BitVec.ofNat 32 w.val) }
  | .v k => { x with vec := x.vec.set k (BitVec.ofNat 4096 (mergeN (x.vec.getD k 0).toNat w.mask w.val)) }
  | .p n => if n = 0 then x
    else { x with pred := x.pred.set n (BitVec.ofNat 512 (mergeN (x.pred.getD n 0).toNat w.mask w.val)) }
  | .acc n => { x with acc := x.acc.set n (BitVec.ofNat 2560 w.val) }
  | .sr n => x.setSr n (mergeN (x.srN n) w.mask w.val)
  | .flag n => x.setSr n (x.srN n ||| w.val)
  | .accov => if x.accov.isNone then { x with accov := some w.val } else x

/-- Is a write one of MTS? Those land before the sticky bits of the same cycle (R12). -/
def InFl.isMts (w : InFl) : Bool :=
  match w.dst with
  | .sr _ => true
  | _ => false

/-- The writes that are due land, in program order (R97). -/
def EngS.landDue (x : EngS) : EngS :=
  let due := x.fl.filter fun w => decide (w.left = 0)
  let x := { x with fl := x.fl.filter fun w => decide (w.left ≠ 0) }
  (due.filter (·.isMts) ++ due.filter fun w => !w.isMts).foldl EngS.land1 x

/-- One issue cycle passes. -/
def EngS.cycle (x : EngS) : EngS :=
  let x := EngS.landDue { x with fl := x.fl.map fun w => { w with left := w.left - 1 } }
  { x with fl := x.fl.map fun w => { w with prot := w.prot && x.protect } }

/-- Issue cycles pass. (DEDUCED, unsafe: log 106) -/
def EngS.cycles : Nat → EngS → EngS
  | 0, x => x
  | n + 1, x => EngS.cycles n x.cycle

/-- The longest time a write is in flight is below this. -/
abbrev flightMax : Nat := 40

/-- Every result in flight lands (R122, R565). The cycles are no issue cycles: an ACCOV that is not due stays so.
(DEDUCED, unsafe: log 106) -/
def EngS.drain (x : EngS) : EngS :=
  let wait := x.fl.filter fun w => decide (w.dst = .accov)
  let x := EngS.cycles flightMax { x with fl := x.fl.filter fun w => decide (w.dst ≠ .accov) }
  { x with fl := wait, cp0 := x.cp0N.getD x.cp0, cp0N := none, cp1 := x.cp1N.getD x.cp1, cp1N := none,
           cp3 := x.cp3N.getD x.cp3, cp3N := none }

/-- The writes in flight that a predicate picks, in the order in which they land. -/
def EngS.inFlight (x : EngS) (p : EDst → Bool) : List InFl :=
  (upto flightMax).flatMap fun n => x.fl.filter fun w => decide (w.left = n) && p w.dst

/-- A register is read (R96): the landed value, or, when a write in flight has not stayed in a protected stretch, freely
that or what some of the writes in flight will leave. (DEDUCED, unsafe: log 105) -/
def readOld (s : State) (cur : Nat) (ws : List InFl) : Nat × State :=
  if ws.all (·.prot) then (cur, s)
  else
    let (j, s) := freeBelow (ws.length + 1) s
    ((ws.take j).foldl (fun v w => mergeN v w.mask w.val) cur, s)

/-- A scalar register (R179) is read; G0 reads zero (R136). -/
def rdS (s : State) (e r : Nat) : Nat × State :=
  if r = 0 then (0, s)
  else
    let x := eng s e
    readOld s (x.scal.getD r 0).toNat (x.inFlight fun d => decide (d = .s r))

/-- A predicate is read; P0 reads all ones (R150). -/
def rdP (s : State) (e n : Nat) : Nat × State :=
  if n = 0 then (2 ^ 512 - 1, s)
  else
    let x := eng s e
    readOld s (x.pred.getD n 0).toNat (x.inFlight fun d => decide (d = .p n))

/-- An accumulator is read out. -/
def rdAcc (s : State) (e n : Nat) : Nat × State :=
  let x := eng s e
  readOld s (x.acc.getD n 0).toNat (x.inFlight fun d => decide (d = .acc n))

/-- A stored special register is read. -/
def rdSr (s : State) (e n : Nat) : Nat × State :=
  let x := eng s e
  readOld s (x.srN n) (x.inFlight fun d => decide (d = .sr n) || decide (d = .flag n))

/-- The physical register that Vk names (R118). -/
def EngS.phys (x : EngS) (k : Nat) : Nat := if k < 16 then k else 16 + (k - 16 + bits (x.srN Sr.RB) 0 4) % 16

/-- Bits of beat `b` of a vector register. -/
def beatMask (b : Nat) : Nat := (2 ^ 1024 - 1) * 2 ^ (1024 * b)

/-- Beat `b` of a write in flight, as a reader finds it (R146, R147): landed in time for a reader in beat order, or not; before
that the old value stands in a protected stretch of single-beat instructions, and a free mixture of old and new otherwise.
(DEDUCED, unsafe: log 105) -/
def rdBeat (beats : Nat) (cross : Bool) (w : InFl) (vs : Nat × State) (b : Nat) : Nat × State :=
  let m := w.mask &&& beatMask b
  if m = 0 then vs
  else if w.left ≤ (if cross then 0 else b) then (mergeN vs.1 m w.val, vs.2)
  else if w.prot && decide (w.beats ≤ 1 ∧ beats ≤ 1) then vs
  else
    let (c, s) := freeBool vs.2
    (if c then mergeN vs.1 m w.val else vs.1, s)

/-- Vk is read by an instruction of so many beats, in beat order or across beats. -/
def rdV (s : State) (e k beats : Nat) (cross : Bool) : Nat × State :=
  let x := eng s e
  let p := x.phys k
  (x.inFlight fun d => decide (d = .v p)).foldl (fun vs w => (upto 4).foldl (rdBeat beats cross w) vs)
    ((x.vec.getD p 0).toNat, s)

/-- Fk is read (R137). -/
def rdF (s : State) (e k : Nat) : Nat × State :=
  let (v, s) := rdV s e k 1 false
  (v % 2 ^ 64, s)

/-- A write of a scalar register. -/
def toS (r lat v : Nat) : InFl := { left := lat, dst := .s r, mask := 2 ^ 32 - 1, val := v % 2 ^ 32 }

/-- A write of Fk: bits [63:0] of the register that Vk names. -/
def toF (x : EngS) (k lat v : Nat) : InFl := { left := lat, dst := .v (x.phys k), mask := 2 ^ 64 - 1, val := v % 2 ^ 64 }

/-- A write of a predicate: all 512 bits (R152). -/
def toP (n lat v : Nat) : InFl := { left := lat, dst := .p n, mask := 2 ^ 512 - 1, val := v }

/-- A write of a physical vector register: beat k lands k cycles after beat 0 (R146). -/
def toV (k lat beats mask v : Nat) : List InFl :=
  ((upto 4).filter fun b => decide (mask &&& beatMask b ≠ 0)).map fun b =>
    { left := lat + b, dst := .v k, mask := mask &&& beatMask b, val := v, beats := beats }

/-- A write of bytes `lo` to `lo + n − 1` of a physical register, in one beat. -/
def toBytes (k lat lo n v : Nat) : InFl :=
  { left := lat, dst := .v k, mask := (2 ^ (8 * n) - 1) * 2 ^ (8 * lo), val := v * 2 ^ (8 * lo) }

/-- Sticky flags set. -/
def toFlag (n lat v : Nat) : List InFl := if v = 0 then [] else [{ left := lat, dst := .flag n, mask := v, val := v }]

/-! ## Cycles -/

/-- ECYC counts (R140): the issue cycles and a free number of frozen ones. (DESIGN CHOICE, safe: log 104) -/
def countCycles (s : State) (e n : Nat) : State :=
  let (f, s) := free 32 s
  updEng s e fun x =>
    let c := x.srN Sr.ECYC_LO + 2 ^ 32 * x.srN Sr.ECYC_HI + n + f
    (x.setSr Sr.ECYC_LO c).setSr Sr.ECYC_HI (c / 2 ^ 32)

/-! ## Exceptions (R119 to R128) -/

/-- May a bundle of the engine issue? (DEDUCED, safe: log 145) -/
def EngS.ready (x : EngS) : Bool :=
  x.run && !x.ended && x.exc.isNone && x.frozen.isNone && x.fault.isNone

/-- An exception is taken: its bundle is squashed, and no bundle issues until the handler is entered (R565). -/
def takeExc (s : State) (e code epc eaddr : Nat) (imprecise : Bool) : State :=
  updEng s e fun x =>
    { x with exc := some ⟨code, imprecise, epc, some eaddr⟩, slotB := none, frozen := none }

/-- The engine finds a fault in itself; it issues nothing more. The first one stands. -/
def engFault (s : State) (e kind site addr : Nat) : State :=
  updEng s e fun x => if x.fault.isNone then { x with fault := some (kind, site, addr), slotB := none, frozen := none } else x

/-- What falls due at a bundle boundary before interrupts (R202): an imprecise ACCESS, then an ACCOV. -/
def atBoundary (s : State) (e : Nat) : Option State :=
  let x := eng s e
  match x.impAcc, x.accov with
  | some a, _ => some (takeExc (setEng s e { x with impAcc := none, accov := none }) e 5 x.pc a true)
  | none, some a => some (takeExc (setEng s e { x with accov := none }) e 7 x.pc a false)
  | none, none => none

/-- Is the PC at LEn of an active level (R117)? -/
def EngS.atLoopEnd (x : EngS) : Bool :=
  (upto 3).any fun n => decide (x.srN (Sr.LC n) % 2 ^ 24 ≠ 0) && decide (x.srN (Sr.LE n) = x.pc)

/-! ## The tile's CP3 (R225, R226) -/

/-- The CP3 of a tile. -/
def cp3U (s : State) (t : Nat) : Cp3U := Tab.get (fun _ => {}) s.cp3 t

/-- Sets the CP3 of a tile. -/
def setCp3U (s : State) (t : Nat) (x : Cp3U) : State := { s with cp3 := Tab.put (fun _ => {}) s.cp3 t x }

/-- Sets DMREF.REASON of a context. -/
def Cp3S.reason (c : Cp3S) (r : Nat) : Cp3S := { c with ref := putF c.ref { lo := 0, width := 2 } r }

/-- A refusal in a context. -/
def Cp3S.refuse (c : Cp3S) (r : Nat) : Cp3S :=
  { c.reason r with ref := putF (c.reason r).ref { lo := 16, width := 16 } (c.ref.toNat / 2 ^ 16 + 1) }

/-- Why CP3 refuses a DMAP of an engine, if it does: 1 BUSY, 2 FENCED, 3 RETIRED. (DEDUCED, unsafe: log 109) -/
def cp3Refusal (s : State) (e : Nat) : Option Nat :=
  let u := uCp3 (e / 8)
  if unitSt s u = 3 then some 3
  else if unitSt s u ≠ 0 ∨ fenced s u then some 2
  else match (cp3U s (e / 8)).busy with
    | some b => if b = e then none else some 1
    | none => none

/-- The DMAP of a bundle reaches E1: accepted, or refused and counted. (DEDUCED, unsafe: log 109) -/
def cp3Arbitrate (s : State) (e : Nat) : Bool × State :=
  match cp3Refusal s e with
  | some r =>
    (false, updEng s e fun x => { x with cp3 := x.cp3.refuse r, cp3N := x.cp3N.map fun c => c.refuse r })
  | none =>
    let s := setCp3U s (e / 8) { busy := some e, last := e % 8 }
    (true, updEng s e fun x =>
      { x with cp3 := x.cp3.reason 0, cp3N := x.cp3N.map fun c => c.reason 0,
               slotB := x.slotB.map fun b => { b with cp3 := b.cp3.map fun c => c.reason 0 } })

/-- The DMAP of a squashed bundle frees CP3. -/
def cp3Squash (s : State) (e : Nat) : State :=
  if (eng s e).slotB.any (·.dmap) then setCp3U s (e / 8) { cp3U s (e / 8) with busy := none } else s

/-! ## Issue of a bundle -/

/-- What the slot A instruction brings to the checks of R200 and R177: UNDEF, ILLEGAL, BRK, a branch, a memory access of
R177, TEND. -/
structure SlotA where
  undef : Bool := false
  illegal : Bool := false
  brk : Bool := false
  branch : Bool := false
  mem : Bool := false
  tend : Bool := false

/-- Does the bundle raise ILLEGAL (R117, R177, R200)? -/
def EngS.illegal (x : EngS) (a : SlotA) : Bool :=
  a.illegal || (a.branch && x.atLoopEnd) || (a.mem && x.slotB.any (·.image)) || (a.tend && x.slotB.any (·.busy))

/-- A slot A command: at a bundle boundary what falls due is taken first (R202); then the precise causes of the bundle in
the order of R201; then `k` completes the bundle. (DEDUCED, safe: log 102) -/
def issue (s : State) (e : Nat) (a : SlotA) (k : State → State) : State :=
  let x := eng s e
  if !x.ready || s.pwr.clocksStopped then s
  else match (if x.slotB.isNone then atBoundary s e else none) with
    | some t => t
    | none =>
      if x.size ≤ x.pc then takeExc s e 3 x.pc 0 false
      else if a.undef || x.slotB.any (·.undef) then takeExc s e 1 x.pc 0 false
      else if x.illegal a then takeExc s e 2 x.pc 0 false
      else if a.brk then takeExc s e 8 x.pc 0 false
      else
        let (ok, s) := if x.slotB.any (·.dmap) then cp3Arbitrate s e else (true, s)
        if !ok then takeExc s e 1 x.pc 0 false
        else match x.slotB.bind (·.flt) with
          | some (code, addr) => takeExc s e code x.pc addr false
          | none => k s

/-- The loop-end check (R116) of level `n` and the levels after it: the next PC. -/
def loopEnd : List Nat → EngS → Nat × EngS
  | [], x => ((x.pc + 8) % 2 ^ 15, x)
  | n :: ns, x =>
    let lc := x.srN (Sr.LC n)
    if lc % 2 ^ 24 ≠ 0 ∧ x.pc = x.srN (Sr.LE n) then
      let x := if bitAt lc 31 then x.setSr Sr.RB ((x.srN Sr.RB + 15) % 16) else x
      if 1 < lc % 2 ^ 24 then (x.srN (Sr.LS n), x.setSr (Sr.LC n) (lc - 1))
      else loopEnd ns (x.setSr (Sr.LC n) (lc - lc % 2 ^ 24))
    else loopEnd ns x

/-- Where the engine goes after a bundle: on; on, after the cost of a taken branch (ISYNC); to a target. -/
inductive Flow where
  | seq | far | go (t : Nat)

/-- The slot B part of the bundle takes effect: its writes join those in flight behind slot A's, the accumulator and the
coprocessors move on, a CPSAVE stores its image. -/
def commitB (s : State) (e : Nat) (fl : List InFl) : State :=
  let x := eng s e
  let p := x.protect
  let guardFl := fun l => (l : List InFl).map fun w => { w with prot := p }
  match x.slotB with
  | none => setEng s e { x with fl := x.fl ++ guardFl fl }
  | some b =>
    let s := setEng s e { x with
      fl := x.fl ++ guardFl (fl ++ b.fl)
      accN := match b.acc with
        | some (n, v) => x.accN.set n v
        | none => x.accN
      cp0N := b.cp0.or x.cp0N
      cp1N := b.cp1.or x.cp1N
      cp3N := b.cp3.or x.cp3N
      slotB := none }
    b.store.foldl (fun s w => storeN s w.1 w.2) s

/-- The bundle issues and completes: loop-end check (R116), slot A's own effect on the engine, next PC, issue cycles. -/
def complete (s : State) (e : Nat) (fl : List InFl) (eff : EngS → EngS) (flow : EngS → Flow) : State :=
  let s := commitB s e fl
  let (next, x) := loopEnd [0, 1, 2] (eng s e)
  let fw := flow x
  let x := eff x
  let (pc, n) := match fw with
    | .seq => (next, 1)
    | .far => (next, 4)
    | .go t => (t % 2 ^ 15, 4)
  countCycles (setEng s e (EngS.cycles n { x with pc := pc })) e n

/-- A slot A instruction that only writes registers. -/
def completeFl (s : State) (e : Nat) (fl : List InFl) : State := complete s e fl id (fun _ => .seq)

/-- A slot B command: its results join the bundle that is being formed. A boundary comes first; a second slot B command for
one bundle does nothing. (DEDUCED, safe: log 102) -/
def slotB (s : State) (e : Nat) (k : State → SlotB × State) : State :=
  let x := eng s e
  if !x.ready || x.slotB.isSome || s.pwr.clocksStopped then s
  else match atBoundary s e with
    | some t => t
    | none =>
      let (b, s) := k s
      updEng s e fun x => { x with slotB := some b }

/-- Interrupt sources that are pending and enabled: the lowest CODE (R122). -/
def EngS.interrupt (x : EngS) : Option Nat :=
  (firstFrom (fun i => bitAt (x.srN Sr.EIP &&& x.srN Sr.EIE) i) 4 0).map (12 + ·)

/-- Entry to a handler in one step (R121), or the halt of R120 and R126 with an illegal-state fault. -/
def enterHandler (s : State) (e : Nat) : State :=
  let x := (eng s e).drain
  match x.exc with
  | none => s
  | some c =>
    let s := setEng s e { x with exc := none }
    if bitAt (x.srN Sr.ESTAT) 2 || decide (x.size ≤ c.code * 32) then engFault s e 3 12 0
    else updEng s e fun x =>
      let st := x.srN Sr.ESTAT
      let x := (x.setSr Sr.EPC c.epc).setSr Sr.ECAUSE (c.code + if c.imprecise then 16 else 0)
      let x := match c.eaddr with
        | some a => x.setSr Sr.EADDR a
        | none => x
      { x.setSr Sr.ESTAT (4 + 2 * (st % 2)) with pc := c.code * 32 }

end Sys2Proof.Machine
end

