-- ==== Sys2Proof/Machine/Fixed.lean ====
section
/-! DEFINITION. Fixed-point arithmetic (R129 to R135): rounding, saturation, redundant sign bits. -/

namespace Sys2Proof.Machine

/-- Right shift with rounding half up (R133). -/
def roundShift (a : Int) (s : Nat) : Int := if s = 0 then a else (a + 2 ^ (s - 1)) / 2 ^ s

/-- Division of an exact fraction with rounding half up. -/
def roundDiv (a : Int) (d : Nat) : Int := (2 * a + d) / (2 * d)

/-- Largest value of a signed type of `n` bits. -/
abbrev maxOf (n : Nat) : Int := 2 ^ (n - 1) - 1

/-- Smallest value of a signed type of `n` bits. -/
abbrev minOf (n : Nat) : Int := -2 ^ (n - 1)

/-- Saturation to a signed type of `n` bits, and whether it happened (R134). -/
def satN (n : Nat) (v : Int) : Int × Bool :=
  if maxOf n < v then (maxOf n, true) else if v < minOf n then (minOf n, true) else (v, false)

/-- Number of bits of a number. -/
def bitLen (v : Nat) : Nat := if v = 0 then 0 else Nat.log2 v + 1

/-- NORM of an element of `n` bits (R135): its redundant sign bits. -/
def normN (n v : Nat) : Nat :=
  let a := sgn n v
  n - 1 - bitLen (if a < 0 then -a - 1 else a).toNat

/-- EXP of an element (R135). -/
def expN (n v : Nat) : Nat := n - 1 - normN n v

end Sys2Proof.Machine
end

