-- ==== Sys2Proof/Machine/EngScalar.lean ====
section
/-! DEFINITION. Slot A: scalar arithmetic, control and special registers (R185 to R188). -/

namespace Sys2Proof.Machine

/-! ## Scalar arithmetic (R185) -/

/-- Does an S field name an A or M register? -/
def isAM (r : Nat) : Bool := decide (32 ≤ r)

/-- A scalar instruction of two sources: its legality, latency, and function with the SSAT flag. `am`: an A or M destination
is allowed (R180). -/
def alu2 (s : State) (e rd ra rb lat : Nat) (am bad : Bool) (f : Word → Word → Word × Bool) : State :=
  issue s e { undef := bad || (!am && isAM rd) } fun s =>
    let (a, s) := rdS s e ra
    let (b, s) := rdS s e rb
    let (v, sat) := f (BitVec.ofNat 32 a) (BitVec.ofNat 32 b)
    completeFl s e (toS rd lat v.toNat :: toFlag Sr.SST lat (if sat then 1 else 0))

/-- A scalar instruction of one source. -/
def alu1 (s : State) (e rd ra lat : Nat) (am bad : Bool) (f : Word → Word) : State :=
  issue s e { undef := bad || (!am && isAM rd) } fun s =>
    let (a, s) := rdS s e ra
    completeFl s e [toS rd lat (f (BitVec.ofNat 32 a)).toNat]

/-- A compare's result. -/
def b01 (b : Bool) : Word := if b then 1 else 0

/-- A signed sum or difference that saturates to 32 bits. -/
def satW (v : Int) : Word × Bool := let r := satN 32 v; (BitVec.ofInt 32 r.1, r.2)

/-- MULQ: the Q1.15 product, shifted right by 15 with rounding, saturated, sign-extended. -/
def mulQ (a b : Word) : Word × Bool :=
  let r := satN 16 (roundShift (sgn 16 a.toNat * sgn 16 b.toNat) 15)
  (BitVec.ofInt 32 r.1, r.2)

/-- ADD_SUB, R185: Scalar sum or difference modulo 2^32. -/
def execAddSub (e : Fin 1024) (sub : Bool) (rd ra rb : Fin 64) (s : State) : Res :=
  done (alu2 s e rd ra rb 1 true false fun a b => (if sub then a - b else a + b, false))

/-- AND_OR_XOR_ANDN, R185: Scalar bitwise operations. -/
def execAndOrXorAndn (e : Fin 1024) (op : Fin 4) (rd ra rb : Fin 64) (s : State) : Res :=
  done (alu2 s e rd ra rb 1 true false fun a b =>
    (match op with
     | 0 => a &&& b
     | 1 => a ||| b
     | 2 => a ^^^ b
     | 3 => a &&& ~~~b, false))

/-- SLL_SRL_SRA, R185: Scalar register shifts. -/
def execSllSrlSra (e : Fin 1024) (op : Fin 3) (rd ra rb : Fin 64) (s : State) : Res :=
  done (alu2 s e rd ra rb 1 true false fun a b =>
    let n := b.toNat % 32
    (match op with
     | 0 => a <<< n
     | 1 => a >>> n
     | 2 => a.sshiftRight n, false))

/-- ADDS_SUBS, R185: Saturating scalar sum or difference. -/
def execAddsSubs (e : Fin 1024) (sub : Bool) (rd ra rb : Fin 64) (s : State) : Res :=
  done (alu2 s e rd ra rb 1 false false fun a b => satW (if sub then a.toInt - b.toInt else a.toInt + b.toInt))

/-- MIN_MAX, R185: Signed scalar minimum or maximum. -/
def execMinMax (e : Fin 1024) (mx : Bool) (rd ra rb : Fin 64) (s : State) : Res :=
  done (alu2 s e rd ra rb 1 false false fun a b => (if (a.toInt < b.toInt) != mx then a else b, false))

/-- SEQ_SNE, R185: Scalar equality compares. -/
def execSeqSne (e : Fin 1024) (ne : Bool) (rd ra rb : Fin 64) (s : State) : Res :=
  done (alu2 s e rd ra rb 1 false false fun a b => (b01 (decide (a = b) != ne), false))

/-- SLT_SLTU, R185: Scalar less-than compares. -/
def execSltSltu (e : Fin 1024) (u : Bool) (rd ra rb : Fin 64) (s : State) : Res :=
  done (alu2 s e rd ra rb 1 false false fun a b => (b01 (if u then a.ult b else a.slt b), false))

/-- SLE_SLEU, R185: Scalar less-or-equal compares. -/
def execSleSleu (e : Fin 1024) (u : Bool) (rd ra rb : Fin 64) (s : State) : Res :=
  done (alu2 s e rd ra rb 1 false false fun a b => (b01 (if u then a.ule b else a.sle b), false))

/-- MUL, R185: Low 32 bits of a scalar product. -/
def execMul (e : Fin 1024) (rd ra rb : Fin 64) (s : State) : Res :=
  done (alu2 s e rd ra rb 2 false false fun a b => (a * b, false))

/-- MULH_MULHU, R185: High 32 bits of a scalar product. -/
def execMulhMulhu (e : Fin 1024) (u : Bool) (rd ra rb : Fin 64) (s : State) : Res :=
  done (alu2 s e rd ra rb 2 false false fun a b =>
    (if u then BitVec.ofNat 32 (a.toNat * b.toNat / 2 ^ 32) else BitVec.ofInt 32 (a.toInt * b.toInt / 2 ^ 32), false))

/-- MULQ, R185: Q1.15 multiply with rounding and saturation. -/
def execMulq (e : Fin 1024) (rd ra rb : Fin 64) (s : State) : Res :=
  done (alu2 s e rd ra rb 2 false false mulQ)

/-- NORMS, R185: Redundant sign bits of a 32-bit value. -/
def execNorms (e : Fin 1024) (bad : Bool) (rd ra : Fin 64) (s : State) : Res :=
  done (alu1 s e rd ra 1 false bad fun a => BitVec.ofNat 32 (normN 32 a.toNat))

/-- ADDI_SLTI, R185: Operations with a sign-extended immediate. -/
def execAddiSlti (e : Fin 1024) (slt : Bool) (rd ra : Fin 64) (imm : BitVec 14) (s : State) : Res :=
  done (alu1 s e rd ra 1 (!slt) false fun a =>
    if slt then b01 (a.slt (imm.signExtend 32)) else a + imm.signExtend 32)

/-- ANDI_ORI_XORI_SLTIU, R185: Operations with a zero-extended immediate. -/
def execAndiOriXoriSltiu (e : Fin 1024) (op : Fin 4) (rd ra : Fin 64) (imm : BitVec 14) (s : State) : Res :=
  done (alu1 s e rd ra 1 (decide (op ≠ 3)) false fun a =>
    let i := imm.zeroExtend 32
    match op with
    | 0 => a &&& i
    | 1 => a ||| i
    | 2 => a ^^^ i
    | 3 => b01 (a.ult i))

/-- Kind 3 is reserved. -/
def execSlliSrliSrai (e : Fin 1024) (bad : Bool) (op : Fin 4) (rd ra : Fin 64) (sh : Fin 32) (s : State) : Res :=
  done (alu1 s e rd ra 1 true (bad || decide (op = 3)) fun a =>
    match op with
    | 0 => a <<< sh.val
    | 1 => a >>> sh.val
    | _ => a.sshiftRight sh.val)

/-- MOVI, R185: Loads a sign-extended 20-bit immediate. -/
def execMovi (e : Fin 1024) (rd : Fin 64) (imm : BitVec 20) (s : State) : Res :=
  done (issue s e {} fun s => completeFl s e [toS rd 1 (imm.signExtend 32).toNat])

/-- MOVHI, R185: Sets the upper 16 bits of a register. -/
def execMovhi (e : Fin 1024) (bad : Bool) (rd : Fin 64) (imm : BitVec 16) (s : State) : Res :=
  done (alu1 s e rd rd 1 true bad fun a => (imm ++ a.extractLsb' 0 16 : BitVec 32))

/-! ## Control (R186) -/

/-- A taken branch, jump or return to `t` (R101). -/
def jumpTo (s : State) (e : Nat) (fl : List InFl) (eff : EngS → EngS) (t : EngS → Nat) : State :=
  complete s e fl eff fun x => .go (t x)

/-- Target of a relative branch: PC + 8 × off modulo 2^15 (R175). -/
def relTarget (pc : Nat) (off : Int) : Nat := wrapN 15 (pc + 8 * off)

/-- NOP in slot A issues the bundle; in slot B it leaves the slot empty. `bad`: the word of the slot has the major opcode of
NOP with a field set, or is a word that no instruction has (R174, R178). (DESIGN CHOICE, safe: log 103) -/
def execNop (e : Fin 1024) (bad inB : Bool) (s : State) : Res :=
  done (if inB then slotB s e fun s => ({ undef := bad, busy := bad }, s)
    else issue s e { undef := bad } fun s => completeFl s e [])

/-- TEND, R128: The task ends, and no later bundle issues. -/
def execTend (e : Fin 1024) (bad : Bool) (s : State) : Res :=
  done (issue s e { undef := bad, tend := true } fun s =>
    complete s e [] (fun x => { x with ended := true }) fun _ => .seq)

/-- RTE, R124: The engine returns from its handler to EPC and restores IE. -/
def execRte (e : Fin 1024) (bad : Bool) (s : State) : Res :=
  done (issue s e { undef := bad, branch := true, illegal := !bitAt ((eng s e).srN Sr.ESTAT) 2 } fun s =>
    jumpTo s e [] (fun x => x.setSr Sr.ESTAT (bits (x.srN Sr.ESTAT) 1 1 * 3)) fun x => x.srN Sr.EPC)

/-- Bundles come to the engine as commands, so what ISYNC makes visible to fetch is no state of the model (log). -/
def execIsync (e : Fin 1024) (bad : Bool) (s : State) : Res :=
  done (issue s e { undef := bad, branch := true } fun s => complete s e [] id fun _ => .far)

/-- BRK, R186: The engine raises BRK. -/
def execBrk (e : Fin 1024) (bad : Bool) (s : State) : Res :=
  done (issue s e { undef := bad, brk := true } id)

/-- TRAP is taken when its bundle has completed. -/
def execTrap (e : Fin 1024) (bad : Bool) (imm : Fin 256) (s : State) : Res :=
  done (issue s e { undef := bad } fun s =>
    complete s e [] id (fun _ => .seq) |> fun s => takeExc s e 9 (eng s e).pc imm false)

/-- JR, R186: The engine jumps to the address held in a register. -/
def execJr (e : Fin 1024) (bad : Bool) (rs : Fin 64) (s : State) : Res :=
  done (issue s e { undef := bad, branch := true } fun s =>
    let (a, s) := rdS s e rs
    jumpTo s e [] id fun _ => bits a 3 12 * 8)

/-- The condition of a branch. -/
def brCond (cond : Nat) (a : Int) : Bool :=
  match cond with
  | 0 => decide (a = 0)
  | 1 => decide (a ≠ 0)
  | 2 => decide (a < 0)
  | 3 => decide (0 ≤ a)
  | 4 => decide (0 < a)
  | _ => decide (a ≤ 0)

/-- BEQZ_BNEZ_BLTZ_BGEZ_BGTZ_BLEZ, R186: Conditional branch on a G register compared with zero. -/
def execBeqzBnezBltzBgezBgtzBlez (e : Fin 1024) (cond : Fin 8) (gs : Fin 32) (off : BitVec 18) (s : State) : Res :=
  done (issue s e { undef := decide (6 ≤ cond.val), branch := true } fun s =>
    let (a, s) := rdS s e gs
    if brCond cond (sgn 32 a) then jumpTo s e [] id fun x => relTarget x.pc off.toInt
    else completeFl s e [])

/-- J, R186: Unconditional jump. -/
def execJ (e : Fin 1024) (bad : Bool) (off : BitVec 24) (s : State) : Res :=
  done (issue s e { undef := bad, branch := true } fun s => jumpTo s e [] id fun x => relTarget x.pc off.toInt)

/-- CALL, R186: The engine writes G31 and jumps. -/
def execCall (e : Fin 1024) (bad : Bool) (off : BitVec 24) (s : State) : Res :=
  done (issue s e { undef := bad, branch := true } fun s =>
    jumpTo s e [toS 31 1 (((eng s e).pc + 8) % 2 ^ 15)] id fun x => relTarget x.pc off.toInt)

/-- LEn of a LOOP (R187). -/
def loopLast (pc last : Nat) : Nat := (pc + 8 * last) % 2 ^ 15

/-- Sets a loop level (R115). -/
def setLoop (x : EngS) (n count last : Nat) (rot : Bool) : EngS :=
  ((x.setSr (Sr.LC n) (count % 2 ^ 24 + if rot then 2 ^ 31 else 0)).setSr (Sr.LS n) ((x.pc + 8) % 2 ^ 15)).setSr (Sr.LE n)
    (loopLast x.pc last)

/-- `count` is the field [21:10]: an immediate, or with `g` a G register in its low five bits (R187). -/
def execLoop (e : Fin 1024) (n : Fin 4) (rot g : Bool) (count : BitVec 12) (last : BitVec 10) (s : State) : Res :=
  let pc := (eng s e).pc
  done (issue s e
    { undef := decide (n = 3) || (g && decide (32 ≤ count.toNat))
      illegal := decide (last = 0) || decide (loopLast pc last.toNat < (pc + 8) % 2 ^ 15) } fun s =>
    let (c, s) := if g then rdS s e count.toNat else (count.toNat, s)
    if c % 2 ^ 24 = 0 then
      jumpTo s e [] (fun x => setLoop x n 0 last.toNat rot) fun x => loopLast x.pc last.toNat + 8
    else complete s e [] (fun x => setLoop x n c last.toNat rot) fun _ => .seq)

/-! ## Special registers (R140) -/

/-- The write that MTS has in flight; none for a read-only register. (DEDUCED, unsafe: log 107) -/
def mtsFl (x : EngS) (n v : Nat) : List InFl :=
  if srMask n = 0 then []
  else [{ left := srLat n, dst := .sr n, mask := srWriteMask x n v, val := if srW1c n then 0 else v % 2 ^ 32 }]

/-- MTS, R186: Writes a special register. -/
def execMts (e : Fin 1024) (bad : Bool) (sr : Fin 128) (rs : Fin 64) (s : State) : Res :=
  done (issue s e { undef := bad || !srExists sr } fun s =>
    let (v, s) := rdS s e rs
    complete s e (mtsFl (eng s e) sr v) (fun x => if sr.val = Sr.ESTAT then { x with early := false } else x) fun _ => .seq)

/-- What MFS reads. ECYC and ETIME follow R15; ETIME is the sector's copy of TIM_RAW. (DEDUCED, unsafe: log 114) -/
def mfsValue (s : State) (e n : Nat) : Nat × State :=
  let x := eng s e
  if n = Sr.EID then (e, s)
  else if n = Sr.ECYC_LO then (x.srN n, setEng s e { x with cycHi := some (x.sr.getD Sr.ECYC_HI 0) })
  else if n = Sr.ECYC_HI then ((x.cycHi.getD (x.sr.getD Sr.ECYC_HI 0)).toNat, s)
  else if n = Sr.ETIME_LO then
    let (t, s) := copyNow s (e / 64)
    (t % 2 ^ 32, updEng s e fun x => { x with timHi := some (BitVec.ofNat 32 (t / 2 ^ 32)) })
  else if n = Sr.ETIME_HI then
    match x.timHi with
    | some h => (h.toNat, s)
    | none => let (t, s) := copyNow s (e / 64); (t / 2 ^ 32, s)
  else rdSr s e n

/-- MFS, R186: Reads a special register. -/
def execMfs (e : Fin 1024) (bad : Bool) (rd : Fin 64) (sr : Fin 128) (s : State) : Res :=
  done (issue s e { undef := bad || !srExists sr } fun s =>
    let (v, s) := mfsValue s e sr
    completeFl s e [toS rd 1 v])

/-! ## Interrupts and handlers -/

/-- ECYC[31:0] has come to equal ECMP (R119, R140): the cycles up to there have passed. (DESIGN CHOICE, safe: log 104) -/
def execIrqTimer (e : Fin 1024) (s : State) : Res :=
  done (updEng s e fun x =>
    let lo := x.srN Sr.ECYC_LO
    let c := lo + 2 ^ 32 * x.srN Sr.ECYC_HI + (x.srN Sr.ECMP + 2 ^ 32 - lo) % 2 ^ 32
    ((x.setSr Sr.ECYC_LO c).setSr Sr.ECYC_HI (c / 2 ^ 32)).setSr Sr.EIP (x.srN Sr.EIP ||| 2))

/-- An interrupt is accepted at a bundle boundary (R122, R123, R202). -/
def execInterruptAccept (e : Fin 1024) (s : State) : Res :=
  let x := eng s e
  done (
    if x.ready && x.slotB.isNone && !x.early && bitAt (x.srN Sr.ESTAT) 0 && !bitAt (x.srN Sr.ESTAT) 2 &&
        (atBoundary s e).isNone then
      match x.interrupt with
      | some c => takeExc s e c x.pc 0 false
      | none => s
    else s)

/-- HANDLER_ENTRY, R565: After the drain, the engine enters the handler of an exception or interrupt, or halts with an illegal-state fault. -/
def execHandlerEntry (e : Fin 1024) (s : State) : Res := done (enterHandler s e)

end Sys2Proof.Machine
end

