-- ==== Sys2Proof/Machine/EngMem.lean ====
section
/-! DEFINITION. Slot A: loads and stores (R104 to R114, R156 to R164, R189 to R191). -/

namespace Sys2Proof.Machine

/-! ## Addressing (R110 to R114) -/

/-- The address of an access: its byte 0, the circular buffer it walks (base, length, offset), and the new value of the
An it updates (number S, value). -/
structure Access where
  addr : Nat
  circ : Option (Nat × Nat × Nat)
  upd : Option (Nat × Nat)

/-- Are the mode and the unused high bits of its displacement legal (R184)? -/
def modeOk (mode disp : Nat) : Bool :=
  decide (mode ≠ 7) && (decide (mode ≠ 1) || decide (disp < 32)) && (decide (mode < 4) || decide (disp < 16))

/-- Reverse-carry addition over bits k − 1 to 0 (R113). (DEDUCED, unsafe: log 11) -/
def revCarry (k d m : Nat) : Nat :=
  ((upto k).foldr (fun b (cr : Nat × Nat) =>
    let t := bits d b 1 + bits m b 1 + cr.1
    (t / 2, cr.2 + t % 2 * 2 ^ b)) (0, 0)).2

/-- The circular update (R111). (DEDUCED, unsafe: log 11) -/
def circNext (an cb cl : Nat) (step : Int) : Nat :=
  if cl = 0 then wrapN 32 (an + step)
  else wrapN 32 (cb + ((wrapN 32 ((an : Int) - cb) : Nat) + step) % cl)

/-- The bit-reverse update (R113). -/
def revNext (an cb cl m : Nat) : Nat :=
  if cl = 0 then (an + m) % 2 ^ 32
  else
    let k := bitLen cl - 1
    (cb + revCarry k (wrapN 32 ((an : Int) - cb) % 2 ^ k) (m % 2 ^ k)) % 2 ^ 32

/-- The access address and update of a mode (R110); `imm` is the byte displacement of modes 0, 2 and 3, `disp` the register
field of the others. -/
def accessOf (s : State) (e mode an disp : Nat) (imm : Int) : Access × State :=
  let r := 32 + an
  let (a, s) := rdS s e r
  let x := eng s e
  let cb := x.srN (Sr.CB an)
  let cl := x.srN (Sr.CL an)
  match mode with
  | 0 => (⟨wrapN 32 (a + imm), none, none⟩, s)
  | 1 => let (k, s) := rdS s e disp; (⟨(a + k) % 2 ^ 32, none, none⟩, s)
  | 2 => (⟨wrapN 32 (a + imm), none, some (r, wrapN 32 (a + imm))⟩, s)
  | 3 => (⟨a, none, some (r, wrapN 32 (a + imm))⟩, s)
  | 4 => let (m, s) := rdS s e (48 + disp); (⟨a, none, some (r, (a + m) % 2 ^ 32)⟩, s)
  | 5 =>
    let (m, s) := rdS s e (48 + disp)
    let d := wrapN 32 ((a : Int) - cb)
    (⟨if cl = 0 then a else (cb + d % cl) % 2 ^ 32, if cl = 0 then none else some (cb, cl, d),
      some (r, circNext a cb cl (sgn 32 m))⟩, s)
  | _ => let (m, s) := rdS s e (48 + disp); (⟨a, none, some (r, revNext a cb cl m)⟩, s)

/-- Local address of byte `j` of an access (R112). -/
def Access.byte (c : Access) (j : Nat) : Nat :=
  match c.circ with
  | some (cb, cl, d) => (cb + (d + j) % cl) % 2 ^ 32
  | none => (c.addr + j) % 2 ^ 32

/-- Is an access aligned to its element size (R114)? -/
def Access.aligned (c : Access) (size : Nat) : Bool :=
  match c.circ with
  | some (cb, cl, d) => decide (cb % size = 0 ∧ cl % size = 0 ∧ d % size = 0)
  | none => decide (c.addr % size = 0)

/-- The write of An. -/
def updFl (u : Option (Nat × Nat)) : List InFl :=
  match u with
  | some (r, v) => [toS r 1 v]
  | none => []

/-! ## The local address space (R104, R105) -/

/-- Device address of an engine's own memories (R38). -/
def emBase (e : Nat) : Nat := 0x100000000000 + e / 8 * 0x1000000 + 0x100000 + e % 8 * 0x40000

/-- Device address of a tile's memory. -/
def tileBase (t : Nat) : Nat := 0x100000000000 + t * 0x1000000

/-- What a local address reaches: the device address and the path: 0 X, Y or instruction memory, 1 the tile's memory, 2 a
window; none where the access raises ACCESS. (DEDUCED, unsafe: log 108) -/
def place (x : EngS) (e a : Nat) : Option (Nat × Nat) :=
  if a < 0x28000 then some (emBase e + a, 0)
  else if 0x100000 ≤ a ∧ a < 0x200000 then some (tileBase (e / 8) + (a - 0x100000), 1)
  else if 0x1000000 ≤ a ∧ a < 0x5000000 then
    let w := x.srN (Sr.WIN (a / 0x1000000 - 1))
    if bitAt w 24 then some (w % 2 ^ 24 * 2 ^ 24 + a % 0x1000000, 2) else none
  else none

/-- The site of ECP_FLT for a local address. -/
def siteOf (a : Nat) : Nat :=
  if a < 0x10000 then 1 else if a < 0x20000 then 2 else if a < 0x28000 then 3 else if a < 0x200000 then 13 else 14

/-! ## Requests -/

/-- One byte more for a list of requests (newest first): it extends the last one, or begins another; requests through a
window end at 256-byte boundaries of the device address (R158). -/
def addReq (rs : List (Nat × Nat × Nat × Bool)) (a dev : Nat) (win : Bool) : List (Nat × Nat × Nat × Bool) :=
  match rs with
  | (la, d, n, w) :: t =>
    if la + n = a ∧ d + n = dev ∧ w = win ∧ !(win && decide (dev % 256 = 0)) then (la, d, n + 1, w) :: t
    else (a, dev, 1, win) :: rs
  | [] => [(a, dev, 1, win)]

/-- Puts a request among others in ascending device address. -/
def insReq (r : Nat × Nat × Nat × Bool) : List (Nat × Nat × Nat × Bool) → List (Nat × Nat × Nat × Bool)
  | [] => [r]
  | q :: t => if r.2.1 < q.2.1 then r :: q :: t else q :: insReq r t

/-- The requests that bytes at local addresses need, in ascending device address (R158). -/
def requests (x : EngS) (e : Nat) (addrs : List Nat) : List (Nat × Nat × Nat × Bool) :=
  (addrs.foldl (fun rs a =>
    match place x e a with
    | some (d, 1) => addReq rs a d false
    | some (d, 2) => addReq rs a d true
    | _ => rs) []).foldl (fun l r => insReq r l) []

/-- The byte that arrived for a local address. -/
def gotByte (got : List (Nat × Byte)) (a : Nat) : Byte :=
  match got.find? fun p => decide (p.1 = a) with
  | some p => p.2
  | none => 0

/-- Does a local address lie in a range that was answered with an error? -/
def inBad (bad : List (Nat × Nat)) (a : Nat) : Bool := bad.any fun r => decide (r.1 ≤ a ∧ a < r.1 + r.2)

/-- A fault of the bundle found at its memory access: squashed, with a DMAP it carries. -/
def squash (s : State) (e code addr : Nat) : State := takeExc (cp3Squash s e) e code (eng s e).pc addr false

/-- VFX names the first faulting element (R157). -/
def setVfx (s : State) (e i : Nat) : State := updEng s e fun x => x.setSr Sr.VFX (i % 512 + 512)

/-! ## Loads -/

/-- Size in bytes of a size code (R189). -/
def szBytes (sz : Nat) : Nat :=
  match sz with
  | 0 => 1 | 1 => 1 | 2 => 2 | 3 => 2 | 4 => 4 | 5 => 2 | 6 => 4 | _ => 8

/-- The register write of a scalar load. -/
def scalFl (x : EngS) (sz rt : Nat) (bs : List Byte) : InFl :=
  let v := leNat bs
  match sz with
  | 0 => toS rt 3 (wrapN 32 (sgn 8 v))
  | 2 => toS rt 3 (wrapN 32 (sgn 16 v))
  | 5 => toF x rt 3 v
  | 6 => toF x rt 3 v
  | 7 => toF x rt 3 v
  | _ => toS rt 3 v

/-- Mask and value that elements give their register. -/
def elemBits (got : List (Nat × Byte)) (es : List VElem) : Nat × Nat :=
  es.foldl (fun mv el =>
    (mv.1 ||| (2 ^ (8 * el.addrs.length) - 1) * 2 ^ (8 * el.off),
     mv.2 ||| leNat (el.addrs.map (gotByte got)) * 2 ^ (8 * el.off))) (0, 0)

/-- The register writes of a vector load. -/
def vecFl (got : List (Nat × Byte)) (es : List VElem) (lats : List (Nat × Nat)) (beats : Nat) : List InFl :=
  lats.flatMap fun rl =>
    let mv := elemBits got (es.filter fun el => decide (el.reg = rl.1))
    toV rl.1 rl.2 beats mv.1 mv.2

/-- The lowest element with a byte that was answered with an error. -/
def firstBad (bad : List (Nat × Nat)) (es : List VElem) : Option VElem :=
  (es.filter fun el => el.addrs.any (inBad bad)).foldl (fun o el =>
    match o with
    | some b => if el.idx < b.idx then some el else o
    | none => some el) none

/-- A load's data have all arrived: the bundle completes, or the load's fault squashes it (R106, R157, R160). -/
def finishLoad (s : State) (e : Nat) (f : Frozen) : State :=
  let s := updEng s e fun x => { x with frozen := none }
  let x := eng s e
  match f.op with
  | .scal sz rt addr =>
    if f.bad.isEmpty then
      completeFl s e (scalFl x sz rt ((upto (szBytes sz)).map fun j => gotByte f.got (addr + j)) :: updFl f.upd)
    else squash s e 5 addr
  | .vec es lats beats ff =>
    match firstBad f.bad es, ff with
    | none, _ => completeFl s e (vecFl f.got es lats beats ++ updFl f.upd)
    | some b, none => setVfx (squash s e 6 (b.addrs.headD 0)) e b.idx
    | some b, some (pg, size) =>
      let lat := match lats with
        | (_, l) :: _ => l
        | [] => 3
      let keep := 2 ^ (b.idx * size) - 1
      completeFl s e (vecFl f.got (es.filter fun el => decide (el.idx < b.idx)) lats beats ++
        [{ left := lat, dst := .p pg, mask := (2 ^ 512 - 1) ^^^ keep, val := 0 },
         { left := lat, dst := .sr Sr.VFX, mask := 0x3FF, val := b.idx % 512 + 512 }] ++ updFl f.upd)

/-- A load begins: bytes of X, Y and instruction memory are read at once; for the others the pipeline freezes (R106). -/
def beginLoad (s : State) (e : Nat) (op : LoadOp) (upd : Option (Nat × Nat)) (addrs : List Nat) (bad : List (Nat × Nat)) :
    State :=
  let x := eng s e
  let here := addrs.filterMap fun a =>
    match place x e a with
    | some (d, 0) => some (a, d)
    | _ => none
  match here.find? fun p => damagedIn s p.2 1 with
  | some p => engFault (cp3Squash s e) e 1 (siteOf p.1) p.1
  | none =>
    let f : Frozen := { op := op, upd := upd, reqs := requests x e addrs, bad := bad,
                        got := here.map fun p => (p.1, memGet s.mem p.2) }
    if f.reqs.isEmpty then finishLoad s e f else updEng s e fun x => { x with frozen := some f }

/-- Byte displacement of a MEM access. -/
def memImm (sz : Nat) (disp : BitVec 10) : Int := disp.toInt * szBytes sz

/-- Is the rt field of a size code legal: an F register has rt[5] = 0 (R189)? -/
def rtOk (sz rt : Nat) : Bool := decide (sz < 5) || decide (rt < 32)

/-- LD (R189). -/
def execLd (e : Fin 1024) (rt : Fin 64) (an : Fin 16) (mode sz : Fin 8) (disp : BitVec 10) (s : State) : Res :=
  let undef := !modeOk mode disp.toNat || !rtOk sz rt ||
    (decide (2 ≤ mode.val ∧ sz.val < 5) && decide (rt.val = 32 + an.val))
  done (issue s e { undef := undef, mem := true } fun s =>
    let (c, s) := accessOf s e mode an disp.toNat (memImm sz disp)
    let addrs := (upto (szBytes sz)).map c.byte
    if !c.aligned (szBytes sz) then squash s e 4 c.addr
    else if addrs.any fun a => (place (eng s e) e a).isNone then squash s e 5 c.addr
    else beginLoad s e (.scal sz rt c.addr) c.upd addrs [])

/-! ## Stores -/

/-- Bytes are stored: at once to the engine's own memories; posted to tile memory and through windows (R106). -/
def storeBytes (s : State) (e : Nat) (bs : List (Nat × Byte)) : State :=
  let x := eng s e
  let s := bs.foldl (fun s p =>
    match place x e p.1 with
    | some (d, 0) => storeN s d [p.2]
    | _ => s) s
  let posts := (requests x e (bs.map (·.1))).map fun r =>
    ({ seq := x.seq, addr := r.1, dev := r.2.1, win := r.2.2.2,
       data := (upto r.2.2.1).map fun j => gotByte bs (r.1 + j) } : EStore)
  setEng s e { x with stores := x.stores ++ posts, seq := x.seq + 1 }

/-- ST (R189); sizes 1 and 3 are reserved. The value stored is the one rt held before the update (R190). -/
def execSt (e : Fin 1024) (rt : Fin 64) (an : Fin 16) (mode sz : Fin 8) (disp : BitVec 10) (s : State) : Res :=
  let undef := !modeOk mode disp.toNat || !rtOk sz rt || decide (sz = 1 ∨ sz = 3)
  done (issue s e { undef := undef, mem := true } fun s =>
    let (v, s) := if sz.val < 5 then rdS s e rt else rdF s e rt
    let (c, s) := accessOf s e mode an disp.toNat (memImm sz disp)
    let addrs := (upto (szBytes sz)).map c.byte
    if !c.aligned (szBytes sz) then squash s e 4 c.addr
    else if addrs.any fun a => (place (eng s e) e a).isNone then squash s e 5 c.addr
    else completeFl (storeBytes s e (addrs.zip (leBytes (szBytes sz) v))) e (updFl c.upd))

/-! ## Element types (R142, R143, R181) -/

/-- An element type with its count: bytes of a part, complex or not, elements. -/
structure VTy where
  part : Nat
  cx : Bool
  n : Nat

/-- Bytes of an element. -/
def VTy.size (t : VTy) : Nat := if t.cx then 2 * t.part else t.part

/-- Bytes of an operand. -/
def VTy.len (t : VTy) : Nat := t.n * t.size

/-- Parts of an operand. -/
def VTy.parts (t : VTy) : Nat := if t.cx then 2 * t.n else t.n

/-- VL.COUNT in effect. -/
def EngS.count (x : EngS) : Nat := bits (x.srN Sr.VL) 0 10

/-- The type of VL; none for the reserved size. -/
def EngS.vl (x : EngS) : Option VTy :=
  let v := x.srN Sr.VL
  if bits v 10 2 = 3 then none else some { part := 2 ^ bits v 10 2, cx := bitAt v 12, n := bits v 0 10 }

/-- The type in effect for the field T; none where T or VL is reserved or the operand would exceed 512 bytes. -/
def EngS.ty (x : EngS) (t : Nat) : Option VTy :=
  let o := if t = 0 then x.vl
    else if t = 7 then none
    else some { part := 2 ^ ((t - 1) % 3), cx := decide (4 ≤ t), n := x.count }
  o.filter fun y => decide (y.len ≤ 512)

/-- Beats of an operand length (R144). -/
def beatsOf (len : Nat) : Nat := max 1 ((len + 127) / 128)

/-- Is element `i` active under a predicate (R151)? -/
def VTy.active (t : VTy) (p i : Nat) : Bool := decide (i < t.n) && bitAt p (i * t.size)

/-! ## Contiguous and structure forms (R156 to R161) -/

/-- The active elements of a record access: `n` fields of a record, field f in physical register `regs f`. -/
def recElems (t : VTy) (p : Nat) (c : Access) (regs : List Nat) : List VElem :=
  let n := regs.length
  ((upto t.n).filter (t.active p)).flatMap fun i =>
    (upto n).map fun f =>
      { idx := i, reg := regs.getD f 0, off := i * t.size
        addrs := (upto t.size).map fun j => c.byte (i * n * t.size + f * t.size + j) }

/-- The lowest element with a byte outside the regions of R104 or in a disabled window, and that byte. -/
def regionFault (x : EngS) (e : Nat) (es : List VElem) : Option (VElem × Nat) :=
  es.findSome? fun el =>
    match el.addrs.find? fun a => (place x e a).isNone with
    | some a => some (el, a)
    | none => none

/-- A vector load of elements in ascending index, with its faults. -/
def loadElems (s : State) (e : Nat) (es : List VElem) (fault : Option (VElem × Nat)) (lats : List (Nat × Nat)) (beats : Nat)
    (ff : Option (Nat × Nat)) (upd : Option (Nat × Nat)) : State :=
  match fault with
  | none => beginLoad s e (.vec es lats beats ff) upd (es.flatMap (·.addrs)) []
  | some (b, a) =>
    if ff.isSome then
      beginLoad s e (.vec es lats beats ff) upd ((es.filter fun el => decide (el.idx < b.idx)).flatMap (·.addrs)) [(a, 1)]
    else setVfx (squash s e 6 (b.addrs.headD 0)) e b.idx

/-- A contiguous or structure load of `n` registers from Vd on. -/
def vload (s : State) (e vd an mode pg n disp : Nat) (imm : Int) (ff : Bool) : State :=
  let x := eng s e
  let undef := !modeOk mode disp || decide (32 < vd + n) || (ff && decide (pg = 0)) || (x.ty 0).isNone
  issue s e { undef := undef, mem := true } fun s =>
    let t := (x.ty 0).getD ⟨1, false, 0⟩
    let (c, s) := accessOf s e mode an disp imm
    let (p, s) := rdP s e pg
    let b := beatsOf t.len
    let regs := (upto n).map fun j => x.phys (vd + j)
    let es := recElems t p c regs
    if !c.aligned t.part then squash s e 4 c.addr
    else loadElems s e es (regionFault (eng s e) e es) ((upto n).map fun j => (x.phys (vd + j), 3 + j * b)) b
      (if ff then some (pg, t.size) else none) c.upd

/-- Bytes of the elements, each read from the value of its register. -/
def elemBytes (vals : List (Nat × Nat)) (es : List VElem) : List (Nat × Byte) :=
  es.flatMap fun el =>
    let v := match vals.find? fun q => decide (q.1 = el.reg) with
      | some q => q.2
      | none => 0
    el.addrs.zip (leBytes el.addrs.length (v / 2 ^ (8 * el.off)))

/-- Reads `n` vector registers from Vk on, by physical number. -/
def rdVs (s : State) (e k beats : Nat) (cross : Bool) : Nat → List (Nat × Nat) × State
  | 0 => ([], s)
  | n + 1 =>
    let (l, s) := rdVs s e k beats cross n
    let (v, s) := rdV s e (k + n) beats cross
    (l ++ [((eng s e).phys (k + n), v)], s)

/-- A contiguous or structure store of `n` registers from Vs on. -/
def vstore (s : State) (e vs an mode pg n disp : Nat) (imm : Int) : State :=
  let x := eng s e
  let undef := !modeOk mode disp || decide (32 < vs + n) || (x.ty 0).isNone
  issue s e { undef := undef, mem := true } fun s =>
    let t := (x.ty 0).getD ⟨1, false, 0⟩
    let (c, s) := accessOf s e mode an disp imm
    let (p, s) := rdP s e pg
    let (vals, s) := rdVs s e vs (beatsOf t.len) (decide (1 < n)) n
    let es := recElems t p c ((upto n).map fun j => x.phys (vs + j))
    if !c.aligned t.part then squash s e 4 c.addr
    else match regionFault (eng s e) e es with
      | some (b, _) => setVfx (squash s e 6 (b.addrs.headD 0)) e b.idx
      | none => completeFl (storeBytes s e (elemBytes vals es)) e (updFl c.upd)

/-- VLD, R156: Contiguous vector load. -/
def execVld (e : Fin 1024) (vd : Fin 32) (an : Fin 16) (mode pg : Fin 8) (disp : BitVec 11) (s : State) : Res :=
  done (vload s e vd an mode pg 1 disp.toNat disp.toInt false)

/-- VLD_FF, R160: First-faulting contiguous vector load. -/
def execVldFf (e : Fin 1024) (vd : Fin 32) (an : Fin 16) (mode pg : Fin 8) (disp : BitVec 11) (s : State) : Res :=
  done (vload s e vd an mode pg 1 disp.toNat disp.toInt true)

/-- VSTR, R156: Contiguous vector store. -/
def execVstr (e : Fin 1024) (vs : Fin 32) (an : Fin 16) (mode pg : Fin 8) (disp : BitVec 11) (s : State) : Res :=
  done (vstore s e vs an mode pg 1 disp.toNat disp.toInt)

/-- `nf` + 1 registers; nf = 0 is reserved (R191). -/
def execLd2Ld3Ld4 (e : Fin 1024) (vd : Fin 32) (an : Fin 16) (mode pg : Fin 8) (nf : Fin 4) (disp : BitVec 9) (s : State) :
    Res :=
  done (if nf = 0 then issue s e { undef := true } id
    else vload s e vd an mode pg (nf + 1) disp.toNat disp.toInt false)

/-- ST2_ST3_ST4, R161: Structure store of n-field records. -/
def execSt2St3St4 (e : Fin 1024) (vs : Fin 32) (an : Fin 16) (mode pg : Fin 8) (nf : Fin 4) (disp : BitVec 9) (s : State) :
    Res :=
  done (if nf = 0 then issue s e { undef := true } id
    else vstore s e vs an mode pg (nf + 1) disp.toNat disp.toInt)

/-! ## Gather and scatter (R162 to R164) -/

/-- Is a VL type allowed in a gather or scatter: not real 8-bit, and an index operand of at most 512 bytes? -/
def gatherTy (x : EngS) : Option VTy := (x.ty 0).filter fun t => decide (t.size ≠ 1 ∧ t.n * 2 ≤ 512)

/-- The active elements of a gather or scatter: base, indices, register. -/
def idxElems (t : VTy) (p base vi reg : Nat) : List VElem :=
  ((upto t.n).filter (t.active p)).map fun i =>
    let a := (base + bits vi (16 * i) 16 * t.size) % 2 ^ 32
    { idx := i, reg := reg, off := i * t.size, addrs := (upto t.size).map fun j => (a + j) % 2 ^ 32 }

/-- Does a byte of a gather or scatter lie in X, Y or tile memory? -/
def gatherable (a : Nat) : Bool := decide (a < 0x20000 ∨ (0x100000 ≤ a ∧ a < 0x200000))

/-- The lowest element that faults: misaligned, or with a byte outside X, Y and tile memory. -/
def gatherFault (t : VTy) (es : List VElem) : Option (VElem × Nat) :=
  es.findSome? fun el =>
    let a := el.addrs.headD 0
    if a % t.part ≠ 0 then some (el, a)
    else match el.addrs.find? fun b => !gatherable b with
      | some b => some (el, b)
      | none => none

/-- A gather. A misaligned element of a first-faulting form cuts it off like any other fault. -/
def vgather (s : State) (e vd an vi pg : Nat) (bad ff : Bool) : State :=
  let x := eng s e
  issue s e { undef := bad || (ff && decide (pg = 0)) || (gatherTy x).isNone, mem := true } fun s =>
    let t := (gatherTy x).getD ⟨2, false, 0⟩
    let b := beatsOf (max t.len (t.n * 2))
    let (base, s) := rdS s e (32 + an)
    let (iv, s) := rdV s e vi b true
    let (p, s) := rdP s e pg
    let es := idxElems t p base iv (x.phys vd)
    match gatherFault t es with
    | none => beginLoad s e (.vec es [(x.phys vd, 5)] b (if ff then some (pg, t.size) else none)) none
        (es.flatMap (·.addrs)) []
    | some (f, _) =>
      if ff then
        let lo := es.filter fun el => decide (el.idx < f.idx)
        beginLoad s e (.vec (lo ++ [{ f with addrs := [2 ^ 32] }]) [(x.phys vd, 5)] b (some (pg, t.size))) none
          (lo.flatMap (·.addrs)) [(2 ^ 32, 1)]
      else setVfx (squash s e 6 (f.addrs.headD 0)) e f.idx

/-- VGATH, R163: All-or-nothing gather. -/
def execVgath (e : Fin 1024) (bad : Bool) (vd : Fin 32) (an : Fin 16) (vi : Fin 32) (pg : Fin 8) (s : State) : Res :=
  done (vgather s e vd an vi pg bad false)

/-- VGATH_FF, R160: First-faulting gather. -/
def execVgathFf (e : Fin 1024) (bad : Bool) (vd : Fin 32) (an : Fin 16) (vi : Fin 32) (pg : Fin 8) (s : State) : Res :=
  done (vgather s e vd an vi pg bad true)

/-- VSCAT; a set FF bit is reserved. Elements are written in ascending index, so the highest wins (R163). -/
def execVscat (e : Fin 1024) (bad ff : Bool) (vs : Fin 32) (an : Fin 16) (vi : Fin 32) (pg : Fin 8) (s : State) : Res :=
  let x := eng s e
  done (issue s e { undef := bad || ff || (gatherTy x).isNone, mem := true } fun s =>
    let t := (gatherTy x).getD ⟨2, false, 0⟩
    let b := beatsOf (max t.len (t.n * 2))
    let (base, s) := rdS s e (32 + an)
    let (iv, s) := rdV s e vi b true
    let (v, s) := rdV s e vs b true
    let (p, s) := rdP s e pg
    let es := idxElems t p base iv (x.phys vs)
    match gatherFault t es with
    | some (f, _) => setVfx (squash s e 6 (f.addrs.headD 0)) e f.idx
    | none => completeFl (es.foldl (fun s el => storeBytes s e (elemBytes [(x.phys vs, v)] [el])) s) e [])

end Sys2Proof.Machine
end

