-- ==== Sys2Proof/Machine/EngVec.lean ====
section
/-! DEFINITION. Slot B: vectors, predicates, accumulators, block floating point (R150 to R155, R165 to R172, R194 to R197). -/

namespace Sys2Proof.Machine

/-! ## Parts -/

/-- The first `n` fields of `w` bits of a value. -/
def splitN (w n v : Nat) : List Nat := (upto n).map fun i => bits v (i * w) w

/-- Fields of `w` bits put together, first at the bottom. -/
def packN (w : Nat) (l : List Nat) : Nat := l.foldr (fun x v => x % 2 ^ w + 2 ^ w * v) 0

/-- Bits of a part. -/
abbrev VTy.w (t : VTy) : Nat := 8 * t.part

/-- The element that part `j` belongs to. -/
def VTy.elemOf (t : VTy) (j : Nat) : Nat := if t.cx then j / 2 else j

/-- Mask of the active elements. -/
def VTy.mask (t : VTy) (p : Nat) : Nat :=
  packN (8 * t.size) ((upto t.n).map fun i => if t.active p i then 2 ^ (8 * t.size) - 1 else 0)

/-- A type with no elements, for where the checks have refused the type in effect. -/
def VTy.nil : VTy := ⟨1, false, 0⟩

/-- The type with that part size, real, and VL's count (VWID, VNRW, MAC). -/
def EngS.suffix (x : EngS) (part : Nat) (cx : Bool) : VTy := ⟨part, cx, x.count⟩

/-- A slot B instruction that is legal or raises UNDEF. -/
def vexec (s : State) (e : Nat) (undef : Bool) (k : EngS → State → SlotB × State) : State :=
  slotB s e fun s => if undef then ({ undef := true }, s) else k (eng s e) s

/-- The writes of a vector result with its VSAT flag. -/
def vres (x : EngS) (vd lat beats mask v : Nat) (sat : Bool) : SlotB :=
  { fl := toV (x.phys vd) lat beats mask v ++ toFlag Sr.SST lat (if sat then 2 else 0) }

/-- A part-by-part instruction: `f j a b` gives part `j` and whether it saturates; inactive elements keep their value. -/
def vparts (s : State) (e vd va vb pg lat t : Nat) (undef : EngS → VTy → Bool) (f : VTy → Nat → Nat → Nat → Nat × Bool) :
    State :=
  let ty := ((eng s e).ty t).getD VTy.nil
  vexec s e (((eng s e).ty t).isNone || undef (eng s e) ty) fun x s =>
    let b := beatsOf ty.len
    let (va', s) := rdV s e va b false
    let (vb', s) := rdV s e vb b false
    let (p, s) := rdP s e pg
    let res := (upto ty.parts).map fun j => f ty j (bits va' (j * ty.w) ty.w) (bits vb' (j * ty.w) ty.w)
    let sat := (upto ty.parts).any fun j => ty.active p (ty.elemOf j) && (res.getD j (0, false)).2
    (vres x vd lat b (ty.mask p) (packN ty.w (res.map (·.1))) sat, s)

/-- A signed result that saturates to the part. -/
def satPart (w : Nat) (v : Int) : Nat × Bool := let r := satN w v; (wrapN w r.1, r.2)

/-! ## Element arithmetic (R154, R194) -/

/-- VADD_VSUB, R194: Vector sum or difference modulo 2^size. -/
def execVaddVsub (e : Fin 1024) (sub : Bool) (vd va vb : Fin 32) (pg t : Fin 8) (s : State) : Res :=
  done (vparts s e vd va vb pg 2 t (fun _ _ => false) fun ty _ a b =>
    (wrapN ty.w (if sub then (a : Int) - b else a + b), false))

/-- VADDS_VSUBS, R194: Saturating vector sum or difference. -/
def execVaddsVsubs (e : Fin 1024) (sub : Bool) (vd va vb : Fin 32) (pg t : Fin 8) (s : State) : Res :=
  done (vparts s e vd va vb pg 2 t (fun _ _ => false) fun ty _ a b =>
    satPart ty.w (if sub then sgn ty.w a - sgn ty.w b else sgn ty.w a + sgn ty.w b))

/-- `t` other than 0 is UNDEF: the instruction is untyped (R181). -/
def execVandVorVxorVandn (e : Fin 1024) (op : Fin 4) (vd va vb : Fin 32) (pg t : Fin 8) (s : State) : Res :=
  done (vparts s e vd va vb pg 2 t (fun _ _ => decide (t ≠ 0)) fun _ _ a b =>
    (match op with
     | 0 => a &&& b
     | 1 => a ||| b
     | 2 => a ^^^ b
     | 3 => a ^^^ (a &&& b), false))

/-- VMOV, R194: Vector copy. -/
def execVmov (e : Fin 1024) (bad : Bool) (vd va : Fin 32) (pg t : Fin 8) (s : State) : Res :=
  done (vparts s e vd va va pg 2 t (fun _ _ => bad || decide (t ≠ 0)) fun _ _ a _ => (a, false))

/-- VMIN_VMAX, R194: Vector signed minimum or maximum. -/
def execVminVmax (e : Fin 1024) (mx : Bool) (vd va vb : Fin 32) (pg t : Fin 8) (s : State) : Res :=
  done (vparts s e vd va vb pg 2 t (fun _ _ => false) fun ty _ a b =>
    (if (decide (sgn ty.w a < sgn ty.w b)) != mx then a else b, false))

/-- VABS_VNEG, R194: Saturating vector absolute value or negation. -/
def execVabsVneg (e : Fin 1024) (bad neg : Bool) (vd va : Fin 32) (pg t : Fin 8) (s : State) : Res :=
  done (vparts s e vd va va pg 2 t (fun _ _ => bad) fun ty _ a _ =>
    let v := sgn ty.w a
    satPart ty.w (if neg || decide (v < 0) then -v else v))

/-- VCONJ, R194: Complex conjugate. -/
def execVconj (e : Fin 1024) (bad : Bool) (vd va : Fin 32) (pg t : Fin 8) (s : State) : Res :=
  done (vparts s e vd va va pg 2 t (fun _ ty => bad || !ty.cx) fun ty j a _ =>
    if j % 2 = 1 then satPart ty.w (-sgn ty.w a) else (a, false))

/-- The shift is below the part's width (R194). -/
def execVshlVshrVshrl (e : Fin 1024) (op : Fin 3) (vd va : Fin 32) (n : Fin 32) (pg t : Fin 8) (s : State) : Res :=
  done (vparts s e vd va va pg 2 t (fun _ ty => decide (ty.w ≤ n.val)) fun ty _ a _ =>
    (match op with
     | 0 => a * 2 ^ n.val % 2 ^ ty.w
     | 1 => wrapN ty.w (sgn ty.w a / 2 ^ n.val)
     | 2 => a / 2 ^ n.val, false))

/-- VSHLS, R194: Saturating vector left shift. -/
def execVshls (e : Fin 1024) (vd va : Fin 32) (n : Fin 32) (pg t : Fin 8) (s : State) : Res :=
  done (vparts s e vd va va pg 2 t (fun _ _ => false) fun ty _ a _ => satPart ty.w (sgn ty.w a * 2 ^ n.val))

/-- VSHRR, R194: Rounded vector right shift. -/
def execVshrr (e : Fin 1024) (vd va : Fin 32) (n : Fin 32) (pg t : Fin 8) (s : State) : Res :=
  done (vparts s e vd va va pg 2 t (fun _ _ => false) fun ty _ a _ =>
    (wrapN ty.w (roundShift (sgn ty.w a) n.val), false))

/-- Narrowing from twice the suffix width, `h` for .H (R154, R155). T must be 0. -/
def execVnrw (e : Fin 1024) (h : Bool) (vd va : Fin 32) (n : Fin 32) (pg t : Fin 8) (s : State) : Res :=
  let part := if h then 2 else 1
  let ty := (eng s e).suffix part false
  done (vexec s e (decide (t ≠ 0) || decide (512 < 2 * ty.len) || decide (16 * part ≤ n.val)) fun x s =>
    let b := beatsOf (2 * ty.len)
    let (a, s) := rdV s e va b true
    let (p, s) := rdP s e pg
    let res := (splitN (2 * ty.w) ty.n a).map fun v => satPart ty.w (roundShift (sgn (2 * ty.w) v) n.val)
    let sat := (upto ty.n).any fun i => ty.active p i && (res.getD i (0, false)).2
    (vres x vd 2 b (ty.mask p) (packN ty.w (res.map (·.1))) sat, s))

/-- Active elements from Va, the others from Vb; every element below COUNT is written. -/
def execVsel (e : Fin 1024) (vd va vb : Fin 32) (pn t : Fin 8) (s : State) : Res :=
  let ty := ((eng s e).ty t).getD VTy.nil
  done (vexec s e (((eng s e).ty t).isNone || decide (t ≠ 0)) fun x s =>
    let b := beatsOf ty.len
    let (a, s) := rdV s e va b false
    let (c, s) := rdV s e vb b false
    let (p, s) := rdP s e pn
    (vres x vd 2 b (2 ^ (8 * ty.len) - 1) (mergeN c (ty.mask p) a) false, s))

/-- Sign extension from half the suffix width, `w` for .W. T must be 0. -/
def execVwid (e : Fin 1024) (bad w : Bool) (vd va : Fin 32) (pg t : Fin 8) (s : State) : Res :=
  let ty := (eng s e).suffix (if w then 4 else 2) false
  done (vexec s e (bad || decide (t ≠ 0) || decide (512 < ty.len)) fun x s =>
    let b := beatsOf ty.len
    let (a, s) := rdV s e va b false
    let (p, s) := rdP s e pg
    (vres x vd 2 b (ty.mask p)
      (packN ty.w ((splitN (ty.w / 2) ty.n a).map fun v => wrapN ty.w (sgn (ty.w / 2) v))) false, s))

/-- VNORM_VEXP, R194: NORM or EXP of each element. -/
def execVnormVexp (e : Fin 1024) (bad ex : Bool) (vd va : Fin 32) (pg t : Fin 8) (s : State) : Res :=
  done (vparts s e vd va va pg 2 t (fun _ _ => bad) fun ty _ a _ =>
    (if ex then expN ty.w a else normN ty.w a, false))

/-! ## Permutes (R154) -/

/-- Elements of a vector value. -/
def VTy.elems (t : VTy) (n v : Nat) : List Nat := splitN (8 * t.size) n v

/-- A permute of the type in effect: its list of elements from the sources' values. -/
def vperm (s : State) (e vd va vb pg t len : Nat) (undef : Bool) (f : VTy → Nat → Nat → List Nat) (mask : VTy → Nat → Nat) :
    State :=
  let ty := ((eng s e).ty t).getD VTy.nil
  vexec s e (((eng s e).ty t).isNone || undef) fun x s =>
    let b := beatsOf len
    let (a, s) := rdV s e va b true
    let (c, s) := rdV s e vb b true
    let (p, s) := rdP s e pg
    (vres x vd 3 b (mask ty p) (packN (8 * ty.size) (f ty a c)) false, s)

/-- The destination holds 2 × COUNT elements. -/
def execVzip (e : Fin 1024) (bad : Bool) (vd va vb : Fin 32) (t : Fin 8) (s : State) : Res :=
  let len := 2 * (((eng s e).ty t).getD VTy.nil).len
  done (vperm s e vd va vb 0 t len (bad || decide (512 < len))
    (fun ty a c => (upto (2 * ty.n)).map fun i =>
      bits (if i % 2 = 0 then a else c) (i / 2 * 8 * ty.size) (8 * ty.size))
    fun ty _ => 2 ^ (16 * ty.len) - 1)

/-- The source holds 2 × COUNT elements; `odd` for .O. -/
def execVuzp (e : Fin 1024) (bad odd : Bool) (vd va : Fin 32) (t : Fin 8) (s : State) : Res :=
  let len := 2 * (((eng s e).ty t).getD VTy.nil).len
  done (vperm s e vd va va 0 t len (bad || decide (512 < len))
    (fun ty a _ => (upto ty.n).map fun i =>
      bits a ((2 * i + if odd then 1 else 0) * 8 * ty.size) (8 * ty.size))
    fun ty _ => 2 ^ (8 * ty.len) - 1)

/-- The index operand holds COUNT 16-bit elements. -/
def execVperm (e : Fin 1024) (vd va vi : Fin 32) (pg t : Fin 8) (s : State) : Res :=
  let ty := ((eng s e).ty t).getD VTy.nil
  done (vperm s e vd va vi pg t (max ty.len (2 * ty.n)) (decide (512 < 2 * ty.n))
    (fun ty a c => (upto ty.n).map fun i => bits a (bits c (16 * i) 16 % ty.n * 8 * ty.size) (8 * ty.size))
    fun ty p => ty.mask p)

/-- VDUP, R194: Duplicates one element into every active element. -/
def execVdup (e : Fin 1024) (bad : Bool) (vd va : Fin 32) (k : Fin 512) (pg t : Fin 8) (s : State) : Res :=
  let ty := ((eng s e).ty t).getD VTy.nil
  done (vperm s e vd va va pg t ty.len (bad || decide (512 < (k.val + 1) * ty.size))
    (fun ty a _ => (upto ty.n).map fun _ => bits a (k.val * 8 * ty.size) (8 * ty.size))
    fun ty p => ty.mask p)

/-- The type comes from VL alone; k is at most COUNT. -/
def execVsld (e : Fin 1024) (bad : Bool) (vd va vb : Fin 32) (k : Fin 1024) (s : State) : Res :=
  let ty := ((eng s e).ty 0).getD VTy.nil
  done (vperm s e vd va vb 0 0 ty.len (bad || decide (ty.n < k.val))
    (fun ty a c => ((ty.elems ty.n a ++ ty.elems ty.n c).drop k.val).take ty.n)
    fun ty _ => 2 ^ (8 * ty.len) - 1)

/-! ## Compares and predicates (R152, R153, R195) -/

/-- A compare of parts of `w` bits. -/
def vcmp (cond w a b : Nat) : Bool :=
  match cond with
  | 0 => decide (a = b)
  | 1 => decide (a ≠ b)
  | 2 => decide (sgn w a < sgn w b)
  | 3 => decide (sgn w a ≤ sgn w b)
  | _ => decide (a < b)

/-- VCMPCC_V, R195: Vector compare into a V register. -/
def execVcmpccV (e : Fin 1024) (cond : Fin 32) (vd va vb : Fin 32) (pg t : Fin 8) (s : State) : Res :=
  done (vparts s e vd va vb pg 2 t (fun _ _ => decide (5 ≤ cond.val)) fun ty _ a b =>
    (if vcmp cond ty.w a b then 2 ^ ty.w - 1 else 0, false))

/-- VCMPCC_P, R195: Vector compare into a predicate. -/
def execVcmpccP (e : Fin 1024) (bad : Bool) (cond : Fin 32) (pd : Fin 8) (va vb : Fin 32) (pg t : Fin 8) (s : State) : Res :=
  let ty := ((eng s e).ty t).getD VTy.nil
  done (vexec s e (bad || ((eng s e).ty t).isNone || decide (5 ≤ cond.val)) fun _ s =>
    let b := beatsOf ty.len
    let (a, s) := rdV s e va b false
    let (c, s) := rdV s e vb b false
    let (p, s) := rdP s e pg
    let v := packN ty.part ((upto ty.parts).map fun j =>
      if ty.active p (ty.elemOf j) && vcmp cond ty.w (bits a (j * ty.w) ty.w) (bits c (j * ty.w) ty.w)
      then 2 ^ ty.part - 1 else 0)
    ({ fl := [toP pd 2 v] }, s))

/-- PAND_POR_PXOR_PANDN, R195: Predicate bitwise operations. -/
def execPandPorPxorPandn (e : Fin 1024) (bad : Bool) (op : Fin 4) (pd pa pb : Fin 8) (s : State) : Res :=
  done (vexec s e bad fun _ s =>
    let (a, s) := rdP s e pa
    let (b, s) := rdP s e pb
    ({ fl := [toP pd 2 (match op with
      | 0 => a &&& b
      | 1 => a ||| b
      | 2 => a ^^^ b
      | 3 => a ^^^ (a &&& b))] }, s))

/-- PNOT, R195: Predicate NOT. -/
def execPnot (e : Fin 1024) (bad : Bool) (pd pa : Fin 8) (s : State) : Res :=
  let ty := ((eng s e).ty 0).getD VTy.nil
  done (vexec s e (bad || ((eng s e).ty 0).isNone) fun _ s =>
    let (a, s) := rdP s e pa
    ({ fl := [toP pd 2 ((2 ^ 512 - 1 - a) % 2 ^ ty.len)] }, s))

/-- Element i is active when Gs + i < Gt. (DEDUCED, unsafe: log 110) -/
def execPwhile (e : Fin 1024) (bad : Bool) (pd : Fin 8) (gs gt : Fin 32) (s : State) : Res :=
  let ty := ((eng s e).ty 0).getD VTy.nil
  done (vexec s e (bad || ((eng s e).ty 0).isNone) fun _ s =>
    let (a, s) := rdS s e gs
    let (b, s) := rdS s e gt
    ({ fl := [toP pd 2 (packN ty.size ((upto ty.n).map fun i => if a + i < b then 2 ^ ty.size - 1 else 0))] }, s))

/-- PCNT, R195: Counts the active elements of a predicate. -/
def execPcnt (e : Fin 1024) (bad : Bool) (gd : Fin 32) (pa : Fin 8) (s : State) : Res :=
  let ty := ((eng s e).ty 0).getD VTy.nil
  done (vexec s e (bad || ((eng s e).ty 0).isNone) fun _ s =>
    let (a, s) := rdP s e pa
    ({ fl := [toS gd 2 ((upto ty.n).filter (ty.active a)).length] }, s))

/-- PFIRST, R195: Gives the first inactive element of a predicate. -/
def execPfirst (e : Fin 1024) (bad : Bool) (gd : Fin 32) (pa : Fin 8) (s : State) : Res :=
  let ty := ((eng s e).ty 0).getD VTy.nil
  done (vexec s e (bad || ((eng s e).ty 0).isNone) fun _ s =>
    let (a, s) := rdP s e pa
    ({ fl := [toS gd 2 ((firstFrom (fun i => !ty.active a i) ty.n 0).getD ty.n)] }, s))

/-- PMOV_TO_V, R195: Copies a predicate into a vector register. -/
def execPmovToV (e : Fin 1024) (bad : Bool) (vd : Fin 32) (pa : Fin 8) (s : State) : Res :=
  done (vexec s e bad fun x s =>
    let (a, s) := rdP s e pa
    ({ fl := [toBytes (x.phys vd) 2 0 64 a] }, s))

/-- PMOV_TO_P, R195: Copies vector bytes into a predicate. -/
def execPmovToP (e : Fin 1024) (bad : Bool) (pd : Fin 8) (va : Fin 32) (s : State) : Res :=
  done (vexec s e bad fun _ s =>
    let (a, s) := rdV s e va 1 false
    ({ fl := [toP pd 2 (a % 2 ^ 512)] }, s))

/-! ## Accumulators (R131, R132, R165 to R168) -/

/-- A lane of an accumulator. -/
def accLane (v j : Nat) : Int := sgn 40 (bits v (40 * j) 40)

/-- An accumulator of lanes. -/
def ofLanes (l : List Int) : Nat := packN 40 (l.map (wrapN 40))

/-- Operand type of a MAC form. -/
def macTy (x : EngS) (form : Nat) : VTy :=
  match form with
  | 0 => x.suffix 1 false
  | 1 => x.suffix 2 false
  | 2 => x.suffix 4 false
  | 5 => x.suffix 2 false
  | _ => x.suffix 2 true

/-- Real part of a product of complex 16-bit elements; `conj` negates the imaginary part of the second. -/
def cRe (a b : Nat) (conj : Bool) : Int :=
  let p := sgn 16 (bits a 16 16) * sgn 16 (bits b 16 16)
  sgn 16 (bits a 0 16) * sgn 16 (bits b 0 16) - if conj then -p else p

/-- Imaginary part of such a product. -/
def cIm (a b : Nat) (conj : Bool) : Int :=
  let p := sgn 16 (bits a 0 16) * sgn 16 (bits b 16 16)
  (if conj then -p else p) + sgn 16 (bits a 16 16) * sgn 16 (bits b 0 16)

/-- Contribution of a beat to lane `j` (R165); `on` says which elements count. -/
def macTerm (form a b k beat j : Nat) (on : Nat → Bool) : Int :=
  match form with
  | 0 =>
    let i := beat * 128 + 2 * j
    let term := fun i => if on i then sgn 8 (bits a (8 * i) 8) * sgn 8 (bits b (8 * i) 8) else 0
    (term i + term (i + 1)) * 2 ^ 16
  | 1 =>
    let i := beat * 64 + j
    if on i then sgn 16 (bits a (16 * i) 16) * sgn 16 (bits b (16 * i) 16) else 0
  | 2 =>
    let i := beat * 32 + j / 2
    if on i && decide (j % 2 = 0) then roundShift (sgn 32 (bits a (32 * i) 32) * sgn 32 (bits b (32 * i) 32)) 32 else 0
  | 5 =>
    let i := beat * 64 + j
    if on i then sgn 16 (bits a (16 * i) 16) * sgn 16 (bits b (16 * k) 16) else 0
  | 6 =>
    let i := beat * 32 + j / 2
    if on i then sgn 16 (bits a (16 * (2 * i + j % 2)) 16) * sgn 16 (bits b (16 * k) 16) else 0
  | _ =>
    let i := beat * 32 + j / 2
    let u := bits a (32 * i) 32
    let w := bits b (32 * if form = 7 then k else i) 32
    if on i then (if j % 2 = 0 then cRe u w (decide (form = 4)) else cIm u w (decide (form = 4))) else 0

/-- A lane takes a sum that may leave the 40-bit range (R132): its value, and whether it overflowed. -/
def laneFit (wrap : Bool) (v : Int) : Int × Bool :=
  if wrap then (sgn 40 (wrapN 40 v), decide (v < minOf 40 ∨ maxOf 40 < v)) else satN 40 v

/-- A lane after all beats: kind 0 adds, 1 subtracts, 2 replaces by beat 0. -/
def macLane (kind : Nat) (wrap : Bool) (v0 : Int) (terms : List Int) : Int × Bool :=
  let start := if kind = 2 then (0, false) else (v0, false)
  terms.foldl (fun vo c =>
    let r := laneFit wrap (if kind = 1 then vo.1 - c else vo.1 + c)
    (r.1, vo.2 || r.2)) start

/-- The writes and the new value of a MAC into an accumulator. -/
def accRes (x : EngS) (ac beats v ov : Nat) : SlotB :=
  { acc := some (ac, BitVec.ofNat 2560 v)
    fl := { left := 3 + beats, dst := .acc ac, mask := 2 ^ 2560 - 1, val := v, beats := beats } ::
      (toFlag Sr.VST_LO (3 + beats) (ov % 2 ^ 32) ++ toFlag Sr.VST_HI (3 + beats) (ov / 2 ^ 32) ++
       if ov ≠ 0 && bitAt (x.srN Sr.VCTL) 1 then [{ left := 3 + beats, dst := .accov, mask := 0, val := x.pc }] else []) }

/-- A MAC of a form and kind; kind 3 is reserved. -/
def vmac (s : State) (e kind ac va vb pg form k : Nat) (undef : Bool) : State :=
  let ty := macTy (eng s e) form
  vexec s e (undef || decide (kind = 3) || decide (512 < ty.len)) fun x s =>
    let b := beatsOf ty.len
    let (a, s) := rdV s e va b false
    let (c, s) := rdV s e vb b false
    let (p, s) := rdP s e pg
    let old := (x.accN.getD ac 0).toNat
    let res := (upto 64).map fun j =>
      macLane kind (bitAt (x.srN Sr.VCTL) 0) (accLane old j) ((upto b).map fun i => macTerm form a c k i j (ty.active p))
    (accRes x ac b (ofLanes (res.map (·.1))) (packN 1 (res.map fun r => if r.2 then 1 else 0)), s)

/-- Forms .B to .CJ; `bad`: k or another field that must be 0 is set. -/
def execVmacVmsuVmpy (e : Fin 1024) (bad : Bool) (kind ac : Fin 4) (va vb : Fin 32) (pg : Fin 8) (form : Fin 5) (s : State) :
    Res :=
  done (vmac s e kind ac va vb pg form 0 bad)

/-- Forms S.H, S.C, S.CC (`form` 0 to 2) with element k of Vb; k is at most 7 for S.CC. -/
def execVmacsVmsusVmpys (e : Fin 1024) (bad : Bool) (kind ac : Fin 4) (va vb : Fin 32) (pg : Fin 8) (form : Fin 3)
    (k : Fin 16) (s : State) : Res :=
  done (vmac s e kind ac va vb pg (form + 5) k (bad || decide (form = 2 ∧ 8 ≤ k.val)))

/-- The readout (R167): bits of a lane for type .B, .H, .W. -/
def execVrac (e : Fin 1024) (bad : Bool) (vd : Fin 32) (ac x : Fin 4) (bk : Fin 8) (sh : Fin 32) (s : State) : Res :=
  let w := 8 * 2 ^ x.val
  done (vexec s e (bad || decide (x = 3) || decide (8 ≤ bk.val * 2 ^ x.val)) fun en s =>
    let (v, s) := rdAcc s e ac
    let res := (upto 64).map fun j => satPart w (roundShift (accLane v j) sh.val)
    let sat := res.any (·.2)
    let put := fun (l : List (Nat × Bool)) => packN w (l.map (·.1))
    let fl := if x = 2 then
        [{ toBytes (en.phys vd) 2 (256 * bk.val) 128 (put (res.take 32)) with beats := 2 },
         { toBytes (en.phys vd) 3 (256 * bk.val + 128) 128 (put (res.drop 32)) with beats := 2 }]
      else [toBytes (en.phys vd) 2 (64 * 2 ^ x.val * bk.val) (64 * 2 ^ x.val) (put res)]
    ({ fl := fl ++ toFlag Sr.SST 2 (if sat then 2 else 0) }, s))

/-- VACCLR, R168: Clears an accumulator. -/
def execVacclr (e : Fin 1024) (bad : Bool) (ac : Fin 4) (s : State) : Res :=
  done (vexec s e bad fun x s => (accRes x ac 1 0 0, s))

/-- VACMOV, R168: Copies one accumulator to another. -/
def execVacmov (e : Fin 1024) (bad : Bool) (acd acs : Fin 4) (s : State) : Res :=
  done (vexec s e bad fun x s =>
    let (v, s) := rdAcc s e acs
    (accRes x acd 1 v 0, s))

/-- Lane j sign-extended to bytes 8j to 8j + 7, in four beats. -/
def execVracx (e : Fin 1024) (bad : Bool) (vd : Fin 32) (ac : Fin 4) (s : State) : Res :=
  done (vexec s e bad fun x s =>
    let (v, s) := rdAcc s e ac
    ({ fl := toV (x.phys vd) 2 4 (2 ^ 4096 - 1) (packN 64 ((upto 64).map fun j => wrapN 64 (accLane v j))) }, s))

/-- VWAC, R168: Writes an accumulator from a vector. -/
def execVwac (e : Fin 1024) (bad : Bool) (ac : Fin 4) (vs : Fin 32) (s : State) : Res :=
  done (vexec s e bad fun x s =>
    let (v, s) := rdV s e vs 4 false
    (accRes x ac 4 (packN 40 ((splitN 64 64 v).map fun w => w % 2 ^ 40)) 0, s))

/-! ## Block floating point (R170 to R172) -/

/-- The VL type, when it is real or complex 16-bit. -/
def EngS.bfp (x : EngS) : Option VTy := (x.ty 0).filter fun t => decide (t.part = 2)

/-- The parts of block `b` of `g` elements. -/
def blockParts (t : VTy) (g b v : Nat) : List Nat :=
  let per := if t.cx then 2 else 1
  ((splitN 16 t.parts v).drop (b * g * per)).take (g * per)

/-- Number of blocks. -/
def blocks (t : VTy) (g : Nat) : Nat := (t.n + g - 1) / g

/-- The shift of a block: max(0, e_b + 1 − m). -/
def blockShift (m : Nat) (ps : List Nat) : Nat := ps.foldl (fun a p => max a (expN 16 p)) 0 + 1 - m

/-- `m1` is m − 1; `g24` selects blocks of 24. -/
def execExpb (e : Fin 1024) (bad : Bool) (vd va : Fin 32) (g24 : Bool) (m1 : Fin 16) (s : State) : Res :=
  let ty := ((eng s e).bfp).getD VTy.nil
  let g := if g24 then 24 else 12
  done (vexec s e (bad || ((eng s e).bfp).isNone) fun x s =>
    let b := beatsOf ty.len
    let (a, s) := rdV s e va b true
    let n := blocks ty g
    (vres x vd 3 b (2 ^ (16 * n) - 1)
      (packN 16 ((upto n).map fun i => blockShift (m1.val + 1) (blockParts ty g i a))) false, s))

/-- A part shifted by a count (R171). -/
def shrbPart (m : Nat) (r : Int) (v : Nat) : Nat × Bool :=
  let r := max (-15) (min 15 r)
  let a := sgn 16 v
  let q := satN m (if 0 ≤ r then roundShift a r.toNat else a * 2 ^ (-r).toNat)
  (wrapN 16 q.1, q.2)

/-- SHRB, R171: Shifts each block by its exponent. -/
def execShrb (e : Fin 1024) (bad : Bool) (vd va vs : Fin 32) (g24 : Bool) (m1 : Fin 16) (s : State) : Res :=
  let ty := ((eng s e).bfp).getD VTy.nil
  let g := (if g24 then 24 else 12) * if ty.cx then 2 else 1
  done (vexec s e (bad || ((eng s e).bfp).isNone) fun x s =>
    let b := beatsOf ty.len
    let (a, s) := rdV s e va b true
    let (c, s) := rdV s e vs b true
    let res := (upto ty.parts).map fun j => shrbPart (m1.val + 1) (sgn 16 (bits c (16 * (j / g)) 16)) (bits a (16 * j) 16)
    (vres x vd 3 b (2 ^ (8 * ty.len) - 1) (packN 16 (res.map (·.1))) (res.any (·.2)), s))

/-- Bytes of a value in the other order. -/
def swapBytes (n v : Nat) : Nat := packN 8 (splitN 8 n v).reverse

/-- Packs fields of m bits, first field first, most significant bit first (R172): the bytes as a value. -/
def packMsb (m : Nat) (ps : List Nat) : Nat :=
  let n := (ps.length * m + 7) / 8
  let v := ps.foldl (fun a p => a * 2 ^ m + p % 2 ^ m) 0
  swapBytes n (v * 2 ^ (8 * n - ps.length * m))

/-- The reverse: `k` fields of m bits of a value. -/
def unpackMsb (m k v : Nat) : List Nat :=
  let n := (k * m + 7) / 8
  let w := swapBytes n (v % 2 ^ (8 * n))
  (upto k).map fun j => bits w (8 * n - (j + 1) * m) m

/-- VPKM, R172: Packs mantissas. -/
def execVpkm (e : Fin 1024) (bad : Bool) (vd va : Fin 32) (m1 : Fin 16) (s : State) : Res :=
  let ty := ((eng s e).bfp).getD VTy.nil
  let m := m1.val + 1
  done (vexec s e (bad || ((eng s e).bfp).isNone) fun x s =>
    let b := beatsOf ty.len
    let (a, s) := rdV s e va b true
    (vres x vd 3 b (2 ^ (8 * ((ty.parts * m + 7) / 8)) - 1) (packMsb m (splitN 16 ty.parts a)) false, s))

/-- VUPKM, R172: Unpacks mantissas. -/
def execVupkm (e : Fin 1024) (bad : Bool) (vd va : Fin 32) (m1 : Fin 16) (s : State) : Res :=
  let ty := ((eng s e).bfp).getD VTy.nil
  let m := m1.val + 1
  done (vexec s e (bad || ((eng s e).bfp).isNone) fun x s =>
    let b := beatsOf ty.len
    let (a, s) := rdV s e va b true
    (vres x vd 3 b (2 ^ (8 * ty.len) - 1) (packN 16 ((unpackMsb m ty.parts a).map fun v => wrapN 16 (sgn m v))) false, s))

end Sys2Proof.Machine
end

