-- ==== Sys2Proof/Machine/Coproc.lean ====
section
/-! DEFINITION. The coprocessor ports, CP0, CP1 and CP3 (chapter 06). A confirmed instruction's effect on its coprocessor is
pending until its computation ends; instructions of one port wait for each other (R205), so each starts from the state
the ones before it lead to. -/

namespace Sys2Proof.Machine

/-! ## States of the ports -/

/-- The state that the confirmed instructions of CP0 lead to. -/
def EngS.c0 (x : EngS) : Cp0S := x.cp0N.getD x.cp0
/-- The same for CP1. -/
def EngS.c1 (x : EngS) : Cp1S := x.cp1N.getD x.cp1
/-- The same for the engine's CP3 context. -/
def EngS.c3 (x : EngS) : Cp3S := x.cp3N.getD x.cp3

/-- MFC, CPSAVE and CPLOAD wait until the earlier instructions of their port have completed (R205). -/
def waitPort (s : State) (e port : Nat) : State :=
  updEng s e fun x =>
    match port with
    | 0 => { x with cp0 := x.c0, cp0N := none }
    | 1 => { x with cp1 := x.c1, cp1N := none }
    | _ => { x with cp3 := x.c3, cp3N := none }

/-- Is a port absent for the engine: CP2, or CP3 without a grant (R199)? -/
def noPort (x : EngS) (port : Nat) : Bool := decide (port = 2) || (decide (port = 3) && !x.grant)

/-- Does a port define register `cr` (R218, R223, R229)? -/
def crExists (port cr : Nat) : Bool :=
  match port with
  | 0 => decide (cr ≤ 3)
  | 1 => decide (cr ≤ 6)
  | 3 => decide (cr ≤ 4)
  | _ => false

/-! ## Bit order, CRC, Gold sequences (R219, R220) -/

/-- Where bit `k` of a string stands in a value whose bytes are filled most significant bit first. -/
def msbPos (k : Nat) : Nat := k / 8 * 8 + (7 - k % 8)

/-- A value from a bit string. -/
def ofMsb (l : List Bool) : Nat :=
  (l.foldl (fun (kv : Nat × Nat) b => (kv.1 + 1, if b then kv.2 + 2 ^ msbPos kv.1 else kv.2)) (0, 0)).2

/-- One step of x1 and of x2 of TS 38.211 5.2.1, which R220 names (PRESUMED). (PRESUMED, unsafe: log 6) -/
def goldStep1 (x : Nat) : Nat := x / 2 + (if bitAt x 3 != bitAt x 0 then 2 ^ 30 else 0)
/-- See `goldStep1`. -/
def goldStep2 (x : Nat) : Nat :=
  x / 2 + (if (bitAt x 3 != bitAt x 2) != (bitAt x 1 != bitAt x 0) then 2 ^ 30 else 0)

/-- A linear map on 31 bits, by its columns, applied to a value. -/
def linApply (cols : List Nat) (v : Nat) : Nat :=
  (cols.foldl (fun (iv : Nat × Nat) c => (iv.1 + 1, if bitAt v iv.1 then iv.2 ^^^ c else iv.2)) (0, 0)).2

/-- A linear map's `n`-th power applied to a value, `k` bits of `n` taken. -/
def linJump : Nat → List Nat → Nat → Nat → Nat
  | 0, _, _, v => v
  | k + 1, cols, n, v =>
    linJump k (cols.map (linApply cols)) (n / 2) (if n % 2 = 1 then linApply cols v else v)

/-- A sequence register `n` steps on. -/
def goldJump (step : Nat → Nat) (n v : Nat) : Nat := linJump 32 ((upto 31).map fun i => step (2 ^ i)) n v

/-- The sequence advanced by `n` bits. -/
def Cp1S.skip (c : Cp1S) (n : Nat) : Cp1S :=
  { c with x1 := BitVec.ofNat 32 (goldJump goldStep1 n (c.x1.toNat % 2 ^ 31))
           x2 := BitVec.ofNat 32 (goldJump goldStep2 n (c.x2.toNat % 2 ^ 31)) }

/-- The next `n` bits of c(n). -/
def goldBits : Nat → Nat → Nat → List Bool
  | 0, _, _ => []
  | n + 1, x1, x2 => (bitAt x1 0 != bitAt x2 0) :: goldBits n (goldStep1 x1) (goldStep2 x2)

/-- The next `n` bits of the sequence and the state after them. -/
def Cp1S.take (c : Cp1S) (n : Nat) : List Bool × Cp1S :=
  (goldBits n (c.x1.toNat % 2 ^ 31) (c.x2.toNat % 2 ^ 31), c.skip n)

/-- The polynomial in use. -/
def Cp1S.poly (c : Cp1S) : Nat := c.cfg.toNat % 8

/-- The running state as far as the polynomial is wide. -/
def Cp1S.run (c : Cp1S) : Nat := c.crc.toNat % 2 ^ (crcPoly c.poly).1

/-- Bits fed into the running CRC. -/
def Cp1S.feed (c : Cp1S) (l : List Bool) : Cp1S := { c with crc := BitVec.ofNat 32 (l.foldl (crcBit c.poly) c.run) }

/-- Bit `k` of an operand in the order of the CRC: bit 7 of each byte first, but bit 0 first for CRC-32C. -/
def Cp1S.bitOf (c : Cp1S) (v k : Nat) : Bool := if c.poly = 6 then bitAt v k else bitAt v (msbPos k)

/-! ## Register transfers (R209, R210) -/

/-- MTC into CP0. -/
def Cp0S.mtc (c : Cp0S) (cr v : Nat) : Cp0S :=
  match cr with
  | 0 => { c with ctl := BitVec.ofNat 32 (v % 16) }
  | 1 => { c with sigma := BitVec.ofNat 32 (v % 2 ^ 16) }
  | 2 => { c with stat := c.stat &&& ~~~BitVec.ofNat 32 (v % 8) }
  | _ => c

/-- A write of BCRCCFG: the reserved code leaves POLY unchanged (R11); the CRC state is reset (R219). -/
def Cp1S.setPoly (c : Cp1S) (v : Nat) : Cp1S :=
  let p := if v % 8 = 7 then c.poly else v % 8
  { c with cfg := BitVec.ofNat 32 p, crc := BitVec.ofNat 32 (crcInit p) }

/-- MTC into CP1. -/
def Cp1S.mtc (c : Cp1S) (cr v : Nat) : Cp1S :=
  match cr with
  | 0 => c.setPoly v
  | 1 => { c with crc := BitVec.ofNat 32 v }
  | 2 => Cp1S.skip { c with x1 := 1, x2 := BitVec.ofNat 32 (v % 2 ^ 31) } 1600
  | 3 => { c with x1 := BitVec.ofNat 32 (v % 2 ^ 31) }
  | 4 => { c with x2 := BitVec.ofNat 32 (v % 2 ^ 31) }
  | 5 => { c with stat := c.stat &&& ~~~BitVec.ofNat 32 (v % 2) }
  | _ => c

/-- Is a value of DMCFG.QM defined? -/
def qmOk (q : Nat) : Bool := decide (q = 1 ∨ q = 2 ∨ q = 4 ∨ q = 6 ∨ q = 8 ∨ q = 10)

/-- MTC into a CP3 context; reserved values of QM and CLIP leave their field unchanged (R11). -/
def Cp3S.mtc (c : Cp3S) (cr v : Nat) : Cp3S :=
  match cr with
  | 0 =>
    let qm := if qmOk (v % 16) then v % 16 else c.cfg.toNat % 16
    let clip := if bits v 8 7 = 0 then bits c.cfg.toNat 8 7 else bits v 8 7
    { c with cfg := BitVec.ofNat 32 (qm + bits v 4 1 * 16 + clip * 256) }
  | 1 => { c with scale := BitVec.ofNat 32 (v % 2 ^ 16) }
  | 3 => { c with stat := c.stat &&& ~~~BitVec.ofNat 32 (v % 2) }
  | _ => c

/-- What MFC reads. -/
def mfcValue (x : EngS) (port cr : Nat) : Nat :=
  match port with
  | 0 => (match cr with | 0 => x.cp0.ctl | 1 => x.cp0.sigma | 2 => x.cp0.stat | _ => 0x100).toNat
  | 1 => (match cr with
    | 0 => x.cp1.cfg
    | 1 => BitVec.ofNat 32 (crcRead x.cp1.poly x.cp1.run)
    | 2 => 0
    | 3 => x.cp1.x1
    | 4 => x.cp1.x2
    | 5 => x.cp1.stat
    | _ => 0x101).toNat
  | _ => (match cr with | 0 => x.cp3.cfg | 1 => x.cp3.scale | 2 => x.cp3.ref | 3 => x.cp3.stat | _ => 0x103).toNat

/-- MTC, R209: Writes a coprocessor register. -/
def execMtc (e : Fin 1024) (bad : Bool) (port : Fin 4) (cr : Fin 64) (gs : Fin 32) (s : State) : Res :=
  done (vexec s e (bad || noPort (eng s e) port || !crExists port cr) fun x s =>
    let (v, s) := rdS s e gs
    (match port with
     | 0 => { cp0 := some (x.c0.mtc cr v) }
     | 1 => { cp1 := some (x.c1.mtc cr v) }
     | _ => { cp3 := some (x.c3.mtc cr v) }, s))

/-- MFC waits for the port; a read of DMREF clears REASON (R226). -/
def execMfc (e : Fin 1024) (bad : Bool) (port : Fin 4) (cr : Fin 64) (gd : Fin 32) (s : State) : Res :=
  done (vexec s e (bad || noPort (eng s e) port || !crExists port cr) fun _ s =>
    let s := waitPort s e port
    let x := eng s e
    ({ fl := [toS gd 3 (mfcValue x port cr)]
       cp3 := if port = 3 ∧ cr = 2 then some (x.cp3.reason 0) else none }, s))

/-- Size of a port's state image. -/
def imageSize (port : Nat) : Nat := if port = 0 then 1344 else 64

/-- A port's state image (R210). -/
def imageOf (x : EngS) (port : Nat) : List Byte :=
  match port with
  | 0 =>
    (x.cp0.cm.flatMap fun m => leBytes 64 m.toNat) ++
      ((upto 32).flatMap fun j => leBytes 8 (wrapN 64 (sgn 40 (bits x.cp0.ma.toNat (40 * j) 40)))) ++
      leBytes 4 x.cp0.ctl.toNat ++ leBytes 4 x.cp0.sigma.toNat ++ leBytes 4 x.cp0.stat.toNat ++ List.replicate 52 0
  | 1 =>
    leBytes 4 x.cp1.cfg.toNat ++ leBytes 4 x.cp1.crc.toNat ++ leBytes 4 x.cp1.x1.toNat ++ leBytes 4 x.cp1.x2.toNat ++
      leBytes 4 x.cp1.stat.toNat ++ List.replicate 44 0
  | _ =>
    leBytes 4 x.cp3.cfg.toNat ++ leBytes 4 x.cp3.scale.toNat ++ leBytes 4 x.cp3.stat.toNat ++ List.replicate 52 0

/-- A word of an image, as far as its register has bits. -/
def imageWord (bs : List Byte) (o mask : Nat) : Word := BitVec.ofNat 32 (leAt bs o 4 &&& mask)

/-- CP0 from its image. -/
def cp0Of (bs : List Byte) : Cp0S :=
  { cm := (upto 16).map fun i => BitVec.ofNat 512 (leAt bs (64 * i) 64)
    ma := BitVec.ofNat 1280 (packN 40 ((upto 32).map fun j => leAt bs (0x400 + 8 * j) 8))
    ctl := imageWord bs 0x500 0xF, sigma := imageWord bs 0x504 0xFFFF, stat := imageWord bs 0x508 0xF7 }

/-- CP1 from its image; the CRC state is taken as it stands. -/
def cp1Of (bs : List Byte) : Cp1S :=
  { cfg := imageWord bs 0 7, crc := imageWord bs 4 0xFFFFFFFF, x1 := imageWord bs 8 0x7FFFFFFF
    x2 := imageWord bs 12 0x7FFFFFFF, stat := imageWord bs 16 1 }

/-- A CP3 context from its image; the record of refusals is not part of it. -/
def cp3Of (c : Cp3S) (bs : List Byte) : Cp3S :=
  { c with cfg := imageWord bs 0 0x7F1F, scale := imageWord bs 4 0xFFFF, stat := imageWord bs 8 1 }

/-- The fault of an image's area (R210): not a multiple of 64, or not wholly in X or wholly in Y. -/
def imageFault (a size : Nat) : Option (Nat × Nat) :=
  if a % 64 ≠ 0 then some (4, a)
  else if a + size ≤ 0x10000 ∨ (0x10000 ≤ a ∧ a + size ≤ 0x20000) then none
  else some (5, a)

/-- CPSAVE, R210: Writes a coprocessor state image to X or Y. -/
def execCpsave (e : Fin 1024) (bad : Bool) (port : Fin 4) (an : Fin 16) (s : State) : Res :=
  done (vexec s e (bad || noPort (eng s e) port) fun _ s =>
    let s := waitPort s e port
    let (a, s) := rdS s e (32 + an)
    match imageFault a (imageSize port) with
    | some f => ({ image := true, flt := some f }, s)
    | none => ({ image := true, store := [(emBase e + a, imageOf (eng s e) port)] }, s))

/-- CPLOAD; a byte of the image that reads with a parity error is an engine fault (R488). -/
def execCpload (e : Fin 1024) (bad : Bool) (port : Fin 4) (an : Fin 16) (s : State) : Res :=
  let undef := bad || noPort (eng s e) port
  let r := rdS (waitPort s e port) e (32 + an)
  if (eng s e).ready && (eng s e).slotB.isNone && !undef && (atBoundary s e).isNone && (imageFault r.1 (imageSize port)).isNone &&
      damagedIn s (emBase e + r.1) (imageSize port) then
    done (engFault s e 1 (siteOf r.1) r.1)
  else
    done (vexec s e undef fun _ s =>
      let s := waitPort s e port
      let (a, s) := rdS s e (32 + an)
      match imageFault a (imageSize port) with
      | some f => ({ image := true, flt := some f }, s)
      | none =>
        let bs := loadN s (emBase e + a) (imageSize port)
        (match port with
         | 0 => { image := true, cp0 := some (cp0Of bs) }
         | 1 => { image := true, cp1 := some (cp1Of bs) }
         | _ => { image := true, cp3 := some (cp3Of (eng s e).cp3 bs) }, s))

/-! ## CP0, the complex matrix unit (R214 to R217) -/

/-- A 4 × 4 complex matrix of integers. -/
abbrev Mat := Nat → Nat → Int × Int

/-- The matrix that 64 bytes hold. -/
def matOf (v : Nat) : Mat := fun r c =>
  (sgn 16 (bits v (32 * (4 * r + c)) 16), sgn 16 (bits v (32 * (4 * r + c) + 16) 16))

/-- The conjugate transpose. -/
def Mat.herm (m : Mat) : Mat := fun r c => ((m c r).1, -(m c r).2)

/-- An exact product. -/
def Mat.mul (a b : Mat) : Mat := fun r c =>
  (upto 4).foldl (fun s k =>
    let x := a r k
    let y := b k c
    (s.1 + (x.1 * y.1 - x.2 * y.2), s.2 + (x.1 * y.2 + x.2 * y.1))) (0, 0)

/-- The parts of a matrix, row by row, real before imaginary. -/
def Mat.parts (m : Mat) : List Int := (upto 16).flatMap fun i => [(m (i / 4) (i % 4)).1, (m (i / 4) (i % 4)).2]

/-- Parts saturated to Q1.15, packed, and whether any saturated. -/
def satParts (l : List Int) : Nat × Bool :=
  let r := l.map (satPart 16)
  (packN 16 (r.map (·.1)), r.any (·.2))

/-- CM register `i`. -/
def Cp0S.mat (c : Cp0S) (i : Nat) : Mat := matOf (c.cm.getD i 0).toNat

/-- Sets a CM register. -/
def Cp0S.setCm (c : Cp0S) (i v : Nat) : Cp0S := { c with cm := c.cm.set i (BitVec.ofNat 512 v) }

/-- Sets flags of CMSTAT. -/
def Cp0S.flag (c : Cp0S) (b : Bool) (v : Nat) : Cp0S := if b then { c with stat := c.stat ||| BitVec.ofNat 32 v } else c

/-- A CM register takes parts that saturate. -/
def Cp0S.setParts (c : Cp0S) (i : Nat) (l : List Int) : Cp0S :=
  let r := satParts l
  (c.setCm i r.1).flag r.2 1

/-- A lane of MA. -/
def Cp0S.lane (c : Cp0S) (j : Nat) : Int := sgn 40 (bits c.ma.toNat (40 * j) 40)

/-- MA takes sums; its lanes always saturate (R214). -/
def Cp0S.mac (c : Cp0S) (l : List Int) : Cp0S :=
  let r := (upto 32).map fun j => satN 40 (c.lane j + l.getD j 0)
  Cp0S.flag { c with ma := BitVec.ofNat 1280 (packN 40 (r.map fun x => wrapN 40 x.1)) } (r.any (·.2)) 4

/-- The rounded product of R215. -/
def Cp0S.prod (c : Cp0S) (m : Mat) : List Int :=
  m.parts.map fun v => roundShift v (15 + c.ctl.toNat % 16)

/-- The lower triangle of a matrix with its real diagonal, as a value. -/
def lowerOf (m : Mat) : Nat :=
  packN 16 (Mat.parts (fun r c => if r < c then (0, 0) else if r = c then ((m r c).1, 0) else m r c) |>.map (wrapN 16))

/-- Internal value of an element of a result that is lower triangular with a real diagonal, or Hermitian (CMINV). -/
def cmInternal (op m : Nat) : Mat := fun r c =>
  let p := fun r c => (Config.cmPart op m (2 * (4 * r + c)), Config.cmPart op m (2 * (4 * r + c) + 1))
  if r = c then ((p r c).1, 0)
  else if c < r then p r c
  else if op = 2 then ((p c r).1, -(p c r).2) else (0, 0)

/-- Is a diagonal element or pivot replaced: at or below 2^−15 (R216)? -/
def cmReplaced (op m : Nat) (a : Mat) : Bool :=
  if op = 1 then (upto 4).any fun k => decide ((a k k).1 ≤ 1)
  else decide ((a 0 0).1 ≤ 1) || (upto 3).any fun k => Config.cmPivotLow m (k + 1)

/-- The exponent of an inverse (R216): the least from 0 to 15 for which every rounded part fits, else 15. -/
def cmExp (l : List Int) : Nat :=
  (firstFrom (fun e => l.all fun v => !(satN 16 (roundShift v (17 + e))).2) 16 0).getD 15

/-- CMCHOL (0), CMINVL (1), CMINV (2) of a matrix into a register. -/
def Cp0S.decomp (c : Cp0S) (op cd : Nat) (a : Mat) : Cp0S :=
  let m := lowerOf a
  let l := (cmInternal op m).parts
  let c := c.flag (cmReplaced op m a) 2
  if op = 0 then c.setCm cd (satParts (l.map fun v => roundShift v 17)).1
  else
    let e := cmExp l
    let c := c.setParts cd (l.map fun v => roundShift v (17 + e))
    { c with stat := putF c.stat { lo := 4, width := 4 } e }

/-- A CP0 instruction: its effect on the unit. -/
def cp0Do (s : State) (e : Nat) (bad : Bool) (f : Cp0S → Cp0S) : State :=
  vexec s e bad fun x s => ({ cp0 := some (f x.c0) }, s)

/-- CMZERO, R217: Sets a CM register to zero. -/
def execCmzero (e : Fin 1024) (bad : Bool) (cd : Fin 16) (s : State) : Res :=
  done (cp0Do s e bad fun c => c.setCm cd 0)

/-- CMIDENT, R217: Sets a CM register to the identity. -/
def execCmident (e : Fin 1024) (bad : Bool) (cd : Fin 16) (s : State) : Res :=
  done (cp0Do s e bad fun c => c.setParts cd (Mat.parts fun r k => (if r = k then 0x7FFF else 0, 0)))

/-- CMMOV, R217: Copies a CM register. -/
def execCmmov (e : Fin 1024) (bad : Bool) (cd ca : Fin 16) (s : State) : Res :=
  done (cp0Do s e bad fun c => c.setCm cd (c.cm.getD ca 0).toNat)

/-- CMHERM, R217: Hermitian transpose. -/
def execCmherm (e : Fin 1024) (bad : Bool) (cd ca : Fin 16) (s : State) : Res :=
  done (cp0Do s e bad fun c => c.setParts cd (c.mat ca).herm.parts)

/-- CMADD_CMSUB, R217: Saturating matrix add or subtract. -/
def execCmaddCmsub (e : Fin 1024) (bad sub : Bool) (cd ca cb : Fin 16) (s : State) : Res :=
  done (cp0Do s e bad fun c => c.setParts cd
    ((c.mat ca).parts.zip (c.mat cb).parts |>.map fun p => if sub then p.1 - p.2 else p.1 + p.2))

/-- CMDIAG, R217: Adds CMSIG to the diagonal. -/
def execCmdiag (e : Fin 1024) (bad : Bool) (cd ca : Fin 16) (s : State) : Res :=
  done (cp0Do s e bad fun c => c.setParts cd (Mat.parts fun r k =>
    if r = k then ((c.mat ca r k).1 + sgn 16 c.sigma.toNat, (c.mat ca r k).2) else c.mat ca r k))

/-- CMMUL, R215: Matrix product. -/
def execCmmul (e : Fin 1024) (bad : Bool) (cd ca cb : Fin 16) (s : State) : Res :=
  done (cp0Do s e bad fun c => c.setParts cd (c.prod ((c.mat ca).mul (c.mat cb))))

/-- CMMULH, R215: Product ca^H·cb. -/
def execCmmulh (e : Fin 1024) (bad : Bool) (cd ca cb : Fin 16) (s : State) : Res :=
  done (cp0Do s e bad fun c => c.setParts cd (c.prod ((c.mat ca).herm.mul (c.mat cb))))

/-- CMMULBH, R215: Product ca·cb^H. -/
def execCmmulbh (e : Fin 1024) (bad : Bool) (cd ca cb : Fin 16) (s : State) : Res :=
  done (cp0Do s e bad fun c => c.setParts cd (c.prod ((c.mat ca).mul (c.mat cb).herm)))

/-- CMMAC, R215: Accumulates a matrix product into MA. -/
def execCmmac (e : Fin 1024) (bad : Bool) (ca cb : Fin 16) (s : State) : Res :=
  done (cp0Do s e bad fun c => c.mac ((c.mat ca).mul (c.mat cb)).parts)

/-- CMMACH, R215: Accumulates ca^H·cb into MA. -/
def execCmmach (e : Fin 1024) (bad : Bool) (ca cb : Fin 16) (s : State) : Res :=
  done (cp0Do s e bad fun c => c.mac ((c.mat ca).herm.mul (c.mat cb)).parts)

/-- CMCLRA, R217: Clears MA. -/
def execCmclra (e : Fin 1024) (bad : Bool) (s : State) : Res :=
  done (cp0Do s e bad fun c => { c with ma := 0 })

/-- The shift is at most 31. -/
def execCmrda (e : Fin 1024) (bad : Bool) (cd : Fin 16) (sh : Fin 64) (s : State) : Res :=
  done (cp0Do s e (bad || decide (32 ≤ sh.val)) fun c =>
    c.setParts cd ((upto 32).map fun j => roundShift (c.lane j) sh))

/-- CMCHOL, R216: Cholesky factorisation. -/
def execCmchol (e : Fin 1024) (bad : Bool) (cd ca : Fin 16) (s : State) : Res :=
  done (cp0Do s e bad fun c => c.decomp 0 cd (c.mat ca))

/-- CMINVL, R216: Lower-triangular inverse. -/
def execCminvl (e : Fin 1024) (bad : Bool) (cd ca : Fin 16) (s : State) : Res :=
  done (cp0Do s e bad fun c => c.decomp 1 cd (c.mat ca))

/-- CMINV, R216: Hermitian positive-definite inverse. -/
def execCminv (e : Fin 1024) (bad : Bool) (cd ca : Fin 16) (s : State) : Res :=
  done (cp0Do s e bad fun c => c.decomp 2 cd (c.mat ca))

/-- A CM register from a 64-byte segment; segments above 7 are reserved. -/
def execCmld (e : Fin 1024) (bad : Bool) (cd : Fin 16) (va : Fin 32) (j : Fin 32) (s : State) : Res :=
  done (vexec s e (bad || decide (8 ≤ j.val)) fun x s =>
    let (v, s) := rdV s e va 1 true
    ({ cp0 := some (x.c0.setCm cd (bits v (512 * j.val) 512)) }, s))

/-- CMST, R217: Stores a CM register into a vector segment. -/
def execCmst (e : Fin 1024) (bad : Bool) (vd : Fin 32) (ca : Fin 16) (j : Fin 32) (s : State) : Res :=
  done (vexec s e (bad || decide (8 ≤ j.val)) fun x s =>
    ({ fl := [toBytes (x.phys vd) 5 (64 * j.val) 64 (x.c0.cm.getD ca 0).toNat] }, s))

/-! ## CP1, the bit unit (R219 to R222) -/

/-- A CP1 instruction whose count stands in a G register: UNDEF outside `lo` to `hi`. -/
def cp1Do (s : State) (e : Nat) (bad : Bool) (gn lo hi : Nat) (k : EngS → Nat → State → SlotB × State) : State :=
  vexec s e bad fun x s =>
    let (n, s) := rdS s e gn
    if n < lo ∨ hi < n then ({ undef := true }, s) else k x n s

/-- Latency of a sequence instruction over `n` bytes. -/
def seqLat (n : Nat) : Nat := 3 + (n + 63) / 64

/-- The first `n` bits of an operand into the running CRC. -/
def crcFeed (s : State) (e va n : Nat) (x : EngS) : SlotB × State :=
  let (v, s) := rdV s e va (beatsOf ((n + 7) / 8)) false
  ({ cp1 := some (x.c1.feed ((upto n).map (x.c1.bitOf v))) }, s)

/-- BUCRC, R222: Feeds bytes into the running CRC. -/
def execBucrc (e : Fin 1024) (bad : Bool) (va gn : Fin 32) (s : State) : Res :=
  done (cp1Do s e bad gn 0 512 fun x n s => crcFeed s e va (8 * n) x)

/-- BUCRCB, R222: Feeds bits into the running CRC. -/
def execBucrcb (e : Fin 1024) (bad : Bool) (va gn : Fin 32) (s : State) : Res :=
  done (cp1Do s e bad gn 0 4096 fun x n s => crcFeed s e va n x)

/-- BUSEQ, R220: Generates Gold sequence bytes. -/
def execBuseq (e : Fin 1024) (bad : Bool) (vd gn : Fin 32) (s : State) : Res :=
  done (cp1Do s e bad gn 1 512 fun x n s =>
    let (l, c) := x.c1.take (8 * n)
    ({ cp1 := some c, fl := [toBytes (x.phys vd) (seqLat n) 0 n (ofMsb l)] }, s))

/-- BUSCR, R222: Scrambles data with the sequence. -/
def execBuscr (e : Fin 1024) (bad : Bool) (vd va gn : Fin 32) (s : State) : Res :=
  done (cp1Do s e bad gn 1 512 fun x n s =>
    let (v, s) := rdV s e va (beatsOf n) false
    let (l, c) := x.c1.take (8 * n)
    ({ cp1 := some c, fl := [toBytes (x.phys vd) (seqLat n) 0 n (ofMsb l ^^^ v % 2 ^ (8 * n))] }, s))

/-- LLR bytes negated where the next bit is 1; −128 becomes 127 and sets LSAT. -/
def execBuscrl (e : Fin 1024) (bad : Bool) (vd va gn : Fin 32) (s : State) : Res :=
  done (cp1Do s e bad gn 1 512 fun x n s =>
    let (v, s) := rdV s e va (beatsOf n) false
    let (l, c) := x.c1.take n
    let r := (l.zip (splitN 8 n v)).map fun p => if p.1 then satPart 8 (-sgn 8 p.2) else (p.2, false)
    let c := if r.any (·.2) then { c with stat := c.stat ||| 1 } else c
    ({ cp1 := some c, fl := [toBytes (x.phys vd) (seqLat n) 0 n (packN 8 (r.map (·.1)))] }, s))

/-- BUSKIP, R222: Advances the sequence generator. -/
def execBuskip (e : Fin 1024) (bad : Bool) (gn : Fin 32) (s : State) : Res :=
  done (cp1Do s e bad gn 0 (2 ^ 32) fun x n s => ({ cp1 := some (x.c1.skip n) }, s))

/-- Output bit j·qm + i is bit j of run i (R221). -/
def execBubil (e : Fin 1024) (bad : Bool) (vd va gl qm : Fin 32) (s : State) : Res :=
  done (cp1Do s e bad gl 0 (2 ^ 32) fun x l s =>
    if !qmOk qm || decide (l * qm = 0 ∨ 4096 < l * qm) then ({ undef := true }, s)
    else
      let (v, s) := rdV s e va (beatsOf ((l * qm + 7) / 8)) false
      let out := (upto (l * qm)).map fun k => bitAt v (msbPos (k % qm * l + k / qm))
      ({ fl := [toBytes (x.phys vd) 7 0 ((l * qm + 7) / 8) (ofMsb out)] }, s))

/-- The inverse on LLR bytes. -/
def execBubdl (e : Fin 1024) (bad : Bool) (vd va gl qm : Fin 32) (s : State) : Res :=
  done (cp1Do s e bad gl 0 (2 ^ 32) fun x l s =>
    if !qmOk qm || decide (l * qm = 0 ∨ 512 < l * qm) then ({ undef := true }, s)
    else
      let (v, s) := rdV s e va (beatsOf (l * qm)) false
      let out := (upto (l * qm)).map fun k => bits v (8 * (k % l * qm + k / l)) 8
      ({ fl := [toBytes (x.phys vd) 7 0 (l * qm) (packN 8 out)] }, s))

/-! ## CP3, the soft demapper (R224 to R228) -/

/-- The normalisation of a constellation: points are odd levels over √N. -/
def qamNorm (qm : Nat) : Nat :=
  match qm with
  | 1 => 2 | 2 => 2 | 4 => 10 | 6 => 42 | 8 => 170 | _ => 682

/-- An odd level over √N, rounded half up to 18 fractional bits (R228). -/
def qamPoint (norm level : Nat) : Int := (isqrtN (4 * level * level * 2 ^ 36 / norm) + 1) / 2
where
  /-- Integer square root of a number below 2^64. -/
  isqrtN (v : Nat) : Nat := (upto 32).foldr (fun b r => if (r + 2 ^ b) * (r + 2 ^ b) ≤ v then r + 2 ^ b else r) 0

/-- The level of an axis whose bits, in order of TS 38.211 5.1 (which R228 names; PRESUMED), are `l`. (PRESUMED, unsafe: log 6) -/
def qamLevel : List Bool → Int
  | [] => 1
  | b :: t =>
    let m : Int := if t.isEmpty then 1 else 2 ^ t.length - qamLevel t
    if b then -m else m

/-- The bits of an axis by number: `h` bits, the first at the top. -/
def axisBits (h n : Nat) : List Bool := (upto h).map fun i => bitAt n (h - 1 - i)

/-- Coordinate of a level. -/
def qamCoord (qm : Nat) (l : Int) : Int :=
  let p := qamPoint (qamNorm qm) l.natAbs
  if l < 0 then -p else p

/-- Least squared distance on an axis to a point whose bit `i` is `b`. -/
def axisDist (qm h i : Nat) (b : Bool) (y : Int) : Int :=
  let ds := ((upto (2 ^ h)).map (axisBits h)).filterMap fun l =>
    if l.getD i false = b then some ((y - qamCoord qm (qamLevel l)) ^ 2) else none
  match ds with
  | [] => 0
  | d :: t => t.foldl min d

/-- d₁ − d₀ of bit `i` for a symbol, in units of 2^−36. Axes are independent; in BPSK both carry the bit. -/
def llrDist (qm i : Nat) (yi yq : Int) : Int :=
  let y := fun (v : Int) => v * 8
  if qm = 1 then
    let d := fun b => axisDist 1 1 0 b (y yi) + axisDist 1 1 0 b (y yq)
    d true - d false
  else
    let v := if i % 2 = 0 then y yi else y yq
    axisDist qm (qm / 2) (i / 2) true v - axisDist qm (qm / 2) (i / 2) false v

/-- The LLR before it is clipped: scale in 1/256, `g` in 2^−15 (R228). -/
def llrValue (qm i scale g : Nat) (yi yq : Int) : Int :=
  roundDiv (llrDist qm i yi yq * scale * g) (2 ^ 36 * 2 ^ 8 * 2 ^ 15)

/-- Clipping to ±clip. -/
def clipTo (clip : Nat) (v : Int) : Int × Bool :=
  if (clip : Int) < v then (clip, true) else if v < -clip then (-clip, true) else (v, false)

/-- Is DMCFG free of reserved values? -/
def dmcfgOk (cfg : Word) : Bool := qmOk (cfg.toNat % 16) && decide (bits cfg.toNat 8 7 ≠ 0)

/-- DMAP (R227): acceptance by CP3 is settled when the bundle issues. -/
def execDmap (e : Fin 1024) (bad : Bool) (vd va vb : Fin 32) (s : State) : Res :=
  let x := eng s e
  let cfg := x.c3.cfg.toNat
  let qm := cfg % 16
  let per := bitAt cfg 4
  let n := x.count
  let undef := bad || noPort x 3 || !dmcfgOk x.c3.cfg || (x.ty 0).isNone ||
    decide (bits (x.srN Sr.VL) 10 3 ≠ 5 ∨ 512 < n * qm) || (!per && decide (vb ≠ 0))
  done (vexec s e undef fun x s =>
    let (a, s) := rdV s e va (beatsOf (4 * n)) true
    let (g, s) := if per then rdV s e vb (beatsOf (4 * n)) true else (0, s)
    let r := (upto (n * qm)).map fun j =>
      let k := j / qm
      clipTo (bits cfg 8 7) (llrValue qm (j % qm) (x.c3.scale.toNat % 2 ^ 16) (if per then bits g (16 * k) 16 else 2 ^ 15)
        (sgn 16 (bits a (32 * k) 16)) (sgn 16 (bits a (32 * k + 16) 16)))
    let c := if r.any (·.2) then { x.c3 with stat := x.c3.stat ||| 1 } else x.c3
    ({ dmap := true, cp3 := some c,
       fl := if n = 0 then [] else [toBytes (x.phys vd) (5 + (n + 15) / 16) 0 (n * qm) (packN 8 (r.map fun v => wrapN 8 v.1))] },
      s))

/-- CP3's busy period ends (R225). -/
def execCp3Free (t : Fin 128) (s : State) : Res := done (setCp3U s t { cp3U s t with busy := none })

/-- The computation of a port's confirmed instructions ends: the coprocessor's state is updated, or a parity error in the unit is
an engine fault, which for CP3 is counted against that unit too (R206, R208, R225). -/
def execCoprocessorDone (e : Fin 1024) (port : Fin 4) (parity : Bool) (s : State) : Res :=
  let x := eng s e
  let some' := match port with
    | 0 => x.cp0N.isSome
    | 1 => x.cp1N.isSome
    | 3 => x.cp3N.isSome
    | _ => false
  done (
    if !some' then s
    else if parity then
      let s := updEng s e fun x =>
        match port with
        | 0 => { x with cp0N := none }
        | 1 => { x with cp1N := none }
        | _ => { x with cp3N := none }
      engFault s e 1 (if port = 0 then 9 else if port = 1 then 10 else 11) 0
    else waitPort s e port)

end Sys2Proof.Machine
end

