-- ==== Sys2Proof/Machine/Fft.lean ====
section
/-! DEFINITION. Sines and cosines, rounded as the NCO and the FFT units use them (R268, R288), and the transform of an FFT
unit (R288). -/

namespace Sys2Proof.Machine

/-- π in units of 2^−128, rounded down. -/
def pi128 : Nat := 0x3243F6A8885A308D313198A2E03707344

/-- Sums every other term of the power series of e^x: each next term is multiplied by −x²/((k+1)(k+2)). -/
def series (x2 : Int) : Nat → Nat → Int → Int
  | 0, _, _ => 0
  | n + 1, k, t => t + series x2 n (k + 2) (-(t * x2 / 2 ^ 128) / ((k + 1) * (k + 2)))

/-- cos(2πp/n) and sin(2πp/n), in units of 2^−128; their error lies far below the unit of the rounding that follows.
(DESIGN CHOICE, unsafe: log 127) -/
def trig (p n : Nat) : Int × Int :=
  let x : Int := 2 * pi128 * (p % n) / n
  let x2 := x * x / 2 ^ 128
  (series x2 40 0 (2 ^ 128), series x2 40 1 x)

/-- A twiddle part: round_half_up(131072 × v), with +131072 taken as 131071. -/
def twPart (v : Int) : Int := min 131071 ((v * 131072 + 2 ^ 127) / 2 ^ 128)

/-- A complex number. -/
abbrev Cx := Int × Int

def Cx.add (a b : Cx) : Cx := (a.1 + b.1, a.2 + b.2)
def Cx.sub (a b : Cx) : Cx := (a.1 - b.1, a.2 - b.2)

/-- A complex multiplication: exact products, each part shifted right by 17 under R133. -/
def Cx.mul (a w : Cx) : Cx := (roundShift (a.1 * w.1 - a.2 * w.2) 17, roundShift (a.1 * w.2 + a.2 * w.1) 17)

/-- W_n^p, for a forward or an inverse job. (DESIGN CHOICE, unsafe: log 127) -/
def twiddle (inv : Bool) (p n : Nat) : Cx :=
  let (c, s) := trig p n
  (twPart c, twPart (if inv then s else -s))

/-- An output of a stage: shifted when the stage's bit is set, then saturated to 24 bits. Answers the saturations too. -/
def stageOut (sh : Nat) (a : Cx) : Cx × Nat :=
  let (x, i) := satN 24 (roundShift a.1 sh)
  let (y, j) := satN 24 (roundShift a.2 sh)
  ((x, y), i.toNat + j.toNat)

/-- The outputs of a stage and how many of their parts saturated. -/
def stageOuts (sh : Nat) (xs : List Cx) : List Cx × Nat :=
  let r := xs.map (stageOut sh)
  (r.map (·.1), r.foldl (fun n e => n + e.2) 0)

/-- Two lists, element by element in turn. -/
def weave2 : List Cx → List Cx → List Cx
  | a :: as, b :: bs => a :: b :: weave2 as bs
  | _, _ => []

/-- Three lists, element by element in turn. -/
def weave3 : List Cx → List Cx → List Cx → List Cx
  | a :: as, b :: bs, c :: cs => a :: b :: c :: weave3 as bs cs
  | _, _, _ => []

/-- Radix-2 stages from stage `s` on, over 2^m elements; bins in natural order, and the saturations. -/
def dif2 (inv : Bool) (shift : Nat) : Nat → Nat → List Cx → List Cx × Nat
  | 0, _, xs => (xs, 0)
  | m + 1, s, xs =>
    let h := 2 ^ m
    let a := xs.take h
    let b := xs.drop h
    let sh := bits shift s 1
    let (u, n1) := stageOuts sh ((a.zip b).map fun e => e.1.add e.2)
    let (v, n2) := stageOuts sh (((a.zip b).zip (upto h)).map fun e => (e.1.1.sub e.1.2).mul (twiddle inv e.2 (2 * h)))
    let (eu, n3) := dif2 inv shift m (s + 1) u
    let (ev, n4) := dif2 inv shift m (s + 1) v
    (weave2 eu ev, n1 + n2 + n3 + n4)

/-- The transform of N = 2^m, or of 3 × 2^m elements when `three` (R288): bins in natural order, internal saturations. -/
def fft (inv : Bool) (shift m : Nat) (three : Bool) (xs : List Cx) : List Cx × Nat :=
  if !three then dif2 inv shift m 0 xs
  else
    let t := 2 ^ m
    let sh := 2 * bits shift 0 1
    let u := twiddle inv 1 3
    let u2 := twiddle inv 2 3
    let abc := ((xs.take t).zip ((xs.drop t).take t)).zip ((xs.drop (2 * t)).zip (upto t))
    let (p, n0) := stageOuts sh (abc.map fun ((a, b), c, _) => (a.add b).add c)
    let (q, n1) := stageOuts sh (abc.map fun ((a, b), c, i) =>
      ((a.add (b.mul u)).add (c.mul u2)).mul (twiddle inv i (3 * t)))
    let (r, n2) := stageOuts sh (abc.map fun ((a, b), c, i) =>
      ((a.add (b.mul u2)).add (c.mul u)).mul (twiddle inv (2 * i) (3 * t)))
    let (ep, n3) := dif2 inv shift m 1 p
    let (eq, n4) := dif2 inv shift m 1 q
    let (er, n5) := dif2 inv shift m 1 r
    (weave3 ep eq er, n0 + n1 + n2 + n3 + n4 + n5)

/-- log2 of the power of two in a size code's N, and whether N has a factor of three (R289). -/
def fftSize (code : Nat) : Nat × Bool :=
  match code with
  | 0 => (7, false)
  | 1 => (8, false)
  | 2 => (9, false)
  | 3 => (10, false)
  | 4 => (9, true)
  | 5 => (11, false)
  | 6 => (10, true)
  | _ => (12, false)

/-- N of a size code. -/
def fftN (code : Nat) : Nat := let (m, t) := fftSize code; if t then 3 * 2 ^ m else 2 ^ m

/-- Stages of a size code. -/
def fftStages (code : Nat) : Nat := let (m, t) := fftSize code; if t then m + 1 else m

end Sys2Proof.Machine
end

