-- ==== Sys2Proof/Machine/Codes.lean ====
section
/-! DEFINITION. The codes of the channel-coding units (R241 to R247, R252), on lists of bits and LLRs. What TS 38.212 and
TS 36.212 give and the spec only names is PRESUMED (log 6). -/

namespace Sys2Proof.Machine

/-- An input LLR (R247): −128 is read as −127. -/
def llrIn (b : Byte) : Int := max (-127) b.toInt

/-- Sum limited to ±127 (R252). -/
def sat127 (v : Int) : Int := min 127 (max (-127) v)

/-- Saturation to ±511 (R242). -/
def sat511 (v : Int) : Int := min 511 (max (-511) v)

/-- CRC over bits; it passes when it is zero. -/
def crcBits (p : Nat) (bs : List Bool) : Nat := bs.foldl (crcBit p) 0

/-- The low `n` bits of a number, most significant first. -/
def natBits (n v : Nat) : List Bool := (upto n).map fun i => bitAt v (n - 1 - i)

/-! ## NR LDPC -/

/-- Systematic columns of a base graph. -/
def bgK (bg : Nat) : Nat := if bg = 0 then 22 else 10

/-- Parity rows of a base graph. -/
def bgRows (bg : Nat) : Nat := if bg = 0 then 46 else 42

/-- Codeword columns of the circular buffer's full length, N ÷ Z. -/
def bgN (bg : Nat) : Nat := if bg = 0 then 66 else 50

/-- A number without its factors of two; `fuel` bounds them. -/
def oddPart : Nat → Nat → Nat
  | 0, z => z
  | n + 1, z => if z % 2 = 0 then oddPart n (z / 2) else z

/-- Lifting sizes of Table 5.3.2-1. (PRESUMED, unsafe: log 6) -/
def liftOk (z : Nat) : Bool := decide (2 ≤ z ∧ z ≤ 384 ∧ oddPart 9 z ≤ 15)

/-- First position of a redundancy version (TS 38.212 Table 5.4.2.1-2). (PRESUMED, unsafe: log 6) -/
def ldpcK0 (bg z ncb rv : Nat) : Nat :=
  let n := match bg, rv with
    | _, 0 => 0
    | 0, 1 => 17
    | 0, 2 => 33
    | 0, _ => 56
    | _, 1 => 13
    | _, 2 => 25
    | _, _ => 43
  n * ncb / (bgN bg * z) * z

/-- Is a position of the circular buffer a filler? -/
def ldpcFiller (bg z f p : Nat) : Bool :=
  let last := bgK bg * z - 2 * z
  decide (last - f ≤ p ∧ p < last)

/-- One check node (R242): the APP values of its variables and its messages, renewed. -/
def checkNode (app : Array Int) (vs : List Nat) (rs : List Int) : Array Int × List Int :=
  let q := (vs.zip rs).map fun (v, r) => sat511 (app.getD v 0 - r)
  let new := (upto q.length).map fun i =>
    let others := q.eraseIdx i
    let m := (others.map fun x => min 127 x.natAbs).foldl min 127
    let mag : Int := (3 * m + 2) / 4
    if (others.filter fun x => decide (x < 0)).length % 2 = 1 then -mag else mag
  ((vs.zip (q.zip new)).foldl (fun a (v, x, r) => a.setIfInBounds v (sat511 (x + r))) app, new)

/-- Variables of check `z'` of a row. -/
def checkVars (z z' : Nat) (row : List (Nat × Nat)) : List Nat := row.map fun (c, sh) => c * z + (z' + sh) % z

/-- One iteration (R242): rows in order, the checks of each row. `msg` holds the messages of check r·Z + z'. -/
def ldpcIter (bg z layers : Nat) (app : Array Int) (msg : Array (List Int)) : Array Int × Array (List Int) :=
  (upto layers).foldl (fun st r =>
    let row := Config.ldpcRow bg z r
    (upto z).foldl (fun (app, msg) z' =>
      let (app, new) := checkNode app (checkVars z z' row) (msg.getD (r * z + z') [])
      (app, msg.setIfInBounds (r * z + z') new)) st) (app, msg)

/-- Checks not satisfied by the hard decisions. -/
def ldpcUnsat (bg z layers : Nat) (app : Array Int) : Nat :=
  (upto layers).foldl (fun n r =>
    let row := Config.ldpcRow bg z r
    n + ((upto z).filter fun z' =>
      ((checkVars z z' row).filter fun v => decide (app.getD v 0 < 0)).length % 2 = 1).length) 0

/-- Hard decisions of the first `n` codeword bits. -/
def hardBits (app : Array Int) (n : Nat) : List Bool := (upto n).map fun i => decide (app.getD i 0 < 0)

/-- Result of a decoder: bits, iterations, stopped early, CRC passed, unsatisfied checks. -/
structure DecRes where
  bits : List Bool
  iter : Nat
  et : Bool
  crcOk : Bool
  unsat : Nat

/-- The iterations (R243), `left` of them still allowed. -/
def ldpcLoop (bg z layers kp crc : Nat) (etSyn etCrc : Bool) :
    Nat → Nat → Array Int → Array (List Int) → DecRes
  | 0, n, app, _ =>
    let bs := hardBits app kp
    { bits := bs, iter := n, et := false, crcOk := crcBits crc bs = 0, unsat := ldpcUnsat bg z layers app }
  | left + 1, n, app, msg =>
    let (app, msg) := ldpcIter bg z layers app msg
    let bs := hardBits app kp
    let u := ldpcUnsat bg z layers app
    let ok := decide (crcBits crc bs = 0)
    if (etSyn || etCrc) && (!etSyn || u == 0) && (!etCrc || ok) then
      { bits := bs, iter := n + 1, et := true, crcOk := ok, unsat := u }
    else ldpcLoop bg z layers kp crc etSyn etCrc left (n + 1) app msg

/-- Channel value of a codeword bit (R242). -/
def ldpcChan (bg z f : Nat) (soft : Array Int) (i : Nat) : Int :=
  if i < 2 * z then 0 else if ldpcFiller bg z f (i - 2 * z) then 127 else soft.getD (i - 2 * z) 0

/-- An LDPC decode over the combined soft buffer (R242, R243). -/
def ldpcDecode (bg z f layers maxit crc : Nat) (etSyn etCrc : Bool) (soft : List Int) : DecRes :=
  let s := soft.toArray
  let app := ((upto ((bgN bg + 2) * z)).map (ldpcChan bg z f s)).toArray
  let msg := ((upto (layers * z)).map fun i => (Config.ldpcRow bg z (i / z)).map fun _ => (0 : Int)).toArray
  ldpcLoop bg z layers (bgK bg * z - f) crc etSyn etCrc maxit 0 app msg

/-- Codeword bit at position `p` of the circular buffer, fillers as 0 (R244). -/
def ldpcBit (bg z : Nat) (info : List Bool) (p : Nat) : Bool :=
  let i := p + 2 * z
  if i < bgK bg * z then info.getD i false else Config.ldpcParity bg z info (i - bgK bg * z)

/-- Positions of the circular buffer in order of selection: `need` of them, from `j` places after `k0` on; `skip` says
which are passed over. `fuel` bounds the places looked at. -/
def selectPos (k0 ncb : Nat) (skip : Nat → Bool) : Nat → Nat → Nat → List Nat
  | 0, _, _ => []
  | fuel + 1, need, j =>
    if need = 0 then []
    else
      let p := (k0 + j) % ncb
      if skip p then selectPos k0 ncb skip fuel need (j + 1) else p :: selectPos k0 ncb skip fuel (need - 1) (j + 1)

/-- The positions that `e` selected values take (R252): enough places that each round of the buffer gives one or more. -/
def selection (k0 ncb e : Nat) (skip : Nat → Bool) : List Nat := selectPos k0 ncb skip (ncb * (e + 1)) e 0

/-- Can the bit selection end: is some position neither filler nor null? -/
def selectable (ncb : Nat) (skip : Nat → Bool) : Bool := (upto ncb).any fun p => !skip p

/-- Bit interleaving for modulation order `qm` (TS 38.212 5.4.2.2). -/
def interleave (qm : Nat) (e : List Bool) : List Bool :=
  let a := e.toArray
  (upto e.length).map fun k => a.getD (k % qm * (e.length / qm) + k / qm) false

/-- The output bits of an LDPC encode (R244), from the K' input bits with their CRC. -/
def ldpcEncode (bg z f rv e ncb qm : Nat) (info : List Bool) : List Bool :=
  let all := info ++ List.replicate f false
  interleave qm ((selection (ldpcK0 bg z ncb rv) ncb e (ldpcFiller bg z f)).map (ldpcBit bg z all))

/-! ## LTE turbo -/

/-- Block sizes of Table 5.1.3-3 of TS 36.212. -/
def turboK (k : Nat) : Bool :=
  decide ((40 ≤ k ∧ k ≤ 512 ∧ k % 8 = 0) ∨ (512 < k ∧ k ≤ 1024 ∧ k % 16 = 0) ∨ (1024 < k ∧ k ≤ 2048 ∧ k % 32 = 0)
    ∨ (2048 < k ∧ k ≤ 6144 ∧ k % 64 = 0))

/-- Rows of the sub-block interleaver. -/
def turboRows (k : Nat) : Nat := (k + 4 + 31) / 32

/-- Inter-column permutation of the sub-block interleaver: five bits reversed. (PRESUMED, unsafe: log 6) -/
def rev5 (c : Nat) : Nat := bits c 0 1 * 16 + bits c 1 1 * 8 + bits c 2 1 * 4 + bits c 3 1 * 2 + bits c 4 1

/-- Is a position of the circular buffer null or a filler (TS 36.212 5.1.4.1)? -/
def turboNull (k f p : Nat) : Bool :=
  let r := turboRows k
  let kp := 32 * r
  let nd := kp - (k + 4)
  if p < kp then decide (rev5 (p / r) + 32 * (p % r) < nd + f)
  else
    let i := (p - kp) / 2
    if (p - kp) % 2 = 0 then decide (rev5 (i / r) + 32 * (i % r) < nd + f)
    else decide ((rev5 (i / r) + 32 * (i % r) + 1) % kp < nd)

/-- First position of a redundancy version (TS 36.212 5.1.4.1.2). (PRESUMED, unsafe: log 6) -/
def turboK0 (k ncb rv : Nat) : Nat :=
  let r := turboRows k
  r * (2 * ((ncb + 8 * r - 1) / (8 * r)) * rv + 2)

/-- The iterations of a turbo decode (R243, R246). -/
def turboLoop (k f crc : Nat) (etCrc : Bool) (soft : List Byte) : Nat → Nat → DecRes
  | 0, n =>
    let bs := (upto (k - f)).map fun i => Config.turboBit k f soft n i
    { bits := bs, iter := n, et := false, crcOk := crcBits crc bs = 0, unsat := 0 }
  | left + 1, n =>
    let bs := (upto (k - f)).map fun i => Config.turboBit k f soft (n + 1) i
    if etCrc && decide (crcBits crc bs = 0) then { bits := bs, iter := n + 1, et := true, crcOk := true, unsat := 0 }
    else turboLoop k f crc etCrc soft left (n + 1)

/-! ## Combining (R252) -/

/-- Adds input LLRs to a soft buffer at the selected positions. -/
def combine (soft : Array Int) (ps : List Nat) (ins : List Int) : Array Int :=
  (ps.zip ins).foldl (fun s (p, x) => s.setIfInBounds p (sat127 (s.getD p 0 + x))) soft

/-! ## NR polar -/

/-- Generator, length of a CRC of the polar decoder (R245). -/
def polarCrc (sel : Nat) : Nat × Nat :=
  match sel with
  | 0 => (5, 6)
  | 1 => (4, 11)
  | _ => (2, 24)

/-- Does the CRC of an output path pass (R245)? `bs` holds payload and CRC. -/
def polarPass (sel rnti : Nat) (bs : List Bool) : Bool :=
  let (p, l) := polarCrc sel
  let pay := bs.take (bs.length - l)
  let crc := (bs.drop (bs.length - l)).foldl (fun v b => v * 2 + b.toNat) 0
  if sel = 2 then decide (crcBits p (List.replicate 24 true ++ pay) ^^^ rnti = crc) else decide (crcBits p pay = crc)

end Sys2Proof.Machine
end

