-- ==== Sys2Proof/Machine/Job.lean ====
section
/-! DEFINITION. Jobs of the coding and FFT units (R232 to R261, R288 to R290): posting, starting, reads, work, writes, the
completion record, cancellation, unit faults. -/

namespace Sys2Proof.Machine

/-! ## Access -/

/-- The job of a number. -/
def job? (s : State) (id : Nat) : Option JobS := s.job.list.find? fun j => decide (j.id = id)

/-- Sets a job. -/
def setJob (s : State) (j : JobS) : State :=
  { s with job := { s.job with list := s.job.list.map fun k => if k.id = j.id then j else k } }

/-- Removes a job. -/
def dropJob (s : State) (id : Nat) : State :=
  { s with job := { s.job with list := s.job.list.filter fun k => decide (k.id ≠ id) } }

/-- A field of a descriptor: byte offset, low bit, width. -/
def dF (d : BitVec 512) (o lo n : Nat) : Nat := bits d.toNat (o * 8 + lo) n

/-- A field of a job's descriptor. -/
def JobS.f (j : JobS) (o lo n : Nat) : Nat := dF j.desc o lo n

/-- A 48-bit address of a descriptor. -/
def JobS.addr (j : JobS) (o : Nat) : Nat := j.f o 0 48

/-- Is a job a CARRY (R253)? (DEDUCED, unsafe: log 116) -/
def JobS.carry (j : JobS) : Bool := decide (j.kind ≠ 6 ∧ j.f 0 6 2 = 1)

/-- Does a job name a HARQ buffer? -/
def JobS.harq (j : JobS) : Bool := decide ((j.kind = 1 ∨ j.kind = 4) ∧ j.addr 0x20 ≠ 0)

/-- The register of a job's strip: among the FEC registers, or among the FFT registers. -/
def jobReg (q kind fec fft : Nat) : Nat := if kind = 6 then fft + q * 0x4000 else fec + q * 0x10000

abbrev jEvt (q kind : Nat) : Nat := jobReg q kind (Reg.FEC_EVT 0) (Reg.FFT_EVT 0)
abbrev jCtl (q kind : Nat) : Nat := jobReg q kind (Reg.FEC_CTL 0) (Reg.FFT_CTL 0)

/-- Units of a kind in a strip. -/
def unitsOf (kind : Nat) : Nat := match kind with | 1 => 8 | 2 => 4 | 3 => 4 | 4 => 2 | _ => 4

/-- Capacity of a kind's queue (R234, R290). -/
def queueCap (kind : Nat) : Nat := match kind with | 1 => 1024 | 2 => 512 | _ => 256

/-- Unit code of a unit by strip, kind and index. -/
def jobUnit (q kind i : Nat) : Nat :=
  match kind with
  | 1 => 0x6000 + q * 8 + i
  | 2 => 0x7000 + q * 4 + i
  | 3 => 0x8000 + q * 4 + i
  | 4 => 0x9000 + q * 2 + i
  | _ => uFft (q * 4 + i)

/-- The register of a unit's state. -/
def unitReg (q kind i : Nat) : Nat :=
  match kind with
  | 1 => Reg.FEC_UNIT q i
  | 2 => Reg.FEC_UNIT q (8 + i)
  | 3 => Reg.FEC_UNIT q (12 + i)
  | 4 => Reg.FEC_UNIT q (16 + i)
  | _ => Reg.FFT_UNIT (q * 4 + i)

/-- The job that runs on a unit. -/
def runsOn (s : State) (q kind i : Nat) : Option JobS :=
  s.job.list.find? fun j => decide (j.q = q ∧ j.kind = kind ∧ j.unit = some i)

/-- Is a unit in service: its strip runs and it is active? -/
def unitUp (s : State) (q kind i : Nat) : Bool := domLive s (16 + q) && unitSt s (jobUnit q kind i) = 0

/-- STATE of a unit's register: 0 OFF, 1 RETURNING, 2 READY, 3 BUSY, 4 FENCED, 5 RETIRED. -/
def unitState (s : State) (q kind i : Nat) : Nat :=
  match unitSt s (jobUnit q kind i) with
  | 1 => 4
  | 2 => 1
  | 3 => 5
  | _ => if !domLive s (16 + q) then 0 else if (runsOn s q kind i).isSome then 3 else 2

/-- Jobs queued for a kind. -/
def queued (s : State) (q kind : Nat) : List JobS :=
  s.job.list.filter fun j => decide (j.q = q ∧ j.kind = kind ∧ j.phase = .queued)

/-- Who issues a job's requests: the unit it runs on, or its strip, for the function of its poster. -/
def JobS.issuer (j : JobS) : Issuer :=
  let g := match j.kind with | 1 => 0 | 6 => 2 | _ => 1
  match j.unit with
  | some i => accIssuer j.q g (jobUnit j.q j.kind i) j.func
  | none => { func := j.func, src := stripRouter j.q g, scopes := [uDom (16 + j.q)] }

/-! ## Checks of a descriptor (R233, R234, R241 to R246, R289) -/

/-- Are fields (offset, low bit, width) of a descriptor all zero? -/
def zeros (d : BitVec 512) (fs : List (Nat × Nat × Nat)) : Bool := fs.all fun (o, lo, n) => decide (dF d o lo n = 0)

/-- NCB of an LDPC job (R241). -/
def ncbOk (d : BitVec 512) : Bool :=
  let bg := dF d 0x30 0 1
  let z := dF d 0x30 1 9
  decide (bgK bg * z - 2 * z ≤ dF d 0x3C 0 15 ∧ dF d 0x3C 0 15 ≤ bgN bg * z)

/-- Lifting size, fillers and NCB of an LDPC job. (DEDUCED, unsafe: log 118) -/
def ldpcOk (d : BitVec 512) : Bool :=
  liftOk (dF d 0x30 1 9) && decide (dF d 0x34 0 14 < bgK (dF d 0x30 0 1) * dF d 0x30 1 9) && ncbOk d

/-- The fields of one kind. -/
def kindOk (kind : Nat) (carry : Bool) (d : BitVec 512) : Bool :=
  match kind with
  | 1 => ldpcOk d && (carry || (
      zeros d [(0x2C, 13, 19), (0x30, 26, 6), (0x34, 16, 16), (0x38, 18, 14), (0x3C, 15, 17)]
      && decide (4 ≤ dF d 0x30 10 6 ∧ dF d 0x30 10 6 ≤ bgRows (dF d 0x30 0 1) ∧ dF d 0x30 16 5 ≠ 0
        ∧ dF d 0x30 23 2 ≠ 3 ∧ dF d 0x38 0 18 ≠ 0)))
  | 2 => ldpcOk d && zeros d [(0x28, 0, 64), (0x30, 15, 17), (0x34, 16, 16), (0x38, 18, 14), (0x3C, 15, 17)]
      && [1, 2, 4, 6, 8, 10].contains (dF d 0x30 11 4)
  | 3 =>
    let n := 2 ^ dF d 0x30 0 4
    let k := dF d 0x34 0 10
    let e := dF d 0x38 0 14
    let sel := dF d 0x30 6 2
    zeros d [(0x28, 0, 64), (0x30, 12, 20), (0x34, 10, 22), (0x38, 14, 18), (0x3C, 16, 16)]
      && decide (5 ≤ dF d 0x30 0 4 ∧ dF d 0x30 0 4 ≤ 10 ∧ sel ≠ 3 ∧ dF d 0x30 10 2 ≠ 3)
      && decide ((polarCrc sel).2 + 1 ≤ k ∧ k ≤ n ∧ k ≤ 1023 ∧ k < e ∧ e ≤ 8192)
      && (decide (sel = 2) || decide (dF d 0x3C 0 16 = 0))
  | 4 =>
    let k := dF d 0x30 0 13
    let ncb := dF d 0x3C 0 15
    turboK k && decide (120 ≤ ncb ∧ ncb ≤ 96 * turboRows k) && (carry || (
      zeros d [(0x2C, 13, 19), (0x30, 22, 10), (0x34, 8, 24), (0x38, 18, 14), (0x3C, 15, 17)]
      && decide (dF d 0x30 14 2 ≤ 1 ∧ 1 ≤ dF d 0x30 16 5 ∧ dF d 0x30 16 5 ≤ 16)))
  | _ =>
    let code := dF d 0x20 0 4
    let iw := dF d 0x20 18 5
    zeros d [(0x20, 23, 9), (0x24, 12, 4), (0x24, 29, 3), (0x28, 0, 192)]
      && decide (code ≤ 7 ∧ dF d 0x20 5 13 < 2 ^ fftStages code ∧ (iw = 0 ∨ (12 ≤ iw ∧ iw ≤ 24)))
      && decide (dF d 0x24 0 12 < fftN code ∧ 1 ≤ dF d 0x24 16 13 ∧ dF d 0x24 16 13 ≤ fftN code)

/-- Does a descriptor pass check 2 of R234 at the port of a kind? -/
def descOk (kind : Nat) (d : BitVec 512) : Bool :=
  let mode := dF d 0 6 2
  let carry := decide (mode = 1)
  decide (dF d 0 0 4 = kind) && zeros d [(0, 8, 8), (8, 0, 4), (0xC, 16, 16), (0x14, 16, 16), (0x1C, 16, 16)]
    && (if kind = 6 then decide (mode = 0) && zeros d [(0x10, 0, 2), (0x18, 0, 2)]
        else
          zeros d [(0x10, 0, 6), (0x18, 0, 6), (0x20, 0, 6), (0x24, 24, 8)]
          && decide (mode = 0 ∨ (mode = 1 ∧ (kind = 1 ∨ kind = 4)))
          && (decide (kind = 1 ∨ kind = 4) || zeros d [(0x20, 0, 48)]))
    && kindOk kind carry d

/-! ## Finishing (R237, R238, R240) -/

/-- Job status codes. -/
abbrev jOK : Nat := 0
abbrev jREJECTED : Nat := 1
abbrev jLATE : Nat := 2
abbrev jBADDESC : Nat := 3
abbrev jACCESS : Nat := 4
abbrev jHARQBAD : Nat := 5
abbrev jFAULT : Nat := 6
abbrev jPARERR : Nat := 7
abbrev jFENCED : Nat := 8

/-- Sets an interrupt bit of an engine. -/
def setEip (s : State) (e i : Nat) : State := updEng s e fun x => x.setSr Sr.EIP (x.srN Sr.EIP ||| 2 ^ i)

/-- The job is over: NOTIFY takes effect, the report reaches the supervisor. -/
def retireJob (s : State) (j : JobS) : State :=
  let s := dropJob s j.id
  match j.eng with
  | some e => if j.f 0 4 1 = 1 then setEip s e 3 else s
  | none => s

/-- The completion record (R237); UNIT of a job that never ran is a free value. (DESIGN CHOICE, safe: log 117) -/
def crec (s : State) (j : JobS) : List Byte × State :=
  let (t, s) := copyNow s (16 + j.q)
  let (u, s) := match j.ran with
    | some i => (j.q * unitsOf j.kind + i, s)
    | none => free 5 s
  let w := j.f 0 16 16 + j.status * 2 ^ 16 + j.crcOk.toNat * 2 ^ 20 + j.et.toNat * 2 ^ 21 + j.syn.toNat * 2 ^ 22
    + j.stale.toNat * 2 ^ 23 + j.newbuf.toNat * 2 ^ 24 + j.replayed.toNat * 2 ^ 25
  (leBytes 4 w ++ leBytes 4 (j.iter + j.aux * 2 ^ 16) ++ leBytes 4 t ++ leBytes 4 u, s)

/-- The events and counters of a finished job. -/
def countJob (s : State) (j : JobS) : State :=
  let cnt (fec fft : Nat) (s : State) := inc s (jobReg j.q j.kind fec fft)
  let ev (f : Fld) (s : State) := evt s (jEvt j.q j.kind) f
  let s := if j.stale then ev F.FEC_EVT_STALE (inc s (Reg.FEC_STALE_CNT j.q)) else s
  match j.status with
  | 0 => cnt (Reg.FEC_DONE_CNT 0) (Reg.FFT_DONE_CNT 0) s
  | 1 => ev F.FEC_EVT_REJECT (cnt (Reg.FEC_REJECT_CNT 0) (Reg.FFT_REJECT_CNT 0) s)
  | 2 => ev F.FEC_EVT_LATE (cnt (Reg.FEC_LATE_CNT 0) (Reg.FFT_LATE_CNT 0) s)
  | 3 => ev F.FEC_EVT_BAD_DESC s
  | 6 => ev F.FEC_EVT_NOSIB s
  | 7 => ev F.FEC_EVT_PARERR s
  | _ => s

/-- A job ends with a status: its record is issued, or it is over at once when it names none. -/
def finishJob (s : State) (j : JobS) (status : Nat) : State :=
  let j := { j with status := status }
  let s := countJob s j
  if j.addr 8 = 0 then retireJob s j
  else
    let (r, s) := crec s j
    setJob s { j with phase := .record, reads := [], writes := [(j.addr 8, r)], unit := none }

/-! ## Posting (R232, R234) -/

/-- A descriptor is taken at the port of a kind in a strip. -/
def post (s : State) (q kind : Nat) (e : Option Nat) (func : Nat) (d : BitVec 512) : State :=
  let j : JobS := { id := s.job.next, q := q, kind := kind, eng := e, func := func, desc := d }
  let s := { wakeIdle s (16 + q) with job := { list := s.job.list ++ [j], next := s.job.next + 1 } }
  if !isSet s (jCtl q kind) F.FEC_CTL_POST_EN then finishJob s j jREJECTED
  else if !descOk kind d then finishJob s j jBADDESC
  else if queueCap kind < (queued s q kind).length then finishJob s j jREJECTED
  else s

/-- Kind of the job port at a strip offset: the first 64 KiB of its sub-window (R232, R289). -/
def portKind (off : Nat) : Option Nat :=
  if off % 0x10000000 < 0x10000 then
    match off / 0x10000000 with
    | 0 => some 1
    | 1 => some 2
    | 2 => some 3
    | 3 => some 4
    | 5 => some 6
    | _ => none
  else none

/-! ## Starting (R235, R236) -/

/-- Does job `a` go before job `b` in its queue, at count `t` (R235, R257)? Jobs of equal keys stand in order of
acceptance. -/
def jobBefore (t : Nat) (a b : JobS) : Bool :=
  let key (j : JobS) : Int := sgn 32 (j.f 4 0 32 + 2 ^ 32 - t % 2 ^ 32)
  if a.replayed != b.replayed then a.replayed
  else if a.f 0 5 1 ≠ b.f 0 5 1 then decide (a.f 0 5 1 = 0)
  else if a.f 0 5 1 = 1 then false
  else decide (key a < key b)

/-- The first job of a queue. -/
def firstJob (t : Nat) : List JobS → Option JobS
  | [] => none
  | j :: js =>
    match firstJob t js with
    | none => some j
    | some k => if jobBefore t k j then some k else some j

/-- Requests that read `n` bytes from `a`, each within a 256-byte boundary. `fuel` bounds them. -/
def chunks : Nat → Nat → Nat → List (Nat × Nat)
  | 0, _, _ => []
  | k + 1, a, n => if n = 0 then [] else (a, chunk a n) :: chunks k (a + chunk a n) (n - chunk a n)

/-- The same for a write. -/
def chunksW : Nat → Nat → List Byte → List (Nat × List Byte)
  | 0, _, _ => []
  | k + 1, a, bs =>
    if bs.isEmpty then [] else (a, bs.take (chunk a bs.length)) :: chunksW k (a + chunk a bs.length) (bs.drop (chunk a bs.length))

/-- Requests of a read. -/
abbrev readReqs (a n : Nat) : List (Nat × Nat) := chunks (n + 1) a n

/-- Requests of a write. -/
abbrev writeReqs (a : Nat) (bs : List Byte) : List (Nat × List Byte) := chunksW (bs.length + 1) a bs

/-- Length of the soft buffer. -/
def JobS.ncb (j : JobS) : Nat := j.f 0x3C 0 15

/-- Information bits with CRC, without fillers. -/
def JobS.kp (j : JobS) : Nat :=
  if j.kind = 4 then j.f 0x30 0 13 - j.f 0x34 0 6 else bgK (j.f 0x30 0 1) * j.f 0x30 1 9 - j.f 0x34 0 14

/-- Does a job ignore the committed slot (FLUSH)? A CARRY does not read the bit. -/
def JobS.flush (j : JobS) : Bool := !j.carry && decide ((if j.kind = 4 then j.f 0x30 21 1 else j.f 0x30 25 1) = 1)

/-- Bytes of a job's input. -/
def JobS.inLen (j : JobS) : Nat :=
  match j.kind with
  | 2 => (j.kp - 24 * j.f 0x30 10 1 + 7) / 8
  | 3 => j.f 0x38 0 14
  | 6 => 4 * fftN (j.f 0x20 0 4)
  | _ => j.f 0x38 0 18

/-- Requests of an input of `n` bytes that wraps within the aligned region of 2^iw bytes that holds it (R289). `fuel` bounds
them. -/
def wrapReqs (iw : Nat) : Nat → Nat → Nat → List (Nat × Nat)
  | 0, _, _ => []
  | k + 1, a, n =>
    if n = 0 then []
    else
      let m := chunk a n
      let b := (a + m)
      (a, m) :: wrapReqs iw k (if b % 2 ^ iw = 0 then b - 2 ^ iw else b) (n - m)

/-- Requests of a stage of a job's reads. (DEDUCED, unsafe: log 116) -/
def JobS.stageReqs (j : JobS) (st : Nat) : List (Nat × Nat) :=
  match st with
  | 0 => if j.harq then [(j.addr 0x20, 64)] else []
  | 1 => if j.harq && !j.flush then readReqs j.comm (64 + j.ncb) else []
  | _ =>
    if j.carry then []
    else if j.kind = 6 && decide (j.f 0x20 18 5 ≠ 0) then wrapReqs (j.f 0x20 18 5) (j.inLen + 1) (j.addr 0x10) j.inLen
    else readReqs (j.addr 0x10) j.inLen

/-- A job enters its next stage that reads something, from stage `st` on; after the last stage its work begins. -/
def JobS.enter (j : JobS) (st : Nat) : JobS :=
  match firstFrom (fun k => !(j.stageReqs k).isEmpty) (3 - st) st with
  | some k => { j with phase := .reading k, reads := j.stageReqs k, got := [] }
  | none => { j with phase := .work, reads := [] }

/-- A job starts on a unit. -/
def startOn (s : State) (j : JobS) (i : Nat) : State :=
  let s := incFld s (unitReg j.q j.kind i) F.FEC_UNIT_JOBS
  setJob s ({ j with unit := some i, ran := some i, stale := false, newbuf := false, soft := none }.enter 0)

/-- A READY unit of a kind takes the first queued job, or the job finishes as LATE. -/
def jobStart (s : State) (q kind : Nat) : State :=
  match firstFrom (fun i => unitUp s q kind i && (runsOn s q kind i).isNone) (unitsOf kind) 0 with
  | none => s
  | some i =>
    if fenced s (uDom (16 + q)) || s.pwr.clocksStopped then s
    else
      let (t, s) := copyNow s (16 + q)
      match firstJob t (queued s q kind) with
      | none => s
      | some j =>
        if j.f 0 5 1 = 0 ∧ 0 < sgn 32 (t % 2 ^ 32 + 2 ^ 32 - j.f 4 0 32) then finishJob s j jLATE
        else startOn s j i

/-! ## HARQ (R249 to R253) -/

/-- The buffer header has been read (R250): bank addresses, or HARQ_BAD. -/
def harqHeader (j : JobS) (h : List Byte) : Option JobS :=
  let cb := leAt h 4 4 % 2
  let ns := leAt h 0x10 4 % 512
  let st := leAt h 0x14 4
  let sl := j.f 0x24 16 8
  if ns ≤ sl ∨ st < 64 + j.ncb then none
  else
    let at_ (b : Nat) := j.addr 0x20 + 64 + b * ns * st + sl * st
    some { j with comm := at_ cb, slot := at_ (1 - cb), stamp := (leAt h 8 4, leAt h 0xC 4 % 2 ^ 13) }

/-- Fields of a job's code, as a slot header holds them: SKIND, ZK with SBG, SF, SNCB. (DEDUCED, unsafe: log 121) -/
def JobS.code (j : JobS) : Nat × Nat × Nat × Nat :=
  if j.kind = 4 then (4, j.f 0x30 0 13, j.f 0x34 0 6, j.ncb)
  else (1, j.f 0x30 1 9 + j.f 0x30 0 1 * 2 ^ 13, j.f 0x34 0 14, j.ncb)

/-- The committed slot is judged (R251); nothing for HARQ_BAD. -/
def harqSlot (j : JobS) (b : List Byte) : Option JobS :=
  let w (o n : Nat) := leAt b o 4 % 2 ^ n
  let j := { j with head := b.take 64 }
  if w 0 4 = 0 then some { j with newbuf := true }
  else if (w 0x10 32, w 0x14 13) ≠ j.stamp then some { j with stale := true }
  else if (w 0 4, w 4 14, w 8 14, w 0xC 15) ≠ j.code then none
  else some { j with soft := some (b.drop 64) }

/-- TOKEN_SLOT and TOKEN_TASK, as bytes 0x10 to 0x17 of a slot header. -/
def JobS.token (j : JobS) : List Byte := leBytes 4 (j.f 0x28 0 32) ++ leBytes 4 (j.f 0x2C 0 13)

/-- Header of the slot a decode job writes (R252). -/
def JobS.slotHead (j : JobS) (crcOk : Bool) : List Byte :=
  let (a, b, c, d) := j.code
  leBytes 4 a ++ leBytes 4 b ++ leBytes 4 c ++ leBytes 4 d ++ j.token ++ leBytes 4 crcOk.toNat ++ List.replicate 36 0

/-- The slot a CARRY writes (R253). (DEDUCED, unsafe: log 121) -/
def JobS.carrySlot (j : JobS) : List Byte :=
  match j.soft with
  | some b => j.head.take 0x10 ++ j.token ++ j.head.drop 0x18 ++ b
  | none =>
    let h := leBytes 4 (leAt j.head 0 4 / 16 * 16) ++ (j.head.drop 4).take 0xC ++ j.token ++ j.head.drop 0x18
    h ++ List.replicate j.ncb 0

/-! ## Work -/

/-- Bits as bytes, the unused bits of the last byte free values. (DESIGN CHOICE, safe: log 117) -/
def packFree (s : State) (bs : List Bool) : List Byte × State :=
  let (x, s) := free 8 s
  (bitsToBytes ((bs.length + 7) / 8) (bs ++ natBits 8 x), s)

/-- What a decode job writes: output bits, then its HARQ slot. (DESIGN CHOICE, safe: log 117) -/
def JobS.decodeWrites (s : State) (j : JobS) (r : DecRes) (soft : Array Int) : JobS × State :=
  let (out, s) := packFree s r.bits
  let slot := j.slotHead r.crcOk ++ soft.toList.map fun v => BitVec.ofInt 8 v
  ({ j with writes := writeReqs (j.addr 0x18) out ++ (if j.harq then writeReqs j.slot slot else []),
            crcOk := r.crcOk, et := r.et, iter := r.iter }, s)

/-- A job's results: its writes and what its record says; nothing when its bit selection never ends. (DEDUCED, unsafe: log 118) -/
def jobWork (s : State) (j : JobS) : Option (JobS × State) :=
  let softIn : Array Int := (match j.soft with
    | some b => b.map fun (x : Byte) => x.toInt
    | none => List.replicate j.ncb 0).toArray
  let e := j.f 0x38 0 18
  if j.carry then some ({ j with writes := if j.harq then writeReqs j.slot j.carrySlot else [] }, s)
  else match j.kind with
    | 1 =>
      let bg := j.f 0x30 0 1
      let z := j.f 0x30 1 9
      let f := j.f 0x34 0 14
      let skip := ldpcFiller bg z f
      if !selectable j.ncb skip then none
      else
        let soft := combine softIn (selection (ldpcK0 bg z j.ncb (j.f 0x34 14 2)) j.ncb e skip) (j.got.map llrIn)
        let crc := match j.f 0x30 23 2 with | 0 => 1 | 1 => 0 | _ => 3
        let r := ldpcDecode bg z f (j.f 0x30 10 6) (j.f 0x30 16 5) crc (j.f 0x30 21 1 = 1) (j.f 0x30 22 1 = 1) soft.toList
        let (j, s) := j.decodeWrites s r soft
        some ({ j with syn := decide (r.unsat = 0), aux := min 65535 r.unsat }, s)
    | 2 =>
      let bg := j.f 0x30 0 1
      let z := j.f 0x30 1 9
      let f := j.f 0x34 0 14
      let qm := j.f 0x30 11 4
      let attach := decide (j.f 0x30 10 1 = 1)
      if !selectable j.ncb (ldpcFiller bg z f) then none
      else
        let pay := (bytesToBits j.got).take (j.kp - (if attach then 24 else 0))
        let info := if attach then pay ++ natBits 24 (crcBits 1 pay) else pay
        let (open_, s) := free e s
        let out := if e % qm ≠ 0 || (attach && decide (j.kp < 24)) then natBits e open_
          else ldpcEncode bg z f (j.f 0x34 14 2) e j.ncb qm info
        some ({ j with writes := writeReqs (j.addr 0x18) (bitsToBytes ((e + 7) / 8) (out ++ List.replicate 8 false)) }, s)
    | 3 =>
      let k := j.f 0x34 0 10
      let sel := j.f 0x30 6 2
      let llr := j.got.map fun b => BitVec.ofInt 8 (llrIn b)
      let fields := [j.f 0x30 0 4, j.f 0x30 4 2, sel, j.f 0x30 8 1, j.f 0x30 9 1, j.f 0x30 10 2, k, e, j.f 0x3C 0 16]
      let bs := (upto k).map (Config.polarBit fields llr)
      let (out, s) := packFree s (bs.take (k - (polarCrc sel).2))
      some ({ j with writes := writeReqs (j.addr 0x18) out, crcOk := polarPass sel (j.f 0x3C 0 16) bs,
                     aux := (Config.polarMetric fields llr).toNat }, s)
    | 4 =>
      let k := j.f 0x30 0 13
      let f := j.f 0x34 0 6
      let skip := turboNull k f
      if !selectable j.ncb skip then none
      else
        let soft := combine softIn (selection (turboK0 k j.ncb (j.f 0x34 6 2)) j.ncb e skip) (j.got.map llrIn)
        let crc := if j.f 0x30 14 2 = 0 then 1 else 0
        let bytes := soft.toList.map fun v => BitVec.ofInt 8 v
        some (j.decodeWrites s (turboLoop k f crc (j.f 0x30 13 1 = 1) bytes (j.f 0x30 16 5) 0) soft)
    | _ =>
      let code := j.f 0x20 0 4
      let n := fftN code
      let (m, three) := fftSize code
      let xs : List Cx := (upto n).map fun i => (sgn 16 (leAt j.got (4 * i) 2), sgn 16 (leAt j.got (4 * i + 2) 2))
      let (bins, sats) := fft (j.f 0x20 4 1 = 1) (j.f 0x20 5 13) m three xs
      let b := bins.toArray
      let out := (upto (j.f 0x24 16 13)).map fun i => b.getD ((j.f 0x24 0 12 + i) % n) (0, 0)
      let parts := out.flatMap fun x => [satN 16 x.1, satN 16 x.2]
      let bad := (parts.filter (·.2)).length
      let s := addCnt s (Reg.FFT_SAT_CNT j.q) sats
      let s := if bad = 0 then s else evt s (Reg.FFT_EVT j.q) F.FFT_EVT_SAT
      some ({ j with writes := writeReqs (j.addr 0x18) (parts.flatMap fun p => leBytes 2 (wrapN 16 p.1)), aux := min 65535 bad }, s)

/-- A job's work ends: its first write is issued, or its record when it has none. -/
def jobFinish (s : State) (id : Nat) : State :=
  match job? s id with
  | some j =>
    if j.phase ≠ .work || s.pwr.clocksStopped then s
    else match jobWork s j with
      | none => s
      | some (j, s) => if j.writes.isEmpty then finishJob s j jOK else setJob s { j with phase := .writing }
  | none => s

/-! ## Responses -/

/-- All requests of a stage of reads have been answered. -/
def stageDone (s : State) (j : JobS) : State :=
  match j.phase with
  | .reading 0 =>
    match harqHeader j j.got with
    | some j => setJob s (j.enter 1)
    | none => finishJob s j jHARQBAD
  | .reading 1 =>
    match harqSlot j j.got with
    | some j => setJob s (j.enter 2)
    | none => finishJob s j jHARQBAD
  | _ => setJob s (j.enter 3)

/-- Status of an error response (R240). -/
def errStatus (c : Nat) : Nat := if c = PARERR then jPARERR else jACCESS

/-- A response to a request of a job arrives; `doRead` and `doWrite` perform the request. Answers the status of a job that its
response ends, jOK otherwise. -/
def jobResponse (s : State) (id : Nat) (doRead : State → Issuer → Nat → Nat → Nat × List Byte × State)
    (doWrite : State → Issuer → Nat → List Byte → Nat × State) : Nat × State :=
  match job? s id with
  | none => (jOK, s)
  | some j =>
    match j.phase, j.reads, j.writes with
    | .reading _, (a, n) :: rest, _ =>
      let (c, bs, s) := doRead s j.issuer a n
      if c ≠ OKAY then (errStatus c, finishJob s j (errStatus c))
      else
        let j := { j with reads := rest, got := j.got ++ bs }
        (jOK, if rest.isEmpty then stageDone s j else setJob s j)
    | .writing, _, (a, bs) :: rest =>
      let (c, s) := doWrite s j.issuer a bs
      if j.cancelled then (jOK, dropJob s id)
      else if c ≠ OKAY then (jACCESS, finishJob s j jACCESS)
      else
        let j := { j with writes := rest }
        (jOK, if rest.isEmpty then finishJob s j jOK else setJob s j)
    | .record, _, (a, bs) :: _ => (jOK, retireJob (doWrite s j.issuer a bs).2 j)
    | _, _, _ => (jOK, s)

/-! ## Cancellation (R239) -/

/-- Is a job beyond cancellation: its record has been issued? -/
def JobS.recorded (j : JobS) : Bool := decide (j.phase = .record)

/-- What cancellation by engine `e` leaves of a job. -/
def cancelOne (e : Nat) (j : JobS) : Option JobS :=
  if decide (j.eng ≠ some e) || j.recorded || j.cancelled then some j
  else if j.phase = .writing then some { j with cancelled := true, unit := none }
  else none

/-- The jobs of an engine are cancelled in every strip. -/
def cancelJobs (s : State) (e : Nat) : State :=
  let mine := s.job.list.filter fun j => decide (j.eng = some e) && !j.recorded && !j.cancelled
  let s := mine.foldl (fun s j => inc s (jobReg j.q j.kind (Reg.FEC_CANCEL_CNT 0) (Reg.FFT_CANCEL_CNT 0))) s
  { s with job := { s.job with list := s.job.list.filterMap (cancelOne e) } }

/-- Has the cancellation of an engine's jobs completed: no write of a cancelled job is outstanding? -/
def cancelDone (s : State) (e : Nat) : Bool := !(s.job.list.any fun j => decide (j.eng = some e) && j.cancelled)

/-- Jobs of an engine that have not finished: the engine's task waits for them at TEND (R77, R238). -/
def jobsLeft (s : State) (e : Nat) : Bool := s.job.list.any fun j => decide (j.eng = some e) && !j.cancelled

/-- A function's jobs end without record or report (R437): nothing of them is kept. -/
def dropJobsOf (s : State) (p : JobS → Bool) : State :=
  { s with job := { s.job with list := s.job.list.filter fun j => !p j } }

/-! ## Unit faults (R257, R258) and strips (R261) -/

/-- The job of a faulty unit: it is queued again for a sibling, or ends with FAULT. Its outstanding write is answered
first. Answers the engine whose task the fault stops. -/
def faultJob (s : State) (j : JobS) (i : Nat) (doWrite : State → Issuer → Nat → List Byte → Nat × State) : Option Nat × State :=
  let s := match j.phase, j.writes with
    | .writing, (a, bs) :: _ => (doWrite s j.issuer a bs).2
    | _, _ => s
  let sibling := (upto (unitsOf j.kind)).any fun k => decide (k ≠ i) && unitUp s j.q j.kind k
  if isSet s (jCtl j.q j.kind) F.FEC_CTL_REPLAY_EN && sibling && !j.replayed then
    let s := evt (inc s (jobReg j.q j.kind (Reg.FEC_REPLAY_CNT 0) (Reg.FFT_REPLAY_CNT 0))) (jEvt j.q j.kind) F.FEC_EVT_REPLAY
    (none, setJob s { id := j.id, q := j.q, kind := j.kind, eng := j.eng, func := j.func, desc := j.desc, replayed := true })
  else (j.eng, finishJob s j jFAULT)

/-- A unit faults: the fault is counted, the unit fenced, its job replayed or ended. -/
def jobUnitFault (s : State) (q kind i fkind : Nat)
    (doWrite : State → Issuer → Nat → List Byte → Nat × State) : Option Nat × State :=
  let u := jobUnit q kind i
  if discards s u || !domLive s (16 + q) then (none, s)
  else
    let s := evt (inc s (jobReg q kind (Reg.FEC_FAULT_CNT 0) (Reg.FFT_FAULT_CNT 0))) (jEvt q kind) F.FEC_EVT_UNIT_FAULT
    let held := runsOn s q kind i
    let s := setUnitSt s u 1
    let (e, s) := match held with
      | some j => faultJob s j i doWrite
      | none => (none, s)
    (e, unitFault s u fkind 0 0)

/-- Before a strip is fenced for RET or OFF, its queued jobs end with FENCED (R261). -/
def fenceJobs (s : State) (q : Nat) : State :=
  (s.job.list.filter fun j => decide (j.q = q ∧ j.phase = .queued)).foldl (fun s j => finishJob s j jFENCED) s

/-- Does a strip still run a job? -/
def stripBusy (s : State) (q : Nat) : Bool := s.job.list.any fun j => decide (j.q = q ∧ j.phase ≠ .queued)

end Sys2Proof.Machine
end

