-- ==== Sys2Proof/Machine/Link.lean ====
section
/-! DEFINITION. The Ochre link (R350 to R381): training, loss of lock, the spare, control messages, frames in both
directions, sections and egress. Lanes are device lanes 0 to 95. -/

namespace Sys2Proof.Machine

/-! ## Access -/

/-- A lane beside its registers. -/
def lane (s : State) (l : Nat) : LaneS := Tab.get (fun _ => {}) s.lnk.lanes l

/-- Changes a lane. -/
def updLane (s : State) (l : Nat) (g : LaneS → LaneS) : State :=
  { s with lnk := { s.lnk with lanes := Tab.upd (fun _ => {}) s.lnk.lanes l g } }

/-- A bundle beside its registers. -/
def bundle (s : State) (b : Nat) : BundleS := Tab.get (fun _ => {}) s.lnk.bundles b

/-- Changes a bundle. -/
def updBundle (s : State) (b : Nat) (g : BundleS → BundleS) : State :=
  { s with lnk := { s.lnk with bundles := Tab.upd (fun _ => {}) s.lnk.bundles b g } }

/-- A register of a lane, from its address function. -/
def lnReg (r : Nat → Nat → Nat) (l : Nat) : Nat := r (l / 8) (l % 8)

/-- Training state of a lane (codes of LN_STAT.STATE). -/
def lnState (s : State) (l : Nat) : Nat := fld s (lnReg Reg.LN_STAT l) F.LN_STAT_STATE

/-- Sets the training state. -/
def setLn (s : State) (l st : Nat) : State := setFld s (lnReg Reg.LN_STAT l) F.LN_STAT_STATE st

/-- Sets a field of LN_STAT. -/
def setLnF (s : State) (l : Nat) (f : Fld) (v : Nat) : State := setFld s (lnReg Reg.LN_STAT l) f v

/-- Sets an event bit of a lane. -/
def lnEvt (s : State) (l : Nat) (f : Fld) : State := evt s (lnReg Reg.LN_EVT l) f

/-- Is a bundle in protected mode (R352)? -/
def prot (s : State) (b : Nat) : Bool := isSet s (Reg.LNK_CTL b) F.LNK_CTL_PROT

/-- Switch state and the lane on the spare (R377). -/
def swState (s : State) (b : Nat) : Nat := fld s (Reg.LNK_STAT b) F.LNK_STAT_SWSTATE
def swLane (s : State) (b : Nat) : Nat := fld s (Reg.LNK_STAT b) F.LNK_STAT_SWLANE

/-- Sets switch state and lane. -/
def setSw (s : State) (b st l : Nat) : State :=
  setFld (setFld s (Reg.LNK_STAT b) F.LNK_STAT_SWSTATE st) (Reg.LNK_STAT b) F.LNK_STAT_SWLANE l

/-! ## Training (R359 to R365) -/

/-- The message a lane sends in its TRN blocks changes. -/
def trainMsg (s : State) (l msg content : Nat) : State := emit s (.train l msg content)

/-- CAPS content of a lane (R361), as bits [63:16] in place. -/
def capsContent (s : State) (l : Nat) : Nat :=
  fld s (Reg.LNK_CTL (l / 8)) F.LNK_CTL_RATE * 2 ^ 16 + (prot s (l / 8)).toNat * 2 ^ 20 + l % 8 * 2 ^ 21 + 2 ^ 24
    + (rd s (lnReg Reg.LN_MYID l)).toNat * 2 ^ 32

/-- Is LNK in its minimal state: signal detect only, no training (R36)? -/
def lnkMinimal (s : State) : Bool := isSet s (Reg.PWR_DOMAIN_STATE 23) F.PWR_DOMAIN_STATE_MINIMAL

/-- An attempt starts: the timer runs and the lane enters ALIGN. -/
def startAttempt (s : State) (l : Nat) (fromAbsent : Bool) : State :=
  if lnkMinimal s then s else
  let s := updLane s l fun x =>
    { x with attempt := rawTotal s, fromAbsent := fromAbsent, valid := 0, window := [], trn := none, capsOk := false,
             ackIn := false, good := 0, bad := 0 }
  setLn (setLnF (setLnF s l F.LN_STAT_BLOCKLOCK 0) l F.LN_STAT_SLIPREQ 0) l 2

/-- An attempt fails (R363). (DEDUCED, unsafe: log 19) -/
def failAttempt (s : State) (l code : Nat) : State :=
  let s := setLnF s l F.LN_STAT_FAIL code
  let n := min 16 (fld s (lnReg Reg.LN_STAT l) F.LN_STAT_ATTEMPTS + 1)
  let s := setLnF s l F.LN_STAT_ATTEMPTS n
  let s := lnEvt (inc s (lnReg Reg.LN_TRAIN_FAIL_CNT l)) l F.LN_EVT_TRAIN_FAIL
  if (lane s l).fromAbsent then setLn (updLane s l fun x => { x with absentAt := rawTotal s }) l 8
  else if n = 16 then setLn (lnEvt (updLane s l fun x => { x with absentAt := rawTotal s }) l F.LN_EVT_ABSENT) l 8
  else
    let t := min (19660800 * 2 ^ (n - 1)) 1966080000
    setLn (updLane s l fun x => { x with backoff := rawTotal s + t }) l 7

/-- Is a lane training, from ALIGN to CHECK? -/
def training (s : State) (l : Nat) : Bool := decide (2 ≤ lnState s l ∧ lnState s l ≤ 5)

/-- Signal appears (R363): in IDLE the attempt timer starts. -/
def signalPresent (s : State) (l : Nat) : State :=
  let s := setLnF s l F.LN_STAT_SIGNAL 1
  if lnState s l = 1 then startAttempt s l false else s

/-- Signal is lost; during training the lane returns to IDLE (R363). -/
def signalLost (s : State) (l : Nat) : State :=
  let s := setLnF s l F.LN_STAT_SIGNAL 0
  if training s l then
    setLn (lnEvt (inc s (lnReg Reg.LN_LOS_CNT l)) l F.LN_EVT_LOS_TRAIN) l 1
  else s

/-- Descrambles a block payload of 64 bits, bit 0 first (R359); `h` holds the last 58 received bits, newest in bit 0. -/
def descramble64 (p : Nat) (h : Nat) : Nat × Nat :=
  (upto 64).foldl (fun (d, h) i =>
    let b := bitAt p i
    let x := (b != bitAt h 38) != bitAt h 57
    (d + x.toNat * 2 ^ i, (h * 2 + b.toNat) % 2 ^ 58)) (0, h)

/-- A control block after descrambling (R359, R361): IDLE does nothing, a training message of a defined MSG waits for its
event, any other type is counted. -/
def controlBlock (s : State) (l d : Nat) : State :=
  if d % 256 = 0x1E then s
  else if d % 256 = 0x4B then
    let m := bits d 8 8
    if 1 ≤ m ∧ m ≤ 4 then updLane s l fun x => { x with trn := some (m, d) } else s
  else inc s (lnReg Reg.LN_BLKHDR_ERR_CNT l)

/-- A block is received and its header checked (R359, R360). `hdr` holds the two header bits, first bit high. -/
def blockReceive (s : State) (l hdr p : Nat) : State :=
  if !training s l then s
  else
    let (d, h) := descramble64 p (lane s l).rxScr
    let s := updLane s l fun x => { x with rxScr := h }
    let ok := hdr = 1 ∨ hdr = 2
    if !isSet s (lnReg Reg.LN_STAT l) F.LN_STAT_BLOCKLOCK then
      if ok then updLane s l fun x => { x with valid := min 64 (x.valid + 1) }
      else
        let s := updLane s l fun x => { x with valid := 0 }
        if isSet s (lnReg Reg.LN_CTL l) F.LN_CTL_AUTOSLIP then s
        else lnEvt (setLnF s l F.LN_STAT_SLIPREQ 1) l F.LN_EVT_SLIPREQ
    else
      let s := updLane s l fun x => { x with window := ((!decide ok) :: x.window).take 64 }
      if hdr = 2 then controlBlock s l d else if hdr = 1 then inc s (lnReg Reg.LN_BLKHDR_ERR_CNT l) else s

/-- Block lock (R360, R363). -/
def blockLock (s : State) (l : Nat) : State :=
  if training s l && !isSet s (lnReg Reg.LN_STAT l) F.LN_STAT_BLOCKLOCK && decide ((lane s l).valid ≥ 64) then
    let s := setLnF s l F.LN_STAT_BLOCKLOCK 1
    let s := updLane s l fun x => { x with window := [] }
    if lnState s l = 2 then trainMsg (setLn s l 3) l 1 (capsContent s l) else s
  else s

/-- Block lock is lost: 16 invalid headers among the last 64 (R360). -/
def blockLockLost (s : State) (l : Nat) : State :=
  if isSet s (lnReg Reg.LN_STAT l) F.LN_STAT_BLOCKLOCK && decide (16 ≤ ((lane s l).window.filter id).length) then
    updLane (setLnF s l F.LN_STAT_BLOCKLOCK 0) l fun x => { x with valid := 0, window := [] }
  else s

/-- A manual slip (R360). -/
def lnSlip (s : State) (l : Nat) : State :=
  updLane (setLnF s l F.LN_STAT_SLIPREQ 0) l fun x => { x with valid := 0 }

/-- The first check of R362 that a partner's CAPS fails: its FAIL code, 0 when all pass. -/
def capsCheck (s : State) (l d : Nat) : Nat :=
  if bits d 16 4 ≠ fld s (Reg.LNK_CTL (l / 8)) F.LNK_CTL_RATE then 4
  else if bitAt d 20 != prot s (l / 8) then 5
  else if bits d 21 3 ≠ l % 8 then 6
  else if bits d 24 8 = 0 then 7
  else if isSet s (lnReg Reg.LN_CTL l) F.LN_CTL_EXPECT_EN && decide (bits d 32 32 ≠ (rd s (lnReg Reg.LN_EXPECT l)).toNat) then 8
  else 0

/-- Both sides have accepted (R363): HANDOVER from C = 64. -/
def maybeHandover (s : State) (l : Nat) : State :=
  if (lane s l).capsOk && (lane s l).ackIn then trainMsg (setLn s l 4) l 4 (64 * 2 ^ 16) else s

/-- A partner's CAPS (R362, R363). -/
def lnCaps (s : State) (l : Nat) : State :=
  match (lane s l).trn with
  | some (1, d) =>
    let s := updLane s l fun x => { x with trn := none }
    if lnState s l ≠ 3 then s
    else
      let s := wr s (lnReg Reg.LN_PARTNER l) (BitVec.ofNat 32 (bits d 32 32))
      let c := capsCheck s l d
      if c ≠ 0 then failAttempt (trainMsg s l 3 (c * 2 ^ 16)) l c
      else maybeHandover (trainMsg (updLane s l fun x => { x with capsOk := true }) l 2 0) l
  | _ => s

/-- A partner's ACK (R363). -/
def lnAck (s : State) (l : Nat) : State :=
  match (lane s l).trn with
  | some (2, _) =>
    let s := updLane s l fun x => { x with trn := none }
    if lnState s l ≠ 3 then s else maybeHandover (updLane s l fun x => { x with ackIn := true }) l
  | _ => s

/-- A partner's NAK (R363). -/
def lnNak (s : State) (l : Nat) : State :=
  match (lane s l).trn with
  | some (3, _) =>
    let s := updLane s l fun x => { x with trn := none }
    if lnState s l ≠ 3 then s else failAttempt s l 9
  | _ => s

/-- The lane's own block with C = 1 has been sent (R363): frames from SEQ 0. -/
def lnHandover (s : State) (l : Nat) : State :=
  if lnState s l ≠ 4 then s
  else setLn (updLane s l fun x => { x with txSeq := 0, rxSeq := 0, good := 0, bad := 0, lastBit := false }) l 5

/-- The ready handshake of a fenced lane (R364): false when the generation check fails. In protected mode the fence of a
lane whose streams are on the spare stays until the revert. -/
def laneHandshake (s : State) (l : Nat) : Bool × State :=
  let u := uLane l
  if unitSt s u = 0 then (true, s)
  else if (unit s u).gen ≠ (unit s u).shadowGen then (false, genFail s u)
  else
    let keep := prot s (l / 8) && decide (swState s (l / 8) ≠ 0 ∧ swLane s (l / 8) = l % 8)
    let f := fence s u
    let s := handshakeDone s u
    (true, if keep then setFence s u f else s)

/-- Four good frames in CHECK bring the lane to UP (R363, R364). -/
def checkPass (s : State) (l : Nat) : State :=
  if lnState s l = 5 ∧ 4 ≤ (lane s l).good ∧ unitSt s (uLane l) ≠ 3 then
    let (ok, s) := laneHandshake s l
    if !ok then s
    else
      let s := lnEvt (setLnF (setLn s l 6) l F.LN_STAT_ATTEMPTS 0) l F.LN_EVT_UP
      let s := updLane s l fun x => { x with bad := 0, fromAbsent := false }
      let b := l / 8
      if l % 8 = 7 ∧ (bundle s b).spareLost = true then
        updBundle (setSw s b 0 0) b fun x => { x with spareLost := false, own := none, partner := none }
      else s
  else s

/-- The attempt timer of 10 ms expires (R363, R365). -/
def attemptTimeout (s : State) (l : Nat) : State :=
  if training s l && decide ((lane s l).attempt + 19660800 ≤ rawTotal s) && !(decide (lnState s l = 5) && decide (4 ≤ (lane s l).good))
  then failAttempt s l (match lnState s l with | 2 => 1 | 5 => 3 | _ => 2)
  else s

/-- The backoff ends (R363). -/
def backoffEnd (s : State) (l : Nat) : State :=
  if lnState s l = 7 ∧ (lane s l).backoff ≤ rawTotal s then setLn s l 1 else s

/-- Each second in ABSENT with signal present, one attempt (R363). -/
def absentRetry (s : State) (l : Nat) : State :=
  if lnState s l = 8 ∧ isSet s (lnReg Reg.LN_STAT l) F.LN_STAT_SIGNAL = true ∧ (lane s l).absentAt + 1966080000 ≤ rawTotal s
  then startAttempt s l true else s

/-! ## Control messages (R375) -/

/-- The lanes control messages travel on: the spare, and the lowest-numbered other lane in UP. -/
def ctrlLanes (s : State) (b : Nat) : List Nat :=
  let up := fun k => decide (lnState s (b * 8 + k) = 6)
  (if up 7 then [b * 8 + 7] else []) ++ (match firstFrom up 7 0 with | some k => [b * 8 + k] | none => [])

/-- Queues a message on a lane. -/
def queueMsg (s : State) (l : Nat) (urgent : Bool) (m : List Byte) : State :=
  updLane s l fun x => { x with msgs := x.msgs ++ [(urgent, m)] }

/-- The next MID of a bundle. -/
def takeMid (s : State) (b : Nat) : Nat × State :=
  ((bundle s b).mid, updBundle s b fun x => { x with mid := (x.mid + 1) % 256 })

/-- A message of 16 bytes: TYPE, MID, LANE, then bytes 4 to 7. -/
def ctrlMsg (type mid l w : Nat) : List Byte := leBytes 4 (type + mid * 2 ^ 8 + l * 2 ^ 16) ++ leBytes 4 w ++ leBytes 8 0

/-- Sends a control message of the bundle, both copies with one MID. -/
def sendCtrl (s : State) (b type l w : Nat) : List Byte × State :=
  let (mid, s) := takeMid s b
  let m := ctrlMsg type mid l w
  (m, (ctrlLanes s b).foldl (fun s k => queueMsg s k true m) s)

/-- Sends the bundle's own SWITCH or REVERT, which is resent until acknowledged. -/
def sendOwn (s : State) (b type l seqAt : Nat) (req : Bool) : State :=
  let (m, s) := sendCtrl s b type l (seqAt % 2 ^ 24 + req.toNat * 2 ^ 24)
  updBundle s b fun x => { x with own := some (m, rawTotal s, rawTotal s) }

/-- Acknowledges a SWITCH (0x02) or REVERT (0x04): 0 accepted, 1 BUSY, 2 NOSPARE. -/
def sendAck (s : State) (b type l mid status : Nat) : State := (sendCtrl s b type l (mid + status * 2 ^ 8)).2

/-! ## Egress queues (R372) -/

/-- Every waiting section of a lane is dropped and counted. -/
def dropEgress (s : State) (l : Nat) : State :=
  let n := (lane s l).egress.length
  if n = 0 then s
  else
    let s := updLane s l fun x => { x with egress := [] }
    evt (addCnt s (Reg.LNK_EGLATE_CNT (l / 8)) n) (Reg.LNK_EVT (l / 8)) F.LNK_EVT_EGLATE

/-- The waiting sections of one lane move to another. -/
def moveEgress (s : State) (a c : Nat) : State :=
  let q := (lane s a).egress
  updLane (updLane s a fun x => { x with egress := [] }) c fun x => { x with egress := x.egress ++ q }

/-- The lane a stream's sections leave on: its own, or the spare while that lane is switched (R372, R377). -/
def egressLane (s : State) (b k : Nat) : Nat :=
  if prot s b && decide (swState s b = 1 ∨ swState s b = 2) && decide (swLane s b = k) && !(bundle s b).spareLost
  then b * 8 + 7 else b * 8 + k

/-- Sorted by transmit time: an item joins behind those of its time and earlier. -/
def egInsert (x : EgItem) : List EgItem → List EgItem
  | [] => [x]
  | y :: ys => if dist x.t y.t < 0 then x :: y :: ys else y :: egInsert x ys

/-- A section or missing header is queued on its stream's lane, or dropped when that lane is not UP. -/
def egQueue (s : State) (b k : Nat) (x : EgItem) : State :=
  let l := egressLane s b k
  if lnState s l = 6 then updLane s l fun z => { z with egress := egInsert x z.egress }
  else evt (inc s (Reg.LNK_EGLATE_CNT b)) (Reg.LNK_EVT b) F.LNK_EVT_EGLATE

/-- The 16 header bytes of a missing header (R372). -/
def missingHeader (stream slot : Nat) : List Byte :=
  leBytes 4 (stream + 0xFF * 2 ^ 8 + 15 * 2 ^ 20 + 2 ^ 28) ++ leBytes 4 (slot % 2 ^ 16) ++ leBytes 8 0

/-- A missing header as an item of an egress queue. -/
def missingItem (stream slot t : Nat) : EgItem :=
  { t := t, stream := stream, slot := slot, missing := true, fmt := 0, bytes := missingHeader stream slot }

/-! ## Loss of lock and the spare (R376 to R379) -/

/-- Own move (R377): the lane's streams, and its waiting sections, go to the spare. -/
def ownMove (s : State) (b k : Nat) : State :=
  let s := evt (inc s (Reg.LNK_SW_CNT b)) (Reg.LNK_EVT b) F.LNK_EVT_SWITCH
  sep (moveEgress (setSw s b 1 k) (b * 8 + k) (b * 8 + 7)) 0x0C (uLane (b * 8 + k)) 0 k

/-- Sequence number of the next frame of a lane. -/
def nextSeq (s : State) (l : Nat) : Nat := (lane s l).txSeq

/-- The bundle moves lane `k` to the spare by itself, when it is FREE and the spare is UP. -/
def ownSwitch (s : State) (b k : Nat) : State :=
  let s := ownMove s b k
  sendOwn s b 0x01 k (nextSeq s (b * 8 + 7)) true

/-- Lane `k` of a bundle has lost lock (R377). -/
def bundleLoss (s : State) (b k : Nat) : State :=
  if !prot s b then dropEgress s (b * 8 + k)
  else if k = 7 then
    let s := dropEgress s (b * 8 + 7)
    if swState s b = 0 then s
    else
      let s := evt s (Reg.LNK_EVT b) F.LNK_EVT_SWITCH_FAIL
      updBundle (sep s 0x0C (uLane (b * 8 + swLane s b)) 2 (swLane s b)) b fun x => { x with spareLost := true, own := none }
  else if swState s b = 0 ∧ lnState s (b * 8 + 7) = 6 ∧ isSet s (Reg.LNK_CTL b) F.LNK_CTL_AUTO_SW = true then ownSwitch s b k
  else dropEgress s (b * 8 + k)

/-- A lane in UP loses lock (R376): it leaves UP for IDLE, is fenced, and the loss counts as a fault of the lane. At the limit
the lane is retired. -/
def lossOfLock (s : State) (l : Nat) : State :=
  if lnState s l ≠ 6 then s
  else
    let s := setLnF (setLn s l 1) l F.LN_STAT_FAIL 10
    let s := lnEvt (inc s (lnReg Reg.LN_LOCKLOSS_CNT l)) l F.LN_EVT_DOWN
    let s := sep s 0x0B (uLane l) 1 10
    let s := unitFault s (uLane l) 8 0 0
    let s := bundleLoss s (l / 8) (l % 8)
    if unitSt s (uLane l) = 3 then setLn s l 10 else s

/-- FORCE of LNK_SPARE_CTL (R377). (DEDUCED, unsafe: log 20) -/
def spareForce (s : State) (b : Nat) : State :=
  let k := fld s (Reg.LNK_SPARE_CTL b) F.LNK_SPARE_CTL_LANE
  if prot s b && decide (k ≠ 7 ∧ swState s b = 0 ∧ lnState s (b * 8 + 7) = 6) then ownSwitch s b k else s

/-- The device sends the streams of the lane on the spare on their own lane again (R377). -/
def ownRevert (s : State) (b : Nat) (req : Bool) : State :=
  let k := swLane s b
  let s := setSw (moveEgress s (b * 8 + 7) (b * 8 + k)) b 3 k
  sendOwn s b 0x03 k (nextSeq s (b * 8 + k)) req

/-- REVERT of LNK_SPARE_CTL (R379). -/
def spareRevert (s : State) (b : Nat) : State :=
  let k := fld s (Reg.LNK_SPARE_CTL b) F.LNK_SPARE_CTL_LANE
  if swState s b = 2 ∧ swLane s b = k ∧ lnState s (b * 8 + k) = 6 then ownRevert s b true else s

/-- Takes the message at the head of a lane's received messages when it has a TYPE. A repetition of the last message
accepted of its TYPE is ignored (R375). -/
def takeMsg (s : State) (l : Nat) (p : Nat → Bool) : Option RxItem × State :=
  match (lane s l).rxMsgs with
  | [] => (none, s)
  | m :: ms =>
    let type := leAt m.bytes 0 1
    let mid := leAt m.bytes 1 1
    if !p type then (none, s)
    else
      let s := updLane s l fun x => { x with rxMsgs := ms }
      let b := l / 8
      if (bundle s b).seen.any fun e => e == (type, mid) then (none, s)
      else (some m, updBundle s b fun x => { x with seen := (type, mid) :: x.seen.filter fun e => e.1 ≠ type })

/-- A partner's request for lane `k` with REQ = 1 meets a bundle in FREE (R377). -/
def partnerSwitch (s : State) (b k : Nat) (ack : Option Nat) : State :=
  if !prot s b || decide (lnState s (b * 8 + 7) ≠ 6 ∨ k = 7) then
    match ack with | some mid => sendAck s b 0x02 k mid 2 | none => s
  else
    let s := ownMove (fenceRequest s (uLane (b * 8 + k))) b k
    let s := match ack with | some mid => sendAck s b 0x02 k mid 0 | none => s
    sendOwn s b 0x01 k (nextSeq s (b * 8 + 7)) false

/-- A SWITCH message (R377). (DEDUCED, unsafe: log 20) -/
def lnSwitch (s : State) (l : Nat) : State :=
  let b := l / 8
  match takeMsg s l (· = 0x01) with
  | (none, s) => s
  | (some m, s) =>
    let k := leAt m.bytes 2 1 % 8
    let mid := leAt m.bytes 1 1
    let req := bitAt (leAt m.bytes 7 1) 0
    if swState s b = 0 then
      if req then partnerSwitch s b k (some mid) else sendAck s b 0x02 k mid 0
    else if swState s b = 3 then sendAck s b 0x02 k mid 1
    else if k = swLane s b then sendAck s b 0x02 k mid 0
    else sendAck (updBundle s b fun x => { x with partner := some k }) b 0x02 k mid 1

/-- The MID of the bundle's own message. -/
def ownMid (s : State) (b : Nat) : Option (Nat × Nat) :=
  (bundle s b).own.map fun o => (leAt o.1 0 1, leAt o.1 1 1)

/-- A SWITCH_ACK message (R377). -/
def lnSwitchAck (s : State) (l : Nat) : State :=
  let b := l / 8
  match takeMsg s l (· = 0x02) with
  | (none, s) => s
  | (some m, s) =>
    if ownMid s b ≠ some (0x01, leAt m.bytes 4 1) then s
    else
      let k := swLane s b
      match leAt m.bytes 5 1 with
      | 0 =>
        let s := updBundle s b fun x => { x with own := none }
        if swState s b = 1 then
          sep (setSw (evt s (Reg.LNK_EVT b) F.LNK_EVT_SWITCH_DONE) b 2 k) 0x0C (uLane (b * 8 + k)) 1 k
        else s
      | 1 =>
        match (bundle s b).partner with
        | some p =>
          if swState s b = 1 ∧ k > p then
            let s := dropEgress s (b * 8 + 7)
            let s := updBundle (setSw s b 0 0) b fun x => { x with own := none, partner := none }
            partnerSwitch s b p none
          else s
        | none => s
      | _ => s

/-- A REVERT message (R377). (DEDUCED, unsafe: log 20) -/
def lnRevert (s : State) (l : Nat) : State :=
  let b := l / 8
  match takeMsg s l (· = 0x03) with
  | (none, s) => s
  | (some m, s) =>
    let k := leAt m.bytes 2 1 % 8
    let mid := leAt m.bytes 1 1
    let req := bitAt (leAt m.bytes 7 1) 0
    if k ≠ swLane s b then s
    else if swState s b = 2 ∧ req = true then ownRevert (sendAck s b 0x04 k mid 0) b false
    else if swState s b = 3 ∧ req = false then sendAck s b 0x04 k mid 0
    else s

/-- A REVERT_ACK message (R377, R379). -/
def lnRevertAck (s : State) (l : Nat) : State :=
  let b := l / 8
  match takeMsg s l (· = 0x04) with
  | (none, s) => s
  | (some m, s) =>
    if ownMid s b ≠ some (0x03, leAt m.bytes 4 1) ∨ swState s b ≠ 3 ∨ leAt m.bytes 5 1 ≠ 0 then s
    else
      let k := swLane s b
      let s := updBundle s b fun x => { x with own := none, partner := none }
      let s := evt (inc s (Reg.LNK_REVERT_CNT b)) (Reg.LNK_EVT b) F.LNK_EVT_REVERT_DONE
      let s := fenceLift (setSw s b 0 0) (uLane (b * 8 + k))
      sep s 0x0C (uLane (b * 8 + k)) 3 k

/-- An unacknowledged SWITCH or REVERT is resent every 1 µs (1,966.08 Tc). -/
def switchResend (s : State) (b : Nat) : State :=
  match (bundle s b).own with
  | some (m, t0, t1) =>
    if t1 * 100 + 196608 ≤ rawTotal s * 100 then
      let s := (ctrlLanes s b).foldl (fun s k => queueMsg s k true m) s
      updBundle s b fun x => { x with own := some (m, t0, rawTotal s) }
    else s
  | none => s

/-- No SWITCH_ACK within 1 ms of the first SWITCH (R377). -/
def switchAckTimeout (s : State) (b : Nat) : State :=
  match (bundle s b).own with
  | some (_, t0, _) =>
    if swState s b = 1 ∧ t0 + 1966080 ≤ rawTotal s then
      let s := evt s (Reg.LNK_EVT b) F.LNK_EVT_SWITCH_FAIL
      sep (setSw s b 2 (swLane s b)) 0x0C (uLane (b * 8 + swLane s b)) 2 (swLane s b)
    else s
  | none => s

/-! ## Frames received (R354 to R358) -/

/-- Splits the payload of a frame into `n` sections (R366): header, LEN bytes, padding to 4. -/
def splitSections : Nat → List Byte → List (List Byte)
  | 0, _ => []
  | n + 1, bs =>
    if bs.length < 16 then []
    else
      let len := 16 + (leAt bs 4 4 / 2 ^ 16 % 2 ^ 11 + 3) / 4 * 4
      bs.take len :: splitSections n (bs.drop len)

/-- Splits the payload of a CTRL frame into `n` messages (R375). -/
def splitMsgs : Nat → List Byte → List (List Byte)
  | 0, _ => []
  | n + 1, bs => bs.take 16 :: splitMsgs n (bs.drop 16)

/-- The first of the four candidates whose descrambled header passes HCRC and names the receiving lane (R358). -/
def findHeader (bits_ : List Bool) (exp own : Nat) : Option (Nat × Nat) :=
  [0, 1, 2, 3].findSome? fun c =>
    let h := leNat (bitsToBytes 8 (scramble (scrSeed (exp + c)) (bits_.take 64)))
    if hcrc h = bits h 56 8 ∧ bits h 8 3 = own then some (c, h) else none

/-- Is the TYPE of a control message defined (R375, R404)? -/
def knownMsg (m : List Byte) : Bool :=
  let t := leAt m 0 1
  decide (1 ≤ t ∧ t ≤ 4) || decide (0x10 ≤ t ∧ t ≤ 0x12)

/-- A good frame is handed on: its sections or its messages (R357). Messages of a reserved TYPE are ignored
and counted (R375). -/
def acceptFrame (s : State) (l hdr stamp : Nat) (payload : List Byte) : State :=
  let n := bits hdr 12 4
  let mk : List Byte → RxItem := fun b => { type := bits hdr 0 4, nsec := n, stamp := stamp, seq := bits hdr 16 24, bytes := b }
  if lnState s l ≠ 6 then s
  else match bits hdr 0 4 with
    | 1 => updLane s l fun x => { x with rxSecs := x.rxSecs ++ (splitSections n payload).map mk }
    | 2 => updLane s l fun x => { x with rxSecs := x.rxSecs ++ (splitSections n payload).map mk }
    | 3 =>
      let ms := splitMsgs n payload
      let s := updLane s l fun x => { x with rxMsgs := x.rxMsgs ++ (ms.filter knownMsg).map mk }
      (ms.filter fun m => !knownMsg m).foldl
        (fun s _ => evt (inc s (Reg.LNK_NOSTREAM_CNT (l / 8))) (Reg.LNK_EVT (l / 8)) F.LNK_EVT_NOSTREAM) s
    | _ => s

/-- A frame's stamp (R373): the instant its marker leaves the deserializer, minus LN_RXLAT. -/
def rxStamp (s : State) (l sub : Nat) : Nat :=
  wrapN 54 ((raw s * 64 + sub : Int) - fld s (lnReg Reg.LN_RXLAT l) F.LN_RXLAT_LAT)

/-- A frame is received (R358). `line` is the stuffed stream between its guards. (DESIGN CHOICE, safe: log 22) -/
def frameReceive (s : State) (l sub : Nat) (line : List Bool) : State :=
  if lnState s l ≠ 5 ∧ lnState s l ≠ 6 then s
  else
    let exp := (lane s l).rxSeq
    let next (s : State) (e : Nat) (good : Bool) (hdrOk : Bool) : State := updLane s l fun x =>
      { x with rxSeq := (e + 1) % 2 ^ 24, good := if good then x.good + 1 else 0, bad := if hdrOk then 0 else x.bad + 1 }
    match unstuff 0 false line with
    | none => next (inc s (lnReg Reg.LN_STUFF_ERR_CNT l)) exp false false
    | some bs =>
      match findHeader bs exp (l % 8) with
      | none => next (inc s (lnReg Reg.LN_HCRC_ERR_CNT l)) exp false false
      | some (c, hdr) =>
        let s := if c > 0 then inc s (lnReg Reg.LN_RESYNC_CNT l) else s
        let bytes := bitsToBytes 2060 (scramble (scrSeed (exp + c)) (bs.take 16480))
        if bs.length ≠ 16480 ∨ crcOf 6 (bytes.take 2056) ≠ leAt bytes 2056 4 then
          next (inc s (lnReg Reg.LN_CRC_ERR_CNT l)) (exp + c) false true
        else
          let s := next (inc s (lnReg Reg.LN_RXFRAME_CNT l)) (exp + c) true true
          acceptFrame s l hdr (rxStamp s l sub) ((bytes.drop 8).take 2048)

/-! ## Sections received (R366 to R370) -/

/-- Does LEN agree with R367? -/
def lenOk (hdr0 hdr1 hdr2 : Nat) : Bool :=
  let len := bits hdr1 16 11
  match bits hdr0 16 4 with
  | 0 =>
    let m := bits hdr0 24 4 + 1
    let n := bits hdr2 9 9
    (m = 8 || m = 9 || m = 10 || m = 12 || m = 16) && decide (1 ≤ n ∧ n ≤ 273 ∧ len = n * 3 * m + (n + 1) / 2)
  | 1 => decide (len % 4 = 0 ∧ len ≤ 2032)
  | 2 => decide (len ≤ 2032)
  | _ => false

/-- Counts a section that is not accepted. -/
def secCount (s : State) (b : Nat) (c : Nat → Nat) (f : Option Fld) : State :=
  let s := inc s (c b)
  match f with | some f => evt s (Reg.LNK_EVT b) f | none => s

/-- The bindings a receive stream holds. (DEDUCED, unsafe: log 135) -/
def rxBinds (s : State) (st : Nat) : List RxBind := Tab.get (fun _ => []) s.lnk.rx st

/-- Sets the bindings of a receive stream. -/
def setRxBinds (s : State) (st : Nat) (bs : List RxBind) : State :=
  { s with lnk := { s.lnk with rx := Tab.put (fun _ => []) s.lnk.rx st bs } }

/-- Places a section of stream `st` (device-wide) through a binding (R370): where, or the counter and event of its
refusal. `sec` is SECID, `nsec` and `stride` those of the buffer's first stream, in 64-byte units. -/
def placeSection (s : State) (b st : Nat) (d : RxBind) (sec nsec stride : Nat) (bytes : List Byte) : State :=
  let i := (st - d.first) * nsec + sec
  if d.closed then secCount s b Reg.LNK_LATE_CNT (some F.LNK_EVT_LATE)
  else if nsec ≤ sec ∨ d.expect ≤ i ∨ d.pres < (i + 1) * stride * 64 ∨ stride * 64 < bytes.length then
    secCount s b Reg.LNK_BADSEC_CNT (some F.LNK_EVT_BADSEC)
  else if (memGet s.mem (d.addr + d.pres + i)).toNat = 1 then secCount s b Reg.LNK_DUP_CNT none
  else
    let iss := lnkIssuer b (getF d.cfg F.RXS_CFG_OWNER)
    match fabPosts 16 s iss (d.addr + i * stride * 64) bytes with
    | (c, s) =>
      if c = DENIED then inc s (Reg.LNK_DENIED_CNT b)
      else
        let s := (fabPost s iss (d.addr + d.pres + i) [1]).2
        setRxBinds s st ((rxBinds s st).map fun e => if e = d then { e with count := e.count + 1 } else e)

/-- A received section (R369) that has not been taken by a carrier extraction unit. (DEDUCED, unsafe: log 65) -/
def sectionReceive (s : State) (b l : Nat) (x : RxItem) : State :=
  let h0 := leAt x.bytes 0 4
  let h1 := leAt x.bytes 4 4
  let i := bits h0 0 8
  let st := b * 256 + i
  let cfg := rd s (Reg.RXS_CFG b i)
  if getF cfg F.RXS_CFG_EN = 0 ∨ getF cfg F.RXS_CFG_FMT ≠ bits h0 16 4 then
    secCount s b Reg.LNK_NOSTREAM_CNT (some F.LNK_EVT_NOSTREAM)
  else if l % 8 ≠ getF cfg F.RXS_CFG_LANE ∧ (!prot s b ∨ l % 8 ≠ 7) then secCount s b Reg.LNK_MISLANE_CNT none
  else
    match (rxBinds s st).find? fun d => decide (d.slot % 2 ^ 16 = bits h1 0 16) with
    | none => secCount s b Reg.LNK_NOBIND_CNT none
    | some d =>
      if getF d.cfg F.RXS_CFG_EN = 0 then secCount s b Reg.LNK_NOSTREAM_CNT (some F.LNK_EVT_NOSTREAM)
      else if !lenOk h0 h1 (leAt x.bytes 8 4) ∨ x.bytes.length < 16 + bits h1 16 11 ∨
          (bits h0 16 4 = 1 ∧ x.type ≠ 2) ∨ (x.type = 2 ∧ (x.nsec ≠ 1 ∨ bits h0 16 4 ≠ 1)) then
        secCount s b Reg.LNK_BADSEC_CNT (some F.LNK_EVT_BADSEC)
      else
        let s := inc s (Reg.RXS_CNT b i)
        placeSection s b st d (bits h0 8 8) (getF d.headLayout F.RXS_LAYOUT_NSEC) (getF d.headLayout F.RXS_LAYOUT_STRIDE)
          x.bytes

/-- Takes the next received section of a lane. Sections of a fenced lane are discarded, but not around a revert. -/
def takeSection (s : State) (l : Nat) : Option RxItem × State :=
  match (lane s l).rxSecs with
  | [] => (none, s)
  | x :: xs =>
    let s := updLane s l fun z => { z with rxSecs := xs }
    if fenced s (uLane l) && decide (swState s (l / 8) ≠ 3) then (none, s) else (some x, s)

/-! ## Egress (R372) -/

/-- The transmit time of a bound EGRESS buffer arrives. -/
def egressTime (s : State) (d : TxBind) : State :=
  let s := { s with lnk := { s.lnk with tx := s.lnk.tx.filter fun e => e ≠ d } }
  let b := d.first / 256
  let nsec := getF d.layout F.TXS_LAYOUT_NSEC
  let stride := getF d.layout F.TXS_LAYOUT_STRIDE * 64
  (upto d.n).foldl (fun s j =>
    let st := d.first + j
    let cfg := d.cfgs.getD j 0
    if d.committed then
      (upto nsec).foldl (fun s k =>
        if getF cfg F.TXS_CFG_EN = 0 then secCount s b Reg.LNK_NOSTREAM_CNT (some F.LNK_EVT_NOSTREAM)
        else { s with lnk := { s.lnk with reads := s.lnk.reads ++
          [{ stream := st, cfg := cfg, addr := d.addr + (j * nsec + k) * stride, len := stride, t := d.t, slot := d.slot }] } }) s
    else if getF cfg F.TXS_CFG_EN = 0 then secCount s b Reg.LNK_NOSTREAM_CNT (some F.LNK_EVT_NOSTREAM)
    else egQueue s b (getF cfg F.TXS_CFG_LANE) (missingItem (st % 256) d.slot d.t)) s

/-- The response to the read of a section image arrives, or is lost. -/
def egressRead (s : State) (lost : Bool) : State :=
  match s.lnk.reads with
  | [] => s
  | r :: rs =>
    let s := { s with lnk := { s.lnk with reads := rs } }
    let b := r.stream / 256
    let k := getF r.cfg F.TXS_CFG_LANE
    let (c, img, s) := if lost then (TIMEOUT, [], nocFail s (lnkIssuer b 0) r.addr TIMEOUT)
      else fabReads 32 s (lnkIssuer b (getF r.cfg F.TXS_CFG_OWNER)) r.addr r.len
    if c ≠ OKAY then
      egQueue (secCount s b Reg.LNK_BADSEC_CNT (some F.LNK_EVT_BADSEC)) b k (missingItem (r.stream % 256) r.slot r.t)
    else
      let h0 := leAt img 0 4
      let h1 := leAt img 4 4
      let len := bits h1 16 11
      if len = 0 ∧ bitAt h0 28 = false then s
      else if bits h0 16 4 ≠ getF r.cfg F.TXS_CFG_FMT ∨ lenOk h0 h1 (leAt img 8 4) = false ∨ r.len < 16 + len then
        secCount s b Reg.LNK_BADSEC_CNT (some F.LNK_EVT_BADSEC)
      else
        let w0 := bits h0 8 20 * 2 ^ 8 + r.stream % 256 + bits h0 29 3 * 2 ^ 29
        let w1 := bits h1 16 16 * 2 ^ 16 + r.slot % 2 ^ 16
        let data := (img.drop 16).take len
        let bytes := leBytes 4 w0 ++ leBytes 4 w1 ++ (img.drop 8).take 8 ++ data ++ leBytes ((4 - len % 4) % 4) 0
        egQueue s b k { t := r.t, stream := r.stream % 256, slot := r.slot, missing := false, fmt := bits h0 16 4, bytes := bytes }

/-- Sections of a lane that have not begun by T + LNK_EGLATE_LIMIT are replaced by missing headers. -/
def egressLate (s : State) (l : Nat) : State :=
  let b := l / 8
  let lim := fld s (Reg.LNK_EGLATE_LIMIT b) F.LNK_EGLATE_LIMIT_TC
  let late := fun x : EgItem => !x.missing && reached (raw s) ((x.t + lim) % 2 ^ 48)
  let n := ((lane s l).egress.filter late).length
  if n = 0 then s
  else
    let s := updLane s l fun z => { z with egress := z.egress.map fun x => if late x then missingItem x.stream x.slot x.t else x }
    evt (addCnt s (Reg.LNK_EGLATE_CNT b) n) (Reg.LNK_EVT b) F.LNK_EVT_EGLATE

/-! ## Frames sent -/

/-- The longest run of sections that fits a frame: at most 15, at most 2,048 bytes, all satisfying `p`. -/
def fillFrame (p : EgItem → Bool) : Nat → Nat → List EgItem → List EgItem
  | 0, _, _ => []
  | _, _, [] => []
  | n + 1, room, x :: xs => if p x && decide (x.bytes.length ≤ room) then x :: fillFrame p n (room - x.bytes.length) xs else []

/-- The mailbox message of a lane joins its messages, with its MID filled in (R406). -/
def takeTtx (s : State) (l : Nat) : Bool × State :=
  match s.tim.ttx with
  | some (l', m) =>
    if l' = l then
      let (mid, s) := takeMid s (l / 8)
      (true, updLane s l fun x => { x with msgs := (false, m.take 1 ++ leBytes 1 mid ++ m.drop 2) :: x.msgs })
    else (false, s)
  | none => (false, s)

/-- What the next frame of a lane carries: TYPE, MISSING, number of parts, payload bytes, and the state without the parts
taken. -/
def nextFrame (s : State) (l : Nat) : Nat × Bool × Nat × List Byte × State :=
  let x := lane s l
  let urgent := x.msgs.any (·.1)
  if lnState s l ≠ 6 then (0, false, 0, [], s)
  else if urgent || (!x.msgs.isEmpty && decide (3 ≤ x.sinceCtrl)) then
    let m := x.msgs.take 15
    (3, false, m.length, m.flatMap (·.2),
      updLane s l fun z => { z with msgs := z.msgs.drop 15, sinceCtrl := if m.all (·.1) then z.sinceCtrl + 1 else 0 })
  else
    let s := updLane s l fun z => { z with sinceCtrl := z.sinceCtrl + 1 }
    match x.egress with
    | [] => (0, false, 0, [], s)
    | e :: es =>
      let td := !e.missing && decide (e.fmt = 1)
      let got := if td then [e] else fillFrame (fun y => y.missing == e.missing && (y.missing || decide (y.fmt ≠ 1))) 15 2048 (e :: es)
      let s := updLane s l fun z => { z with egress := z.egress.drop got.length }
      let b := l / 8
      let s := got.foldl (fun s y =>
        if y.missing then evt (inc (inc s (Reg.LNK_MISSING_CNT b)) (Reg.TXS_MISS_CNT b y.stream)) (Reg.LNK_EVT b) F.LNK_EVT_MISSING
        else inc s (Reg.TXS_CNT b y.stream)) s
      (if td then 2 else 1, e.missing, got.length, got.flatMap (·.bytes), s)

/-- A transmit stamp joins the bundle's queue of 16 (R374). -/
def pushTxts (s : State) (b id stamp : Nat) : State :=
  if (bundle s b).txts.length < 16 then updBundle s b fun x => { x with txts := x.txts ++ [(id, stamp)] }
  else evt (inc s (Reg.LNK_TXTS_OVF_CNT b)) (Reg.LNK_EVT b) F.LNK_EVT_TXTS_OVF

/-- The line bits of a frame (R356): guard, marker, guard, stuffed stream; an injected bit error inverts the first. -/
def lineBits (lastBit inj : Bool) (stream : List Bool) : List Bool :=
  let body := List.replicate 16 true ++ List.replicate 16 false ++ (if stream.headD true then stream else true :: stream)
  let out := if lastBit then false :: body else body
  match out with
  | b :: bs => (b != inj) :: bs
  | [] => []

/-- The lane builds and sends its next frame (R354, R372, R374, R381). (DEDUCED, unsafe: log 21) -/
def frameTransmit (s : State) (l sub : Nat) : State :=
  if lnState s l ≠ 5 ∧ lnState s l ≠ 6 then s
  else
    let b := l / 8
    let (mail, s) := if lnState s l = 6 && decide (3 ≤ (lane s l).sinceCtrl) then takeTtx s l else (false, s)
    let before := (lane s l).msgs
    let (type, missing, n, payload, s) := nextFrame s l
    let sent := if type = 3 then before.take 15 else []
    let timeMsg := sent.any fun m => decide (0x10 ≤ leAt m.2 0 1 ∧ leAt m.2 0 1 ≤ 0x1F)
    let x := lane s l
    let seq := x.txSeq
    let ts := timeMsg || x.tsreq
    let h := type + missing.toNat * 2 ^ 4 + ts.toNat * 2 ^ 5 + l % 8 * 2 ^ 8 + n * 2 ^ 12 + seq * 2 ^ 16
    let hc := if x.injHdr > 0 then hcrc h ^^^ 0xFF else hcrc h
    let bytes := leBytes 8 (h + hc * 2 ^ 56) ++ payload ++ List.replicate (2048 - payload.length) 0
    let crc := if x.injCrc then crcOf 6 bytes ^^^ 0xFFFFFFFF else crcOf 6 bytes
    let line := lineBits x.lastBit x.injBit (stuff 0 false (scramble (scrSeed seq) (bytesToBits (bytes ++ leBytes 4 crc))))
    let s := updLane s l fun z => { z with
      txSeq := (seq + 1) % 2 ^ 24, tsreq := false, injBit := false, injCrc := false, injHdr := z.injHdr - 1,
      lastBit := line.getLastD false }
    let s := emit (inc s (lnReg Reg.LN_TXFRAME_CNT l)) (.frame l seq line)
    let stamp := (raw s * 64 + sub + fld s (lnReg Reg.LN_TXLAT l) F.LN_TXLAT_LAT) % 2 ^ 54
    let id := l % 8 * 2 ^ 13 + seq % 2 ^ 13
    let s := if ts then pushTxts s b id stamp else s
    let s := if mail && decide (type = 3) then ttxSent s id else s
    { s with tim := { s.tim with resp := s.tim.resp.map fun r =>
      if r.bundle = b ∧ r.lane = l % 8 ∧ r.respSent = true ∧ r.t3 = none ∧
        (sent.any fun m => decide (leAt m.2 0 1 = 0x11 ∧ leAt m.2 4 2 = r.seqid)) = true
      then { r with t3 := some stamp } else r } }

/-! ## Writes with an effect of their own -/

/-- Latency defaults of a RATE (R373): transmit, receive. -/
def latDefaults (rate : Nat) : Nat × Nat :=
  match rate with
  | 0 => (403, 1208)
  | 1 => (365, 1107)
  | 2 => (214, 642)
  | _ => (201, 604)

/-- A write of LNK_CTL (R352): RATE and PROT change only while all eight lanes are disabled; a write of RATE then loads the
latency defaults. (DEDUCED, unsafe: log 20) -/
def lnkCtlWrite (s : State) (b : Nat) (v : Word) : State :=
  let a := Reg.LNK_CTL b
  let sw := setFld s a F.LNK_CTL_AUTO_SW (getF v F.LNK_CTL_AUTO_SW)
  if (upto 8).all fun k => !isSet s (Reg.LN_CTL b k) F.LN_CTL_EN then
    let s := setFld (setFld sw a F.LNK_CTL_RATE (getF v F.LNK_CTL_RATE)) a F.LNK_CTL_PROT (getF v F.LNK_CTL_PROT)
    let (tx, rx) := latDefaults (getF v F.LNK_CTL_RATE)
    (upto 8).foldl (fun s k => wr (wr s (Reg.LN_TXLAT b k) (BitVec.ofNat 32 tx)) (Reg.LN_RXLAT b k) (BitVec.ofNat 32 rx)) s
  else if fld s a F.LNK_CTL_RATE ≠ getF v F.LNK_CTL_RATE ∨ fld s a F.LNK_CTL_PROT ≠ getF v F.LNK_CTL_PROT then
    evt sw (Reg.LNK_EVT b) F.LNK_EVT_CFG_REFUSE
  else sw

/-- Does a lane carry a stream (R380)? The streams of a lane on the spare are carried by the spare. -/
def carriesStream (s : State) (l : Nat) : Bool :=
  let b := l / 8
  let moved := fun k => prot s b && decide ((swState s b = 1 ∨ swState s b = 2) ∧ swLane s b = k)
  if prot s b && decide (l % 8 = 7) then decide (swState s b ≠ 0)
  else !moved (l % 8) && (upto 256).any fun i =>
    (isSet s (Reg.RXS_CFG b i) F.RXS_CFG_EN && decide (fld s (Reg.RXS_CFG b i) F.RXS_CFG_LANE = l % 8)) ||
    (isSet s (Reg.TXS_CFG b i) F.TXS_CFG_EN && decide (fld s (Reg.TXS_CFG b i) F.TXS_CFG_LANE = l % 8))

/-- EN 0 → 1 (R363). -/
def laneEnable (s : State) (l : Nat) : State :=
  if unitSt s (uLane l) = 3 then s
  else setLn (setLnF s l F.LN_STAT_ATTEMPTS 0) l 1

/-- EN 1 → 0 (R363): the transmitter is off and the lane's streams are dropped. -/
def laneDisable (s : State) (l : Nat) : State :=
  let s := dropEgress s l
  if unitSt s (uLane l) = 3 then s
  else setLn (setLnF s l F.LN_STAT_BLOCKLOCK 0) l 0

/-- A write of LN_CTL: EN (R363), TEST (R380) and the plain fields. -/
def lnCtlWrite (s : State) (l : Nat) (v : Word) : State :=
  let a := lnReg Reg.LN_CTL l
  let en0 := isSet s a F.LN_CTL_EN
  let t0 := isSet s a F.LN_CTL_TEST
  let t1 := decide (getF v F.LN_CTL_TEST = 1)
  let refuse := !t0 && t1 && !(decide (lnState s l = 1 ∨ lnState s l = 7 ∨ lnState s l = 8) && !carriesStream s l)
  let s := [F.LN_CTL_EN, F.LN_CTL_AUTOSLIP, F.LN_CTL_EXPECT_EN, F.LN_CTL_CTLE_FORCE, F.LN_CTL_LOOP].foldl
    (fun s f => setFld s a f (getF v f)) s
  let s := if refuse then lnEvt s l F.LN_EVT_TEST_REFUSE
    else
      let s := setFld s a F.LN_CTL_TEST (getF v F.LN_CTL_TEST)
      if !t0 && t1 then setLn s l 9 else if t0 && !t1 && decide (lnState s l = 9) then setLn s l 1 else s
  let en1 := isSet s a F.LN_CTL_EN
  if !en0 && en1 then laneEnable s l else if en0 && !en1 then laneDisable s l else s

/-- A write of LN_PRBS (R380): CHK from 0 to 1 clears the errors, and the checker has to lock again. -/
def lnPrbsWrite (s : State) (l : Nat) (v : Word) : State :=
  let a := lnReg Reg.LN_PRBS l
  let c0 := isSet s a F.LN_PRBS_CHK
  let s := [F.LN_PRBS_GEN, F.LN_PRBS_CHK, F.LN_PRBS_INV].foldl (fun s f => setFld s a f (getF v f)) s
  let s := if getF v F.LN_PRBS_PAT ≤ 4 then setFld s a F.LN_PRBS_PAT (getF v F.LN_PRBS_PAT) else s
  let c1 := isSet s a F.LN_PRBS_CHK
  let s := if c0 = c1 then s else setFld s (lnReg Reg.LN_PRBS_STAT l) F.LN_PRBS_STAT_LOCK 0
  if !c0 && c1 then wr s (lnReg Reg.LN_PRBS_ERR l) 0 else s

/-- GO of LN_INJ (R381). -/
def lnInjGo (s : State) (l : Nat) : State :=
  let a := lnReg Reg.LN_INJ l
  match fld s a F.LN_INJ_MODE with
  | 1 => updLane s l fun x => { x with injBit := true }
  | 2 => updLane s l fun x => { x with injCrc := true }
  | 3 => updLane s l fun x => { x with injHdr := fld s a F.LN_INJ_N }
  | _ => s

/-- GO of LNK_TXTS_REQ (R374). -/
def txtsReq (s : State) (b : Nat) : State :=
  updLane s (b * 8 + fld s (Reg.LNK_TXTS_REQ b) F.LNK_TXTS_REQ_LANE) fun x => { x with tsreq := true }

/-- Removes the head of a bundle's transmit-stamp queue. -/
def txtsPop (s : State) (b : Nat) : State := updBundle s b fun x => { x with txts := x.txts.drop 1 }

/-! ## Time copy of the link (R388) -/

/-- The LNK copy of time loses alignment: every lane in UP loses lock. -/
def lnkAlignLost (s : State) : State :=
  if !isSet s Reg.TIM_STATUS F.TIM_STATUS_LNKALIGN then s
  else
    let s := setFld s Reg.TIM_STATUS F.TIM_STATUS_LNKALIGN 0
    let s := sep (evt s Reg.TIM_EVT F.TIM_EVT_LNKALIGN_LOST) 0x0F 0 2 0
    (upto 96).foldl (fun s l => lossOfLock s l) s

/-! ## TIME messages on the lanes (R407, R408) -/

/-- A TIME message at the head of a lane's received messages. -/
def lnTime (s : State) (l : Nat) (p : Nat → Bool) : State :=
  match takeMsg s l p with
  | (some m, s) => timeReceive s l m.seq m.stamp m.bytes
  | (none, s) => s

/-- The responder sends TIME_RESP for its oldest request not answered on a lane (R408). -/
def timeResp (s : State) (l : Nat) : State :=
  match s.tim.resp.find? fun r => decide (r.bundle * 8 + r.lane = l) && !r.respSent with
  | none => s
  | some r =>
    let (mid, s) := takeMid s r.bundle
    let m := respMsg s 0x11 r.lane r.seqid r.t2
    let s := { s with tim := { s.tim with resp := s.tim.resp.map fun q => if q = r then { q with respSent := true } else q } }
    queueMsg s l false (m.take 1 ++ leBytes 1 mid ++ m.drop 2)

/-- The responder sends TIME_FOLLOW once the stamp of its TIME_RESP's frame exists (R408). -/
def timeFollow (s : State) (l : Nat) : State :=
  match s.tim.resp.find? fun r => decide (r.bundle * 8 + r.lane = l) && r.t3.isSome with
  | none => s
  | some r =>
    let (mid, s) := takeMid s r.bundle
    let m := respMsg s 0x12 r.lane r.seqid (r.t3.getD 0)
    let s := { s with tim := { s.tim with resp := s.tim.resp.filter fun q => q ≠ r } }
    queueMsg s l false (m.take 1 ++ leBytes 1 mid ++ m.drop 2)

end Sys2Proof.Machine
end

