-- ==== Sys2Proof/Machine/Cxu.lean ====
section
/-! DEFINITION. Carrier extraction units (R264 to R287): input, the chain, banks and fades, SYNC, blocks, the power detector,
enable and faults. -/

namespace Sys2Proof.Machine

/-- A CXU beside its registers. -/
def cxu (s : State) (n : Nat) : CxuS := Tab.get (fun _ => {}) s.cxu n

/-- Changes it. -/
def updCxu (s : State) (n : Nat) (g : CxuS → CxuS) : State := { s with cxu := Tab.upd (fun _ => {}) s.cxu n g }

/-- Does a CXU process samples? -/
def cxuRun (s : State) (n : Nat) : Bool := isSet s (Reg.CXU_STAT n) F.CXU_STAT_RUN

/-- STATE of CXU_UNIT. -/
def cxuState (s : State) (n : Nat) : Nat :=
  match unitSt s (uCxu n) with
  | 1 => 4
  | 2 => 1
  | 3 => 5
  | _ => if cxuRun s n then 2 else 0

/-! ## Configuration -/

/-- Half-band stages in use, decimation, FIR shift, whether the source is MEM. -/
def CxuS.hb (x : CxuS) : Nat := getF x.ctl F.CXU_CTL_HB
def CxuS.d (x : CxuS) : Nat := getF x.dec F.CXU_DEC_D
def CxuS.shift (x : CxuS) : Nat := getF x.dec F.CXU_DEC_SHIFT
def CxuS.isMem (x : CxuS) : Bool := decide (getF x.ctl F.CXU_CTL_SRC = 1)

/-- Taps and phase mode of a bank: 0 A, 1 B. -/
def bankCfg (s : State) (n b : Nat) : Word := rd s (if b = 0 then Reg.CXU_BANKA_CFG n else Reg.CXU_BANKB_CFG n)
def bankN (s : State) (n b : Nat) : Nat := getF (bankCfg s n b) F.CXU_BANKA_CFG_N

/-- Coefficient `k` of a bank. -/
def coef (s : State) (n b k : Nat) : Int :=
  sgn 18 (fld s (if b = 0 then Reg.CXU_COEFA n k else Reg.CXU_COEFB n k) F.CXU_COEFA_H)

/-- Is a tap count within the budget of R271? -/
def inBudget (taps iper hb d : Nat) : Bool := decide (taps * 11796480 ≤ 1000000 * iper * 2 ^ hb * d)

/-- The checks of R275 on a bank that is about to come into use. -/
def bankOk (s : State) (n b : Nat) (x : CxuS) : Bool :=
  let t := bankN s n b
  decide (1 ≤ t ∧ t ≤ 384) && inBudget t x.iper x.hb x.d
    && (decide (getF (bankCfg s n b) F.CXU_BANKA_CFG_MINPH = 1) ||
        (upto t).all fun k => decide (coef s n b k = coef s n b (t - 1 - k)))

/-- Bank in use, state of switching, whether a request is held. -/
def inUse (s : State) (n : Nat) : Nat := fld s (Reg.CXU_BANK n) F.CXU_BANK_INUSE
def swSt (s : State) (n : Nat) : Nat := fld s (Reg.CXU_BANK n) F.CXU_BANK_STATE
def setSwSt (s : State) (n v : Nat) : State := setFld s (Reg.CXU_BANK n) F.CXU_BANK_STATE v

/-- Group delay of the chain (R273). -/
def groupDelay (s : State) (n : Nat) (x : CxuS) : Nat :=
  let b := inUse s n
  let p := x.iper * 2 ^ x.hb
  (if 1 ≤ x.hb then 15 * x.iper else 0) + (if 2 ≤ x.hb then 30 * x.iper else 0)
    + (if getF (bankCfg s n b) F.CXU_BANKA_CFG_MINPH = 0 then (p * (bankN s n b - 1) + 1) / 2
       else (fld s (if b = 0 then Reg.CXU_LATENCY_A n else Reg.CXU_LATENCY_B n) F.CXU_LATENCY_A_DELAY * p + 128) / 256)

/-- CXU_GDELAY is computed anew. -/
def setGdelay (s : State) (n : Nat) : State := wr s (Reg.CXU_GDELAY n) (BitVec.ofNat 32 (groupDelay s n (cxu s n)))

/-- Outputs over zero history after a SYNC (R281). (DEDUCED, unsafe: log 124) -/
def partials (s : State) (n : Nat) (x : CxuS) : Nat :=
  let z := match x.hb with | 0 => 0 | 1 => 15 | _ => 23
  (bankN s n (inUse s n) - 1 + z + x.d - 1) / x.d

/-! ## Switching (R275 to R277) -/

/-- A fade toward the other bank starts with the next output. -/
def startFade (s : State) (n : Nat) : State :=
  let l := fld s (Reg.CXU_BANK n) F.CXU_BANK_FADE_LOG2
  updCxu (setSwSt s n 2) n fun x => { x with fadeI := 0, fadeLog := l }

/-- A switch is refused. -/
def bankErr (s : State) (n : Nat) : State := evt (setSwSt s n 0) (Reg.CXU_EVT n) F.CXU_EVT_BANK_ERR

/-- A held request becomes a fade, subject to R275. -/
def takeHeld (s : State) (n : Nat) : State :=
  if isSet s (Reg.CXU_BANK n) F.CXU_BANK_HELD then
    let s := setFld s (Reg.CXU_BANK n) F.CXU_BANK_HELD 0
    if bankOk s n (1 - inUse s n) (cxu s n) then startFade s n else bankErr s n
  else s

/-- The fade's target becomes the bank in use. -/
def endFade (s : State) (n : Nat) : State :=
  setGdelay (setSwSt (setFld s (Reg.CXU_BANK n) F.CXU_BANK_INUSE (1 - inUse s n)) n 0) n

/-- A switch request (R276). -/
def switchRequest (s : State) (n : Nat) : State :=
  if !cxuRun s n then s
  else match swSt s n with
    | 0 =>
      if !bankOk s n (1 - inUse s n) (cxu s n) then bankErr s n
      else if isSet s (Reg.CXU_BANK n) F.CXU_BANK_SW_AT then setSwSt s n 1 else startFade s n
    | 1 => inc s (Reg.CXU_SWDROP_CNT n)
    | _ =>
      if isSet s (Reg.CXU_BANK n) F.CXU_BANK_HELD then inc s (Reg.CXU_SWDROP_CNT n)
      else setFld s (Reg.CXU_BANK n) F.CXU_BANK_HELD 1

/-- Is bank `b` closed to writes (R278): in use, or the target of a switch, a fade or a held request? -/
def bankBusy (s : State) (n b : Nat) : Bool :=
  cxuRun s n && (decide (inUse s n = b) || decide (swSt s n ≠ 0 ∧ 1 - inUse s n = b)
    || isSet s (Reg.CXU_BANK n) F.CXU_BANK_HELD)

/-- A write of a bank is refused; `a` is its BAR0 offset. -/
def refuseBank (s : State) (n a : Nat) : State :=
  let s := if isSet s (Reg.CXU_EVT n) F.CXU_EVT_WREFUSE then s else wr s (Reg.CXU_WREF_ADDR n) (BitVec.ofNat 32 a)
  evt s (Reg.CXU_EVT n) F.CXU_EVT_WREFUSE

/-- Input period, half-band stages and decimation in force: those sampled at enable, or those of the registers. -/
def rateCfg (s : State) (n : Nat) : Nat × Nat × Nat :=
  if cxuRun s n then ((cxu s n).iper, (cxu s n).hb, (cxu s n).d)
  else (fld s (Reg.CXU_IPERIOD n) F.CXU_IPERIOD_PERIOD, fld s (Reg.CXU_CTL n) F.CXU_CTL_HB, fld s (Reg.CXU_DEC n) F.CXU_DEC_D)

/-- A write of a coefficient (R278). (DEDUCED, unsafe: log 125) -/
def coefWrite (s : State) (n b k : Nat) (v : Word) : State :=
  let a := if b = 0 then Reg.CXU_COEFA n k else Reg.CXU_COEFB n k
  if bankBusy s n b then refuseBank s n a else setFld s a F.CXU_COEFA_H v.toNat

/-- A write of a bank's configuration (R271, R278). A reserved N leaves its field unchanged. (DEDUCED, unsafe: log 125) -/
def bankCfgWrite (s : State) (n b : Nat) (v : Word) : State :=
  let a := if b = 0 then Reg.CXU_BANKA_CFG n else Reg.CXU_BANKB_CFG n
  let t := getF v F.CXU_BANKA_CFG_N
  let t := if 1 ≤ t ∧ t ≤ 384 then t else bankN s n b
  let (p, h, d) := rateCfg s n
  if bankBusy s n b then refuseBank s n a
  else if !inBudget (max t (bankN s n (1 - b))) p h d then refuseBank (evt s (Reg.CXU_STAT n) F.CXU_STAT_CFG_ERR) n a
  else setFld (setFld s a F.CXU_BANKA_CFG_N t) a F.CXU_BANKA_CFG_MINPH (getF v F.CXU_BANKA_CFG_MINPH)

/-! ## SYNC (R279 to R281) -/

/-- A SYNC takes effect. -/
def cxuSync (s : State) (n : Nat) : State :=
  let fading := decide (swSt s n = 2)
  let s := if fading then endFade s n else s
  let s := updCxu s n fun x =>
    { x with syncGo := false, time := none, acc := 0, n := 0, h0 := 0, u := 0, j := 0, d0 := [], d1 := [], fir := [],
             pwrSum := 0, pwrN := 0 }
  let s := updCxu s n fun x => { x with acc := rd s (Reg.CXU_NCO_PHASE0 n) }
  let s := setGdelay s n
  let p := partials s n (cxu s n)
  let s := updCxu (addCnt s (Reg.CXU_PARTIAL_CNT n) p) n fun x => { x with left := p }
  if fading then takeHeld s n else s

/-! ## Output blocks (R272) -/

/-- Samples of a block. -/
def CxuS.blkLen (x : CxuS) : Nat := 2 ^ getF x.outCfg F.CXU_OUT_CFG_LOG2BLK

/-- Who issues a CXU's writes: the physical function, which owns its registers (R420). (DEDUCED, unsafe: log 122) -/
def cxuIssuer (n : Nat) : Issuer := accIssuer (n / 8) 2 (uCxu n) 0

/-- Header of a block. -/
def blkHeader (s : State) (n : Nat) (last : Bool) : List Byte :=
  let x := cxu s n
  let b := x.blk
  leBytes 4 (rd s (Reg.CXU_SEQ n)).toNat ++ leBytes 8 (b.stamp % 2 ^ 54) ++ leBytes 4 (b.part + b.fade.toNat * 2 ^ 11
    + b.sat.toNat * 2 ^ 12 + b.gap.toNat * 2 ^ 13 + b.bank * 2 ^ 14 + last.toNat * 2 ^ 15 + b.slip.toNat * 2 ^ 16
    + x.isMem.toNat * 2 ^ 17)

/-- Hands a block to the link layer's steering (R272, R370). A block without a bound slot is dropped. (DEDUCED, unsafe: log 123) -/
def steerBlock (s : State) (n : Nat) (bytes : List Byte) (stamp : Nat) : State :=
  let st := 3968 + n
  let t := stamp / 64
  match (rxBinds s st).find? fun d => reached t d.start && !reached t (d.start + d.period) with
  | none => s
  | some d =>
    let stride := (16 + 4 * (cxu s n).blkLen + 63) / 64
    placeSection s (n / 8 * 3) st d d.count (d.expect / max 1 (getF d.layout F.RXS_LAYOUT_NSEC)) stride bytes

/-- The block in progress is complete, or closed short with END. -/
def closeBlock (s : State) (n : Nat) (last : Bool) : State :=
  let x := cxu s n
  let h := blkHeader s n last
  let seq := (rd s (Reg.CXU_SEQ n)).toNat
  let s := if x.blk.gap then evt (inc s (Reg.CXU_GAP_CNT n)) (Reg.CXU_EVT n) F.CXU_EVT_GAP else s
  let s := if x.blk.sat then evt (inc s (Reg.CXU_SAT_CNT n)) (Reg.CXU_EVT n) F.CXU_EVT_SAT else s
  let s := if getF x.outCfg F.CXU_OUT_CFG_MODE = 1 then
      steerBlock s n (h ++ x.blk.data ++ List.replicate (4 * (x.blkLen - x.blk.n)) 0) x.blk.stamp
    else
      let slots := 2 ^ (getF x.outCfg F.CXU_OUT_CFG_LOG2RING - (getF x.outCfg F.CXU_OUT_CFG_LOG2BLK + 2))
      updCxu s n fun x => { x with hdrs := x.hdrs ++ [(x.hdr + seq % slots * 16, h)] }
  updCxu (inc s (Reg.CXU_SEQ n)) n fun x => { x with blk := {} }

/-- A header whose samples have all been answered is written. -/
def headerWrite (s : State) (n : Nat) : State :=
  match (cxu s n).hdrs with
  | [] => s
  | (a, h) :: rest => (fabWrite (updCxu s n fun x => { x with hdrs := rest }) (cxuIssuer n) a h).2

/-! ## Power detector (R282, R283) -/

/-- Sets EIP.EVENT of the engines of a mask. -/
def pwrEngines (s : State) (n : Nat) : State :=
  let r := rd s (Reg.CXU_PWR_ENG n)
  (upto 8).foldl (fun s e =>
    if bitAt r.toNat e then setEip s (getF r F.CXU_PWR_ENG_TILE * 8 + e) 2 else s) s

/-- A RISE or FALL event. -/
def pwrEvent (s : State) (n : Nat) (fall : Bool) (mean stamp : Nat) : State :=
  let s := evt s (Reg.CXU_EVT n) (if fall then F.CXU_EVT_FALL else F.CXU_EVT_RISE)
  let s := setFld s (Reg.CXU_STAT n) F.CXU_STAT_LEVEL (if fall then 0 else 1)
  let s := if isSet s (Reg.CXU_PWR_CFG n) F.CXU_PWR_CFG_ENG then pwrEngines s n else s
  let tl := fld s (Reg.CXU_PWR_CFG n) F.CXU_PWR_CFG_TL
  if isSet s (Reg.CXU_PWR_CFG n) F.CXU_PWR_CFG_TLN && accepted s (fld s (Reg.TL_CTL tl) F.TL_CTL_OWNER) 6 then
    postEvent s tl 2 [n + fall.toNat * 2 ^ 8, mean, stamp % 2 ^ 32, stamp % 2 ^ 54 / 2 ^ 32, 0]
  else s

/-- A written output enters the detector. -/
def pwrOutput (s : State) (n : Nat) (re im : Int) (stamp : Nat) : State :=
  if !isSet s (Reg.CXU_PWR_CFG n) F.CXU_PWR_CFG_EN then updCxu s n fun x => { x with pwrSum := 0, pwrN := 0 }
  else
    let s := updCxu s n fun x => { x with pwrSum := x.pwrSum + (re * re + im * im).toNat, pwrN := x.pwrN + 1 }
    let x := cxu s n
    let k := fld s (Reg.CXU_PWR_CFG n) F.CXU_PWR_CFG_K
    if x.pwrN < 2 ^ k then s
    else
      let mean := (roundShift x.pwrSum k).toNat
      let s := wr s (Reg.CXU_PWR_LAST n) (BitVec.ofNat 32 mean)
      let s := updCxu s n fun x => { x with pwrSum := 0, pwrN := 0 }
      if !isSet s (Reg.CXU_STAT n) F.CXU_STAT_LEVEL then
        if (rd s (Reg.CXU_PWR_UP n)).toNat ≤ mean then pwrEvent s n false mean stamp else s
      else if mean < (rd s (Reg.CXU_PWR_LO n)).toNat then pwrEvent s n true mean stamp else s

/-! ## The chain (R268 to R270, R277) -/

/-- An exact sum, shifted and saturated, part by part. -/
def outParts (sh : Nat) (a : Cx) : Cx × Bool :=
  let (x, p) := satN 16 (roundShift a.1 sh)
  let (y, q) := satN 16 (roundShift a.2 sh)
  ((x, y), p || q)

/-- NCO mixer (R268). (DESIGN CHOICE, unsafe: log 127) -/
def mix (acc : Word) (x : CxSmp) : CxSmp × Bool :=
  let (c, s) := trig (acc.toNat / 2 ^ 16) 65536
  let (c, s) := (twPart c, twPart s)
  let (y, b) := outParts 17 (x.re * c + x.im * s, x.im * c - x.re * s)
  ({ x with re := y.1, im := y.2 }, b)

/-- Half-band coefficients (R269), by tap; zero elsewhere. -/
def hbTaps : List (Nat × Int) :=
  [(15, 65536), (14, 41393), (16, 41393), (12, -12753), (18, -12753), (10, 6540), (20, 6540), (8, -3735), (22, -3735),
   (6, 2150), (24, 2150), (4, -1167), (26, -1167), (2, 550), (28, 550), (0, -210), (30, -210)]

/-- A sum of taps over a delay line, newest first, and whether a substituted sample is among them. -/
def firSum (xs : List CxSmp) (taps : List (Nat × Int)) : Cx × Bool :=
  taps.foldl (fun (a, g) (k, h) =>
    match xs[k]? with
    | some x => ((a.1 + h * x.re, a.2 + h * x.im), g || x.gap)
    | none => (a, g)) ((0, 0), false)

/-- An output of a half-band stage. -/
def hbOut (line : List CxSmp) : CxSmp × Bool :=
  let (a, g) := firSum line hbTaps
  let (y, b) := outParts 17 a
  ({ re := y.1, im := y.2, gap := g }, b)

/-- Output of the FIR with a bank. -/
def firOut (s : State) (n b : Nat) (x : CxuS) : CxSmp × Bool :=
  let (a, g) := firSum x.fir ((upto (bankN s n b)).map fun k => (k, coef s n b k))
  let (y, t) := outParts x.shift a
  ({ re := y.1, im := y.2, gap := g }, t)

/-- One part of a faded output (R277). -/
def fadePart (a b : Int) (i l : Nat) : Int := (satN 16 (a + roundShift ((b - a) * (i + 1)) l)).1

/-- Input times are carried modulo this. -/
abbrev cxMod : Nat := 3 * 2 ^ 54

/-- Difference of two input times. -/
def cxDiff (a b : Nat) : Int :=
  let d := (a + cxMod - b % cxMod) % cxMod
  if d < cxMod / 2 then d else (d : Int) - cxMod

/-- Stamp of an output whose last input has time `t`, in Tc/64 (R274). -/
def outStamp (s : State) (n t : Nat) : Nat :=
  let v := (t + cxMod - (rd s (Reg.CXU_GDELAY n)).toNat % cxMod) % cxMod
  (v + 1) / 3 % 2 ^ 54

/-- An output sample joins its block and is written. (DEDUCED, unsafe: log 124) -/
def putOutput (s : State) (n : Nat) (y : CxSmp) (stamp : Nat) (part fade : Bool) : State :=
  let x := cxu s n
  let bytes := leBytes 2 (wrapN 16 y.re) ++ leBytes 2 (wrapN 16 y.im)
  let steer := decide (getF x.outCfg F.CXU_OUT_CFG_MODE = 1)
  let s := if steer then s
    else (fabWrite s (cxuIssuer n) (x.out + 4 * x.outN % 2 ^ getF x.outCfg F.CXU_OUT_CFG_LOG2RING) bytes).2
  let s := updCxu s n fun x =>
    { x with
      outN := x.outN + 1, satNext := false, gapNext := false, slipNext := false
      blk := { n := x.blk.n + 1, stamp := if x.blk.n = 0 then stamp else x.blk.stamp, part := x.blk.part + part.toNat,
               fade := x.blk.fade || fade, sat := x.blk.sat || x.satNext, gap := x.blk.gap || y.gap || x.gapNext,
               bank := inUse s n, slip := x.blk.slip || x.slipNext, data := if steer then x.blk.data ++ bytes else [] } }
  let s := if part then s else pwrOutput s n y.re y.im stamp
  if (cxu s n).blk.n = (cxu s n).blkLen then closeBlock s n false else s

/-- The FIR computes an output at input time `t`. -/
def firStep (s : State) (n t : Nat) : State :=
  let stamp := outStamp s n t
  let s := if swSt s n = 1 ∧ 0 ≤ sgn 54 (stamp + 2 ^ 54 - rd64 s (Reg.CXU_SWTIME_LO n) % 2 ^ 54) then
      (if bankOk s n (1 - inUse s n) (cxu s n) then startFade s n else bankErr s n) else s
  let x := cxu s n
  let (a, sa) := firOut s n (inUse s n) x
  let fading := decide (swSt s n = 2)
  let (y, sat) := if fading then
      let (b, sb) := firOut s n (1 - inUse s n) x
      ({ re := fadePart a.re b.re x.fadeI x.fadeLog, im := fadePart a.im b.im x.fadeI x.fadeLog, gap := a.gap || b.gap }, sa || sb)
    else (a, sa)
  let part := decide (x.left ≠ 0)
  let ends := fading && decide (x.fadeI + 1 = 2 ^ x.fadeLog)
  let s := updCxu s n fun x =>
    { x with j := x.j + 1, left := x.left - 1, satNext := x.satNext || sat, fadeI := x.fadeI + fading.toNat }
  let s := if ends then endFade s n else s
  let s := if part && decide (getF x.ctl F.CXU_CTL_SUPPRESS = 1) then s
    else putOutput s n y stamp part fading
  if ends then takeHeld s n else s

/-- A sample enters the FIR. -/
def firIn (s : State) (n t : Nat) (y : CxSmp) : State :=
  let x := cxu s n
  let s := updCxu s n fun x => { x with fir := (y :: x.fir).take 384, u := x.u + 1 }
  if x.u % x.d = 0 then firStep s n t else s

/-- A sample enters the second half-band stage, when it is in use. -/
def hb1In (s : State) (n t : Nat) (y : CxSmp) : State :=
  let x := cxu s n
  if x.hb < 2 then firIn s n t y
  else
    let d1 := (y :: x.d1).take 31
    let s := updCxu s n fun x => { x with d1 := d1, h0 := x.h0 + 1 }
    if x.h0 % 2 ≠ 0 then s
    else
      let (z, b) := hbOut d1
      firIn (updCxu s n fun x => { x with satNext := x.satNext || b }) n t z

/-- A mixed sample enters the chain. -/
def hb0In (s : State) (n t : Nat) (y : CxSmp) : State :=
  let x := cxu s n
  let s := updCxu s n fun x => { x with n := x.n + 1 }
  if x.hb < 1 then firIn s n t y
  else
    let d0 := (y :: x.d0).take 31
    let s := updCxu s n fun x => { x with d0 := d0 }
    if x.n % 2 ≠ 0 then s
    else
      let (z, b) := hbOut d0
      hb1In (updCxu s n fun x => { x with satNext := x.satNext || b }) n t z

/-- The input time of the next sample (R266): the start of time, the running time, or a reload from the frame's stamp.
(DEDUCED, unsafe: log 122) -/
def inputTime (s : State) (n : Nat) (i : CxIn) : Nat × State :=
  let x := cxu s n
  let base := (i.stamp * 3 + cxMod - i.back * x.iper % cxMod) % cxMod
  match x.time with
  | none => (if x.isMem then 0 else base, s)
  | some t =>
    let tol := fld s (Reg.CXU_SLIP_TOL n) F.CXU_SLIP_TOL_TOL
    if !x.isMem && i.first && (decide (tol = 0) || decide (tol < (cxDiff t base).natAbs)) then
      (base, updCxu (evt (inc s (Reg.CXU_SLIP_CNT n)) (Reg.CXU_EVT n) F.CXU_EVT_SLIP) n fun x => { x with slipNext := true })
    else (t, s)

/-- Time at which the next input sample would be taken, without reloads: for SYNCs of timelines. (DEDUCED, unsafe: log 124) -/
def nextTime (x : CxuS) (i : CxIn) : Nat :=
  match x.time with
  | some t => if !x.isMem && i.first then (i.stamp * 3 + cxMod - i.back * x.iper % cxMod) % cxMod else t
  | none => if x.isMem then 0 else (i.stamp * 3 + cxMod - i.back * x.iper % cxMod) % cxMod

/-- A CXU takes one input sample (R264). -/
def cxuSample (s : State) (n : Nat) : State :=
  if !cxuRun s n || fenced s (uCxu n) || s.pwr.clocksStopped then s
  else match (cxu s n).queue with
    | [] => s
    | i :: rest =>
      let s := updCxu s n fun x => { x with queue := rest }
      if (cxu s n).stop then
        let s := if (cxu s n).blk.n = 0 then s else closeBlock s n true
        setFld (updCxu s n fun x => { x with stop := false, queue := [] }) (Reg.CXU_STAT n) F.CXU_STAT_RUN 0
      else
        let t := nextTime (cxu s n) i / 192 % 2 ^ 48
        let due := (cxu s n).tlSyncs.any fun b => reached t b
        let s := updCxu s n fun x => { x with tlSyncs := x.tlSyncs.filter fun b => !reached t b }
        let s := if (cxu s n).syncGo || due then cxuSync s n else s
        let (t, s) := inputTime s n i
        let s := updCxu s n fun x => { x with time := some ((t + x.iper) % cxMod) }
        let x := cxu s n
        let (y, b) := if getF x.ctl F.CXU_CTL_NCO_EN = 1 then mix x.acc i.x else (i.x, false)
        let s := updCxu s n fun x =>
          { x with acc := x.acc + rd s (Reg.CXU_NCO_FREQ n), satNext := x.satNext || b }
        hb0In s n t y

/-! ## Inputs -/

/-- A 64-byte write of 16 samples reaches the input window (R265). -/
def cxuMemWrite (s : State) (n : Nat) (bs : List Byte) : State :=
  if !cxuRun s n || !(cxu s n).isMem then s
  else updCxu s n fun x => { x with queue := x.queue ++ (upto 16).map fun i =>
    { x := { re := sgn 16 (leAt bs (4 * i) 2), im := sgn 16 (leAt bs (4 * i + 2) 2), gap := false },
      stamp := 0, back := 0, first := false } }

/-- CXUs that take a receive stream. -/
def cxuTakers (s : State) (st : Nat) : List Nat :=
  (upto 32).filter fun n => cxuRun s n && !(cxu s n).isMem && decide ((cxu s n).src = st)

/-- Samples of a TD16 section, with `gap` substituted ones before them, go to a CXU (R267, R371). -/
def cxuFeed (s : State) (n gap stamp : Nat) (data : List Byte) : State :=
  let zeros := (upto gap).map fun k =>
    ({ x := { re := 0, im := 0, gap := true }, stamp := stamp, back := gap - k, first := false } : CxIn)
  let smps := (upto (data.length / 4)).map fun i =>
    ({ x := { re := sgn 16 (leAt data (4 * i) 2), im := sgn 16 (leAt data (4 * i + 2) 2), gap := false },
       stamp := stamp, back := 0, first := decide (i = 0) } : CxIn)
  updCxu s n fun x => { x with queue := x.queue ++ zeros ++ smps }

/-- Checks the sample index of a TD16 stream and passes the section on to the CXUs that take it (R371). (DEDUCED, unsafe: log 122) -/
def tdSection (s : State) (st : Nat) (cfg tdoff : Word) (x : RxItem) : State :=
  let len := bits (leAt x.bytes 4 4) 16 11
  let pos := leAt x.bytes 8 4
  let g := match Tab.get (fun _ => none) s.lnk.tdNext st with
    | some e => (pos + 2 ^ 32 - e) % 2 ^ 32
    | none => 0
  let fill := if g ≤ 65536 then g else 0
  let s := addCnt s (Reg.LNK_TDGAP_CNT (st / 256)) fill
  let s := { s with lnk := { s.lnk with
    tdNext := Tab.put (fun _ => none) s.lnk.tdNext st (some ((pos + len / 4) % 2 ^ 32)) } }
  let stamp := (x.stamp + 2 ^ 54 - tdoff.toNat) % 2 ^ 54
  if getF cfg F.RXS_CFG_EN = 0 then s
  else (cxuTakers s st).foldl (fun s n => cxuFeed s n fill stamp ((x.bytes.drop 16).take len)) s

/-! ## Enable and disable (R284, R287) -/

/-- Starts with an implicit SYNC at the next input sample; `keep`: SEQ and the ring go on (a restart). -/
def cxuStart (s : State) (n : Nat) (keep : Bool) : State :=
  let s := setFld (wakeIdle s (16 + n / 8)) (Reg.CXU_STAT n) F.CXU_STAT_RUN 1
  let s := if keep then s else wr s (Reg.CXU_SEQ n) 0
  updCxu s n fun x => { x with syncGo := true, stop := false, queue := [], blk := {}, tlSyncs := [], gapNext := keep,
                               satNext := false, slipNext := false, outN := if keep then x.outN else 0 }

/-- EN changes from 0 to 1 (R284): the configuration is sampled and checked. -/
def cxuEnable (s : State) (n : Nat) : State :=
  let x : CxuS :=
    { cxu s n with
      ctl := rd s (Reg.CXU_CTL n), src := fld s (Reg.CXU_SRC n) F.CXU_SRC_STREAM
      iper := fld s (Reg.CXU_IPERIOD n) F.CXU_IPERIOD_PERIOD, dec := rd s (Reg.CXU_DEC n)
      out := rd64 s (Reg.CXU_OUT_LO n) % 2 ^ 48, hdr := rd64 s (Reg.CXU_HDR_LO n) % 2 ^ 48, outCfg := rd s (Reg.CXU_OUT_CFG n) }
  let b := fld s (Reg.CXU_BANK n) F.CXU_BANK_START
  let ok := (x.isMem || decide (x.src < 3072 ∧ x.src / 256 / 3 = n / 8)) && decide (768 ≤ x.iper ∧ x.iper ≤ 196608)
    && inBudget (max (bankN s n 0) (bankN s n 1)) x.iper x.hb x.d && bankOk s n b x
  if unitSt s (uCxu n) ≠ 0 then s
  else if !ok then evt s (Reg.CXU_STAT n) F.CXU_STAT_CFG_ERR
  else
    let s := { s with cxu := Tab.put (fun _ => {}) s.cxu n x }
    let s := setFld (setFld s (Reg.CXU_STAT n) F.CXU_STAT_CFG_ERR 0) (Reg.CXU_STAT n) F.CXU_STAT_LEVEL 0
    let s := setFld (setFld (setSwSt s n 0) (Reg.CXU_BANK n) F.CXU_BANK_HELD 0) (Reg.CXU_BANK n) F.CXU_BANK_INUSE b
    cxuStart (setGdelay s n) n false

/-- EN changes from 1 to 0: the CXU stops at its next input sample. -/
def cxuDisable (s : State) (n : Nat) : State :=
  if cxuRun s n then updCxu s n fun x => { x with stop := true } else s

/-- The strip enters RET or OFF (R287): its CXUs stop and keep EN. -/
def stripStopCxus (s : State) (q : Nat) : State :=
  (upto 8).foldl (fun s i =>
    let n := q * 8 + i
    if cxuRun s n then
      let s := if (cxu s n).blk.n = 0 then s else closeBlock s n true
      setFld (updCxu s n fun x => { x with queue := [], stop := false }) (Reg.CXU_STAT n) F.CXU_STAT_RUN 0
    else s) s

/-- A CXU is back in service (R285, R287): it restarts when EN is 1. -/
def cxuReturn (s : State) (n : Nat) : State :=
  if isSet s (Reg.CXU_CTL n) F.CXU_CTL_EN then cxuStart s n true else s

/-- A timeline's boundary: the CXUs that follow it will SYNC (R279). (DEDUCED, unsafe: log 126) -/
def cxuBoundary (s : State) (tl start : Nat) : State :=
  (upto 32).foldl (fun s n =>
    if cxuRun s n && isSet s (Reg.CXU_SYNC n) F.CXU_SYNC_TL_EN && decide (fld s (Reg.CXU_SYNC n) F.CXU_SYNC_TL = tl)
    then updCxu s n fun x => { x with tlSyncs := x.tlSyncs ++ [start] } else s) s

/-- A CXU faults (R285): fenced; the block in progress and the headers not written are discarded, SEQ counts on.
(DEDUCED, unsafe: log 125) -/
def cxuFault (s : State) (n kind : Nat) : State :=
  let u := uCxu n
  if discards s u || !domLive s (16 + n / 8) then s
  else
    let s := evt s (Reg.CXU_EVT n) F.CXU_EVT_FAULT
    let s := if (cxu s n).blk.n = 0 then s else inc s (Reg.CXU_SEQ n)
    let s := updCxu s n fun x => { x with queue := [], blk := {}, hdrs := [] }
    unitFault (setFld s (Reg.CXU_STAT n) F.CXU_STAT_RUN 0) u kind 0 0

end Sys2Proof.Machine
end

