-- ==== Sys2Proof/Machine/Task.lean ====
section
/-! DEFINITION. Palettes, task records, buffers and their resolution (R59 to R67, R83 to R89): what the timeline unit and the
supervisors share. -/

namespace Sys2Proof.Machine

/-! ## Access -/

/-- A timeline beside its registers. -/
def tl (s : State) (n : Nat) : TlS := Tab.get (fun _ => {}) s.tln.tls n

/-- Changes it. -/
def updTl (s : State) (n : Nat) (g : TlS → TlS) : State :=
  { s with tln := { s.tln with tls := Tab.upd (fun _ => {}) s.tln.tls n g } }

/-- A palette by its key. -/
def pal? (s : State) (k : Nat) : Option Pal := s.tln.pals.find? fun p => decide (p.key = k)

/-- The palette of a timeline and a slot. -/
def palAt (s : State) (t slot : Nat) : Option Pal := s.tln.pals.find? fun p => decide (p.tl = t ∧ p.slot = slot)

/-- Changes a palette. -/
def updPal (s : State) (k : Nat) (g : Pal → Pal) : State :=
  { s with tln := { s.tln with pals := s.tln.pals.map fun p => if p.key = k then g p else p } }

/-- Key of a task. -/
abbrev taskKey (p id : Nat) : Nat := p * 8192 + id

/-- A task. -/
def task (s : State) (k : Nat) : Task := Tab.get (fun _ => {}) s.tln.tasks k

/-- Changes a task. -/
def updTask (s : State) (k : Nat) (g : Task → Task) : State :=
  { s with tln := { s.tln with tasks := Tab.upd (fun _ => {}) s.tln.tasks k g } }

/-- Key of a buffer. -/
abbrev bufKey (p i : Nat) : Nat := p * 16384 + i

/-- A buffer of a bound palette. -/
def buf (s : State) (k : Nat) : BufS := Tab.get (fun _ => {}) s.tln.bufs k

/-- Changes a buffer. -/
def updBuf (s : State) (k : Nat) (g : BufS → BufS) : State :=
  { s with tln := { s.tln with bufs := Tab.upd (fun _ => {}) s.tln.bufs k g } }

/-- The palette of a task. -/
def palOf (s : State) (k : Nat) : Option Pal := pal? s (k / 8192)

/-- Is a phase the end of a task? -/
def TPhase.over (p : TPhase) : Bool := decide (p = .done) || decide (p = .missed)

/-! ## The image (R59, R60, R62) -/

/-- A palette header. -/
def readHdr (s : State) (a : Nat) : PalHdr :=
  let b := loadN s a 128
  { minOp := bits (leAt b 4 4) 8 2, func := bits (leAt b 4 4) 16 5, tasks := leAt b 8 4 % 2 ^ 14, bufs := leAt b 12 4 % 2 ^ 15,
    horizon := leAt b 16 4 % 2 ^ 24, taskOff := leAt b 20 4, bufOff := leAt b 24 4, prog := leAt b 28 6, progs := leAt b 34 2 }

/-- A reference field: 0xFFFF is none. -/
def refField (v : Nat) : Option Nat := if v = 0xFFFF then none else some v

/-- A predecessor field. -/
def predField (v : Nat) : Option Nat := if bitAt v 15 then some (v % 8192) else none

/-- A task record as it stands. -/
def decodeRec (b : List Byte) : TaskRec :=
  { id := leAt b 0 2, cls := bits (leAt b 0 4) 16 4, prio := bits (leAt b 0 4) 20 2, onMiss := bits (leAt b 0 4) 22 2,
    prog := leAt b 4 2, home := bits (leAt b 4 4) 16 7, start := leAt b 8 3, deadline := leAt b 12 3, mask := leAt b 16 16,
    preds := (upto 4).map fun i => predField (leAt b (0x20 + 2 * i) 2),
    ins := (upto 4).map fun i => refField (leAt b (0x28 + 2 * i) 2),
    outs := (upto 4).map fun i => refField (leAt b (0x30 + 2 * i) 2),
    arg := leAt b 0x38 8 }

/-- The bytes of task record `i` of a palette. -/
def recBytes (s : State) (p : Pal) (i : Nat) : List Byte := loadN s (p.addr + p.hdr.taskOff + i * 64) 64

/-- The record of a task: as delivered, or as it stands while it is pending. (DEDUCED, unsafe: log 131) -/
def taskRec (s : State) (p : Pal) (k : Nat) : TaskRec :=
  if (task s k).phase = .pending then decodeRec (recBytes s p (k % 8192)) else (task s k).tr

/-- Buffer kinds (R62). -/
abbrev kSCRATCH : Nat := 0
abbrev kCONST : Nat := 1
abbrev kINGRESS : Nat := 2
abbrev kEGRESS : Nat := 3
abbrev kHOST : Nat := 4
abbrev kHARQ : Nat := 5
abbrev kPARAM : Nat := 6

/-- A buffer entry (R62). -/
structure BufEnt where
  base : Nat
  kind : Nat
  depth : Nat
  size : Nat
  subst : Option Nat
  stream : Nat
  streams : Nat
  time : Nat
  expect : Nat
  handle : Nat

/-- A buffer entry from its bytes. -/
def decodeBuf (b : List Byte) : BufEnt :=
  { base := leAt b 0 6, kind := bits (leAt b 4 4) 16 4, depth := bits (leAt b 4 4) 20 4 + 1, size := leAt b 8 3,
    subst := refField (leAt b 12 2), stream := leAt b 0x10 4 % 2 ^ 12, streams := bits (leAt b 0x10 4) 12 7 + 1,
    time := leAt b 0x14 3, expect := leAt b 0x18 2, handle := leAt b 0x1C 4 }

/-- Buffer entry `i` of a palette, as it stands. -/
def bufEnt (s : State) (p : Pal) (i : Nat) : BufEnt := decodeBuf (loadN s (p.addr + p.hdr.bufOff + i * 32) 32)

/-- The address of a buffer for the palette's slot (R63). -/
def BufEnt.addrFor (b : BufEnt) (slot : Nat) : Nat :=
  if b.kind = kSCRATCH ∨ b.kind = kINGRESS ∨ b.kind = kEGRESS ∨ b.kind = kHOST then b.base + slot % b.depth * b.size else b.base

/-- A program table entry: image, SIZE, ENTRY, IMG_CRC. -/
def progEnt (s : State) (p : Pal) (i : Nat) : Nat × Nat × Nat × Nat :=
  let b := loadN s (p.hdr.prog + i * 16) 16
  (leAt b 0 6, leAt b 8 2, leAt b 10 2, leAt b 12 4)

/-! ## Deadlines (R83, R84) -/

/-- The effective deadline of a record, from the slot start. -/
def effDeadline (s : State) (p : Pal) (r : TaskRec) : Int :=
  r.outs.foldl (fun d o =>
    match o with
    | some i =>
      let b := bufEnt s p i
      if b.kind = kEGRESS then min d ((b.time : Int) - p.adv) else d
    | none => d) (r.deadline : Int)

/-- The absolute deadline. -/
def absDeadline (s : State) (p : Pal) (r : TaskRec) : Nat := wrapN 48 ((p.start : Int) + effDeadline s p r)

/-- The absolute START. -/
def absStart (p : Pal) (r : TaskRec) : Nat := (p.start + r.start) % 2 ^ 48

/-! ## Tiles (R5, R17, R34) -/

/-- Mesh coordinates of a tile's router (R5). -/
def tileXY (t : Nat) : Nat × Nat :=
  let q := t / 32
  let n := t / 8 % 4
  (8 * (q % 2) + 4 * (n % 2) + t % 4, 4 * (q / 2) + 2 * (n / 2) + t % 8 / 4)

/-- Mesh distance (R17). -/
def meshDist (a b : Nat) : Nat :=
  let (x, y) := tileXY a
  let (u, v) := tileXY b
  (max x u - min x u) + (max y v - min y v)

/-- Puts a tile at its place by distance from `t`, then by number. -/
def insTile (t a : Nat) : List Nat → List Nat
  | [] => [a]
  | b :: bs => if meshDist t a * 128 + a < meshDist t b * 128 + b then a :: b :: bs else b :: insTile t a bs

/-- Tiles in ascending mesh distance from `t`, lower numbers first. -/
def byDistance (t : Nat) (ts : List Nat) : List Nat := ts.foldl (fun l a => insTile t a l) []

/-- Operating point of a sector. -/
def sectorOp (s : State) (n : Nat) : Nat := fld s (Reg.PWR_DOM_OP n) F.PWR_DOM_OP_CUR

/-- Is a tile at risk for a palette (R80)? -/
def atRisk (s : State) (p : Pal) (t : Nat) : Bool := decide (p.hdr.minOp < sectorOp s (t / 8)) || onOsc s (t / 8)

/-- Does a tile's sector count as ACT or IDLE, and is the tile in service? -/
def tileUp (s : State) (t : Nat) : Bool := domLive s (t / 8) && decide (unitSt s (uTile t) = 0)

/-- Keys of the tasks of a tile's queues. -/
def tileQueue (s : State) (t : Nat) : List Nat :=
  (s.tln.tasks.filter fun e => decide (e.2.phase = .queued ∧ e.2.tile = t)).map (·.1)

/-- Depth of a priority queue. -/
def queueDepth (s : State) (t prio : Nat) : Nat :=
  (s.tln.tasks.filter fun e => decide (e.2.phase = .queued ∧ e.2.tile = t ∧ e.2.tr.prio = prio)).length

/-! ## Resolution (R85 to R89) -/

/-- Was a task missed? -/
def missedTask (s : State) (k : Nat) : Bool := decide ((task s k).phase = .missed)

/-- Does a missed predecessor cascade? -/
def cascades (s : State) (pk : Nat) (r : TaskRec) : Bool :=
  r.preds.any fun o =>
    match o with
    | some i => missedTask s (taskKey pk i) && decide ((task s (taskKey pk i)).tr.onMiss = 1)
    | none => false

/-- Have all predecessors resolved? -/
def predsOver (s : State) (pk : Nat) (r : TaskRec) : Bool :=
  r.preds.all fun o =>
    match o with
    | some i => (task s (taskKey pk i)).phase.over
    | none => true

/-- Was a predecessor missed? -/
def predMissed (s : State) (pk : Nat) (r : TaskRec) : Bool :=
  r.preds.any fun o =>
    match o with
    | some i => missedTask s (taskKey pk i)
    | none => false

/-- TASK_ID, target engine, FUNC and REMOTE, as RECOAT_START and RECOAT_END hold them (R506). -/
def recoatArg (s : State) (k : Nat) (p : Pal) : Nat :=
  let t := task s k
  let e := t.target.getD 0
  k % 8192 + e * 2 ^ 16 + p.hdr.func * 2 ^ 26 + (if e / 8 = t.faulty / 8 then 0 else 2 ^ 31)

/-- A recoat ends with a reason; 0 is done. -/
def recoatEnd (s : State) (k : Nat) (p : Pal) (reason : Nat) : State :=
  let t := task s k
  if !t.recoatRun then s
  else
    let s := sep s 0x03 (uEng t.faulty) reason (recoatArg s k p)
    let s := if reason = 0 then s else evt (inc s Reg.RAS_RECOAT_MISS_CNT) Reg.RAS_EVT F.RAS_EVT_RECOAT_MISS
    updTask s k fun t => { t with recoatRun := false, target := none }

/-- What a miss leaves behind: counters, events, the recorder's MISS. -/
def countMiss (s : State) (k : Nat) (p : Pal) (reason : Nat) (here : Bool) : State :=
  let s := evt (inc s (Reg.TL_MISS_CNT p.tl)) (Reg.TL_EVT p.tl) F.TL_EVT_MISS
  let s := if here then inc s (Reg.TSU_MISS_CNT (task s k).tile) else s
  if (reason = 1 ∨ reason = 2) ∧ isSet s Reg.SEP_CTL F.SEP_CTL_MISS_ALL = false then s
  else sep s 0x04 (uTile (task s k).tile) reason (k % 8192 + p.tl * 2 ^ 13 + p.slot % 2 ^ 13 * 2 ^ 19)

/-- Is a task with a supervisor: queued or bound there? -/
def TPhase.onTile : TPhase → Bool
  | .queued | .loading | .running | .stopping | .recoat => true
  | _ => false

/-- One task resolves, as done (0) or missed with a reason. -/
def resolve1 (s : State) (k reason : Nat) : State :=
  match palOf s k with
  | none => s
  | some p =>
    let t := task s k
    if t.phase.over then s
    else
      let s := recoatEnd s k p reason
      let s := if reason = 0 then s else countMiss s k p reason t.phase.onTile
      let s := updTask s k fun t =>
        { t with tr := taskRec s p k, phase := if reason = 0 then .done else .missed, reason := reason, eng := none }
      let s := { s with tln := { s.tln with handed := s.tln.handed.filter fun h => decide (h ≠ k) } }
      let s := updPal s p.key fun p =>
        { p with done := p.done + (if reason = 0 then 1 else 0), missed := p.missed + (if reason = 0 then 0 else 1) }
      let (now, s) := copyNow s 20
      updPal s p.key fun p => if p.done + p.missed = p.hdr.tasks then { p with resolved := some now } else p

/-- What a resolution or a START means for one other task (R71, R85): a cascade, or the end of a JOIN. -/
def afterOne (s : State) (k : Nat) : State :=
  let t := task s k
  match t.phase with
  | .join =>
    if cascades s (k / 8192) t.tr then resolve1 s k 2
    else if t.started && predsOver s (k / 8192) t.tr then resolve1 s k (if predMissed s (k / 8192) t.tr then 2 else 0)
    else s
  | .handed => if cascades s (k / 8192) t.tr then resolve1 s k 2 else s
  | .parked => if cascades s (k / 8192) t.tr then resolve1 s k 2 else s
  | .queued => if cascades s (k / 8192) t.tr then resolve1 s k 2 else s
  | _ => s

/-- The tasks of a palette see what has happened, in ascending ids: predecessors come first. -/
def afterAll (s : State) (pk : Nat) : State :=
  ((s.tln.tasks.filter fun e => decide (e.1 / 8192 = pk)).map (·.1)).foldl afterOne s

/-- A task resolves. -/
def resolve (s : State) (k reason : Nat) : State := afterAll (resolve1 s k reason) (k / 8192)

/-! ## INGRESS buffers (R64, R71) -/

/-- Sections placed in a buffer. -/
def gotSections (s : State) (pk i : Nat) : Nat :=
  (s.lnk.rx.flatMap fun e => e.2.filter fun d => decide (d.pal = pk ∧ d.buf = i)).foldl (fun n d => n + d.count) 0

/-- Is a buffer complete: EXPECT sections have been placed? -/
def bufComplete (s : State) (pk i : Nat) : Bool := decide ((buf s (bufKey pk i)).expect ≤ gotSections s pk i)

/-- An INGRESS buffer closes; what it lacks is counted. -/
def closeBuf (s : State) (pk i : Nat) : State :=
  let k := bufKey pk i
  if !(buf s k).ingress || (buf s k).closed then s
  else
    let s := if bufComplete s pk i then s else updPal s pk fun p => { p with ingressInc := p.ingressInc + 1 }
    let s := updBuf s k fun b => { b with closed := true }
    { s with lnk := { s.lnk with rx := s.lnk.rx.map fun e =>
      (e.1, e.2.map fun d => if d.pal = pk ∧ d.buf = i then { d with closed := true } else d) } }

/-- Is a task ready (R71)? -/
def taskReady (s : State) (k : Nat) : Bool :=
  let t := task s k
  let pk := k / 8192
  decide (t.phase = .queued) && t.started && predsOver s pk t.tr && t.tr.ins.all fun o =>
    match o with
    | some i => !(buf s (bufKey pk i)).ingress || (buf s (bufKey pk i)).closed || bufComplete s pk i
    | none => true

/-! ## Record checks (R66, codes 0x05 to 0x0C) -/

/-- The streams of a buffer: are they of the function, by the OWNER of their entries? The CXU streams of R272 belong to the
physical function. (DEDUCED, unsafe: log 134) -/
def streamsOk (s : State) (f : Nat) (b : BufEnt) : Bool :=
  if !partChecked s f then true
  else (upto b.streams).all fun j =>
    let st := b.stream + j
    if b.kind = kEGRESS then
      decide (st < 3072) && decide (fld s (Reg.TXS_CFG (st / 256) (st % 256)) F.TXS_CFG_OWNER = f)
    else if 3968 ≤ st ∧ st < 4000 then decide (f = 0)
    else decide (st < 3072) && decide (fld s (Reg.RXS_CFG (st / 256) (st % 256)) F.RXS_CFG_OWNER = f)

/-- Does a range lie in memory of a function's partition, below 2^48? `n` is not 0. (DEDUCED, unsafe: log 58) -/
def rangeIn (s : State) (f a n : Nat) : Bool :=
  match target a with
  | .hbm => decide (a + n ≤ 0x800000000) && partOk s f a n
  | .tmem t off => decide (off + n ≤ 0x100000) && partOk s f (tileBase t + off) n
  | _ => false

/-- The code of the first check a record fails, in ascending codes. (DEDUCED, unsafe: log 136) -/
def recFault (s : State) (p : Pal) (i : Nat) (raw_ : List Byte) : Option Nat :=
  let r := decodeRec raw_
  let w (o n : Nat) := leAt raw_ o n
  let f := p.hdr.func
  let refs := r.ins ++ r.outs
  let kinds := refs.filterMap fun o => o.bind fun x => if x < p.hdr.bufs then some (bufEnt s p x).kind else none
  let outBad := r.outs.any fun o =>
    match o with
    | some x => decide (x < p.hdr.bufs) && decide ((bufEnt s p x).kind = kCONST ∨ (bufEnt s p x).kind = kINGRESS)
    | none => false
  if r.id ≠ i then some 5
  else if (upto 4).any (fun j => decide (bits (w (0x20 + 2 * j) 2) 13 2 ≠ 0)) ||
      r.preds.any (fun o => match o with | some x => decide (i ≤ x) | none => false) then some 6
  else if r.mask = 0 || !bitAt r.mask r.home ||
      (partChecked s f && (upto 128).any fun t => bitAt r.mask t && !bitAt (rd s (Reg.PART_TILE f (t / 32))).toNat (t % 32))
    then some 7
  else if 5 ≤ r.cls || decide (r.onMiss = 3) || (decide (r.cls = 4) && refs.any (·.isSome)) ||
      (decide (r.cls = 3 ∨ r.cls = 4) && decide (r.prog ≠ 0)) || (decide (r.cls ≠ 3) && kinds.contains kPARAM) ||
      decide (w 3 1 ≠ 0) || decide (w 6 2 / 128 ≠ 0) then some 8
  else if decide (r.deadline ≤ r.start ∨ p.hdr.horizon < r.deadline ∨ w 11 1 ≠ 0 ∨ w 15 1 ≠ 0) then some 9
  else if refs.any (fun o => match o with | some x => decide (p.hdr.bufs ≤ x) | none => false) || outBad then some 10
  else if r.cls ≤ 2 && decide (p.hdr.progs ≤ r.prog) then some 12
  else none

end Sys2Proof.Machine
end

