-- ==== Sys2Proof/Machine/Tln.lean ====
section
/-! DEFINITION. The timeline unit (R46 to R58, R68 to R70, R87 to R89): prepare points, binding, boundaries, delivery, the status
block. -/

namespace Sys2Proof.Machine

/-! ## Timelines -/

/-- Owner of a timeline. -/
def tlOwner (s : State) (n : Nat) : Nat := fld s (Reg.TL_CTL n) F.TL_CTL_OWNER

/-- Is a timeline in direct mode (R54, R440)? -/
def tlDirect (s : State) (n : Nat) : Bool := isSet s (Reg.TL_CTL n) F.TL_CTL_DIRECT && feature s (tlOwner s n) 5

/-- Do prepare points and boundaries of a timeline run? -/
def tlRuns (s : State) (n : Nat) : Bool := isSet s Reg.TLN_CTL F.TLN_CTL_EN && isSet s (Reg.TL_CTL n) F.TL_CTL_EN

/-- TL_NEXT, TL_PERIOD, the slot number of the next boundary. -/
def tlNext (s : State) (n : Nat) : Nat := rd64 s (Reg.TL_NEXT_LO n)
def tlPeriod (s : State) (n : Nat) : Nat := fld s (Reg.TL_PERIOD n) F.TL_PERIOD_VALUE
def tlSlot (s : State) (n : Nat) : Nat := (rd s (Reg.TL_SLOTNUM n)).toNat

/-- Entries of a timeline's ring. -/
def ringSize (s : State) (n : Nat) : Nat := 2 ^ fld s (Reg.TL_RING_CFG n) F.TL_RING_CFG_LOG2SIZE

/-- Base of a timeline's ring. -/
def ringBase (s : State) (n : Nat) : Nat := rd64 s (Reg.TL_RING_LO n)

/-- TL_HEAD, TL_TAIL. -/
def tlHead (s : State) (n : Nat) : Nat := fld s (Reg.TL_HEAD n) F.TL_HEAD_INDEX
def tlTail (s : State) (n : Nat) : Nat := fld s (Reg.TL_TAIL n) F.TL_TAIL_INDEX

/-- Periods in the past are skipped (R52, R566). -/
def tlSkip (s : State) (n : Nat) : State :=
  let (now, s) := copyNow s 20
  let x := tlNext s n
  if !reached now x then s
  else
    let k := (now + 2 ^ 48 - x) % 2 ^ 48 / tlPeriod s n + 1
    let s := wr64 s (Reg.TL_NEXT_LO n) ((x + k * tlPeriod s n) % 2 ^ 48)
    updTl (wr s (Reg.TL_SLOTNUM n) (rd s (Reg.TL_SLOTNUM n) + BitVec.ofNat 32 k)) n fun t => { t with prepared := false }

/-- TL_CTL.EN goes to 1 (R52). -/
def tlEnable (s : State) (n : Nat) : State :=
  tlSkip (updTl (wr64 s (Reg.TL_NEXT_LO n) (rd64 s (Reg.TL_START_LO n))) n fun t => { t with prepared := false }) n

/-- TLN_CTL.EN goes to 1 (R566). -/
def tlnEnable (s : State) : State :=
  (upto 64).foldl (fun s n => if isSet s (Reg.TL_CTL n) F.TL_CTL_EN then tlSkip s n else s) s

/-! ## The status block (R89) -/

/-- The header of a status block: PSTATUS and the counts. -/
def statHead (slot pstatus now : Nat) (p : Option Pal) : List Byte :=
  let c := match p with
    | some p => (p.done + p.missed * 2 ^ 16, p.stolen + p.recoated * 2 ^ 16, p.ingressInc % 2 ^ 16 + p.commitErr % 2 ^ 16 * 2 ^ 16)
    | none => (0, 0, 0)
  leBytes 4 slot ++ leBytes 4 pstatus ++ leBytes 4 c.1 ++ leBytes 4 c.2.1 ++ leBytes 4 c.2.2 ++ leBytes 6 now ++
    List.replicate 38 0

/-- Where the status block of a slot stands. -/
def statAddr (stat slot : Nat) : Nat := stat + slot % 4 * 0x1040

/-- What a RESULT of a slot that ran comes to (R432): a status with its fields, or the copy. -/
def judgeResult (s : State) (p : Pal) (a : Armed) : Sum (Nat × List Nat) (Nat × Nat) :=
  let writer := (s.tln.tasks.filter fun e => decide (e.1 / 8192 = p.key) && e.2.tr.outs.contains (some a.buf)).head?
  let b := bufEnt s p a.buf
  match writer with
  | none => .inl (stBADPARAM, [])
  | some (_, t) =>
    if p.hdr.bufs ≤ a.buf ∨ b.kind ≠ kHOST then .inl (stBADPARAM, [])
    else if t.phase = .missed then .inl (stMISSED, [0, t.reason])
    else .inr (b.addrFor p.slot, min b.size a.maxlen)

/-- The RESULTs armed for a slot learn its outcome (R432). -/
def reportResults (s : State) (t slot pstatus : Nat) (p : Option Pal) : State :=
  (s.hif.armed.filter fun a => decide (a.tl = t ∧ a.slot = slot ∧ a.copy = none)).foldl (fun s a =>
    let drop (s : State) := { s with hif := { s.hif with armed := s.hif.armed.filter fun x => decide (x.seq ≠ a.seq) } }
    match p with
    | none => completeCmd (drop s) a.seq stSLOTFAIL []
    | some p =>
      if pstatus ≠ 0 then completeCmd (drop s) a.seq stSLOTFAIL []
      else match judgeResult s p a with
        | .inl (st, fs) => completeCmd (drop s) a.seq st fs
        | .inr c => { s with hif := { s.hif with
            armed := s.hif.armed.map fun x => if x.seq = a.seq then { x with copy := some c } else x } }) s

/-- Posts the SLOT_DONE of a slot (R434), and what follows from it. -/
def postSlotDone (s : State) (t slot pstatus : Nat) (err : Bool) (p : Option Pal) : State :=
  let c := match p with
    | some p => [p.done + p.missed * 2 ^ 16, p.stolen + p.recoated * 2 ^ 16, p.ingressInc % 2 ^ 16 + p.commitErr % 2 ^ 16 * 2 ^ 16]
    | none => [0, 0, 0]
  let s := postEvent s t 1 ([t + err.toNat * 2 ^ 6 + pstatus * 2 ^ 8, slot] ++ c)
  let s := { s with hif := { s.hif with reported := if s.hif.reported.contains (t, slot) then s.hif.reported else (t, slot) :: s.hif.reported } }
  let s := match p with
    | some p => if p.missed ≠ 0 ∧ isSet s Reg.SEP_CTL F.SEP_CTL_MISS_ALL = false
      then sep s 0x05 0 (min 255 p.missed) (t + slot % 2 ^ 26 * 2 ^ 6) else s
    | none => s
  reportResults s t slot pstatus p

/-- A slot that runs nothing is reported (R57, R89): 1 LATE, 2 INVALID, 3 OVERRUN. -/
def refuseSlot (s : State) (t : Nat) (slot stat pstatus : Nat) : State :=
  let (now, s) := copyNow s 20
  let (c, s) := fabWrites 2 s (tlnIssuer (tlOwner s t)) (statAddr stat slot) (statHead slot pstatus now none)
  postSlotDone s t slot pstatus (decide (c ≠ OKAY)) none

/-! ## Prepare points (R56) -/

/-- A ring entry from its bytes (R55). -/
def decodeRing (b : List Byte) (rep : Bool) : RingEntry :=
  let w := leAt b 0x1C 4
  { pal := leAt b 0 6, param := leAt b 8 6, stat := leAt b 0x10 6, slot := leAt b 0x18 4, valid := bitAt w 0,
    rep := bitAt w 1 && rep,
    rsv := decide (leAt b 6 2 ≠ 0 ∨ leAt b 14 2 ≠ 0 ∨ leAt b 22 2 ≠ 0 ∨ w / 4 ≠ 0) }

/-- Reads the ring entry at the head; a read answered with an error gives open bytes. (DEDUCED, unsafe: log 131) -/
def readEntry (s : State) (n : Nat) : RingEntry × State :=
  let f := tlOwner s n
  match fabRead s (tlnIssuer f) (ringBase s n + tlHead s n * 32) 32 with
  | (c, b, s) =>
    let (x, s) := free 256 s
    (decodeRing (if c = OKAY then b else leBytes 32 x) (feature s f 4), s)

/-- The entry at the head is consumed. -/
def consume (s : State) (n : Nat) : State :=
  setFld s (Reg.TL_HEAD n) F.TL_HEAD_INDEX ((tlHead s n + 1) % ringSize s n)

/-- A slot activates nothing. -/
def emptySlot (s : State) (n : Nat) : State := evt (inc s (Reg.TL_EMPTY_CNT n)) (Reg.TL_EVT n) F.TL_EVT_EMPTY

/-- A repeat entry is used, or the slot is empty. -/
def useHeld (s : State) (n : Nat) : Option RingEntry × State :=
  match (tl s n).held with
  | some e => (some e, s)
  | none => (none, emptySlot s n)

/-- The walk of the ring for slot number `slot` (R56). `fuel` bounds the entries. -/
def walkRing : Nat → State → Nat → Nat → Option RingEntry × State
  | 0, s, n, _ => useHeld s n
  | k + 1, s, n, slot =>
    if tlHead s n = tlTail s n then useHeld s n
    else
      let (e, s) := readEntry s n
      if !e.valid then (none, emptySlot (consume s n) n)
      else
        let d := sgn 32 (e.slot + 2 ^ 32 - slot)
        if 0 < d then useHeld s n
        else if d < 0 then
          let s := evt (inc (consume s n) (Reg.TL_LATE_CNT n)) (Reg.TL_EVT n) F.TL_EVT_LATE
          walkRing k (refuseSlot s n e.slot e.stat 1) n slot
        else (some e, updTl (consume s n) n fun t => { t with held := if e.rep then some e else none })

/-! ## Binding (R57) -/

/-- A slot is given INVALID. -/
def invalidSlot (s : State) (n : Nat) (e : RingEntry) (slot : Nat) : State :=
  refuseSlot (evt (inc s (Reg.TL_INVAL_CNT n)) (Reg.TL_EVT n) F.TL_EVT_INVALID) n slot e.stat 2

/-- A slot is given OVERRUN. -/
def overrunSlot (s : State) (n : Nat) (e : RingEntry) (slot : Nat) (full : Bool) : State :=
  let s := evt (inc s (Reg.TL_OVR_CNT n)) (Reg.TL_EVT n) F.TL_EVT_OVERRUN
  refuseSlot (if full then evt s Reg.TLN_EVT F.TLN_EVT_ACTIVE_FULL else s) n slot e.stat 3

/-- Is a palette active: its slot start has come and a task is unresolved? -/
def Pal.live (p : Pal) : Bool := p.active && p.resolved.isNone

/-- Offset of a buffer's presence map (R64). -/
def presOff (b : BufEnt) : Nat := b.size - (b.expect + 63) / 64 * 64

/-- A stream takes a binding; the one it replaces closes its buffer (R370). -/
def bindStream (s : State) (st : Nat) (d : RxBind) : State :=
  let old := rxBinds s st
  let same := old.filter fun x => decide (x.slot % 2 ^ 16 = d.slot % 2 ^ 16)
  let rest := old.filter fun x => decide (x.slot % 2 ^ 16 ≠ d.slot % 2 ^ 16)
  let oldest := rest.foldl (fun (o : Option RxBind) x =>
    match o with
    | some y => if sgn 32 (x.slot + 2 ^ 32 - y.slot) < 0 then some x else o
    | none => some x) none
  let drop := if rest.length < 4 then none else oldest
  let s := (same ++ drop.toList).foldl (fun s x => closeBuf s x.pal x.buf) s
  setRxBinds s st ((rest.filter fun x => decide (some x ≠ drop)) ++ [d])

/-- An INGRESS buffer is bound to its streams; not into a scope that is being fenced (R313). -/
def bindRx (s : State) (p : Pal) (i : Nat) (b : BufEnt) : State :=
  let a := b.addrFor p.slot
  let s := updBuf s (bufKey p.key i) fun _ =>
    { close := (p.start + b.time) % 2 ^ 48, expect := b.expect, ingress := true }
  let off := presOff b
  let s := (fabPosts 300 s (tlnIssuer (tlOwner s p.tl)) (a + off) (List.replicate (b.size - off) 0)).2
  if (scopesAt a).any (fenced s) then s
  else
    let cx := decide (3968 ≤ b.stream)
    let head := if cx then BitVec.ofNat 32 b.streams else rd s (Reg.RXS_LAYOUT (b.stream / 256) (b.stream % 256))
    (upto b.streams).foldl (fun s j =>
      let st := b.stream + j
      let (g, k) := (st / 256, st % 256)
      bindStream s st
        { pal := p.key, buf := i, slot := p.slot, first := b.stream, addr := a, expect := b.expect, pres := off,
          cfg := if cx then 1 else rd s (Reg.RXS_CFG g k), layout := if cx then head else rd s (Reg.RXS_LAYOUT g k),
          tdoff := if cx then 0 else rd s (Reg.RXS_TDOFF g k), headLayout := head, closed := false, count := 0,
          start := p.start, period := p.period }) s

/-- An EGRESS buffer is bound to its streams. -/
def bindTx (s : State) (p : Pal) (i : Nat) (b : BufEnt) : State :=
  let (g, k) := (b.stream / 256, b.stream % 256)
  let d : TxBind :=
    { pal := p.key, tl := p.tl, buf := i, slot := p.slot, t := wrapN 48 ((p.start : Int) + b.time - p.adv), first := b.stream,
      n := b.streams, addr := b.addrFor p.slot, layout := rd s (Reg.TXS_LAYOUT g k),
      cfgs := (upto b.streams).map fun j => rd s (Reg.TXS_CFG ((b.stream + j) / 256) ((b.stream + j) % 256)), committed := false }
  { s with lnk := { s.lnk with tx := s.lnk.tx ++ [d] } }

/-- Does a buffer pass the partition check of R57? -/
def bindOk (s : State) (f : Nat) (p : Pal) (b : BufEnt) : Bool :=
  if b.kind = kINGRESS ∨ b.kind = kEGRESS then
    rangeIn s f (b.addrFor p.slot) b.size && streamsOk s f b
  else true

/-- A JOIN is held by the timeline unit from the prepare point on (R71); one that fails its record checks is missed. -/
def takeJoin (s : State) (p : Pal) (i : Nat) : State :=
  let b := recBytes s p i
  let r := decodeRec b
  if r.cls ≠ 4 then s
  else
    let s := updTask s (taskKey p.key i) fun _ => { tr := r, phase := .join }
    match recFault s p i b with
    | none => s
    | some _ => resolve s (taskKey p.key i) 11

/-- The chosen entry is checked and its palette bound. -/
def bindPalette (s : State) (n : Nat) : State :=
  match (tl s n).chosen with
  | none => s
  | some (e, slot, start) =>
    let s := updTl s n fun t => { t with chosen := none }
    let f := tlOwner s n
    let h := readHdr s e.pal
    let known := s.hif.valid.any fun v => decide (v.addr = e.pal ∧ v.func = f)
    if e.rsv || !known || decide (4 * tlPeriod s n < h.horizon) then invalidSlot s n e slot
    else if 4 ≤ (s.tln.pals.filter fun p => decide (p.tl = n) && p.live).length then
      overrunSlot s n e slot (decide (256 ≤ (s.tln.pals.filter Pal.live).length))
    else if 256 ≤ (s.tln.pals.filter Pal.live).length then overrunSlot s n e slot true
    else
      let p : Pal := { key := s.tln.nextKey, tl := n, slot := slot, start := start, addr := e.pal, param := e.param, stat := e.stat,
                       adv := (tl s n).adv, period := tlPeriod s n, hdr := h }
      let bs := (upto h.bufs).map fun i => (i, bufEnt s p i)
      if !bs.all (fun x => bindOk s f p x.2) then invalidSlot s n e slot
      else
        let s := { s with tln := { s.tln with nextKey := s.tln.nextKey + 1, pals := s.tln.pals ++ [p] } }
        let s := bs.foldl (fun s x =>
          if x.2.kind = kINGRESS then bindRx s p x.1 x.2 else if x.2.kind = kEGRESS then bindTx s p x.1 x.2 else s) s
        (upto h.tasks).foldl (fun s i => takeJoin s p i) s

/-- The prepare point of the pending boundary (R56). An entry chosen before and not yet bound is bound first.
(DEDUCED, unsafe: log 139) -/
def prepare (s : State) (n : Nat) : State :=
  let s := bindPalette s n
  let slot := tlSlot s n
  let start := tlNext s n
  let s := updTl s n fun t => { t with prepared := true, adv := fld s (Reg.TL_ADV n) F.TL_ADV_VALUE }
  let (o, s) := walkRing 4096 s n slot
  updTl s n fun t => { t with chosen := o.map fun e => (e, slot, start) }

/-- Is the prepare point of a timeline due? -/
def prepareDue (s : State) (n : Nat) : Bool :=
  tlRuns s n && !(tl s n).prepared &&
    reached (copyMax s 20 % 2 ^ 48) (tlNext s n + 2 ^ 48 - fld s (Reg.TL_PREP n) F.TL_PREP_VALUE)

/-! ## Boundaries (R49, R50, R53) -/

/-- A palette whose slot start has come becomes active. -/
def activate (s : State) (n : Nat) : State :=
  { s with tln := { s.tln with pals := s.tln.pals.map fun p =>
    if p.tl = n ∧ p.active = false ∧ reached (copyMax s 20 % 2 ^ 48) p.start = true then { p with active := true } else p } }

/-- TL_NEXT and TL_SLOTNUM advance (R50). -/
def advance (s : State) (n : Nat) : State :=
  let adj := sgn 8 (fld s (Reg.TL_ADJ n) F.TL_ADJ_ADJ)
  let s := wr64 s (Reg.TL_NEXT_LO n) (wrapN 48 ((tlNext s n : Int) + tlPeriod s n + adj))
  let s := inc s (Reg.TL_SLOTNUM n)
  let s := if adj = 0 then s else evt (setFld s (Reg.TL_ADJ n) F.TL_ADJ_ADJ 0) (Reg.TL_EVT n) F.TL_EVT_ADJ_DONE
  updTl s n fun t => { t with prepared := false }

/-- Is the boundary of a timeline due? (DESIGN CHOICE, safe: log 2) -/
def boundaryDue (s : State) (n : Nat) : Bool := tlRuns s n && reached (copyMax s 20 % 2 ^ 48) (tlNext s n)

/-- A boundary: the prepare point and the binding have run before it. A palette chosen before its timeline stopped becomes
active at its slot start as well (R53). -/
def boundary (s : State) (n : Nat) : State :=
  if boundaryDue s n then
    let s := if (tl s n).prepared then s else prepare s n
    let s := bindPalette s n
    let start := tlNext s n
    cxuBoundary (advance (activate s n) n) n start
  else
    match (tl s n).chosen with
    | some (_, _, start) => if reached (copyMax s 20 % 2 ^ 48) start then activate (bindPalette s n) n else s
    | none => activate s n

/-! ## Delivery (R68 to R70) -/

/-- The tiles of a mask from HOME onwards. -/
def maskTiles (r : TaskRec) : List Nat :=
  ((upto 128).map fun i => (r.home + i) % 128).filter fun t => bitAt r.mask t

/-- Has a tile's queue room for a task? -/
def hasRoom (s : State) (t prio : Nat) : Bool := decide (queueDepth s t prio < 512)

/-- Where a record goes: a tile, nowhere because every one is full, or nowhere because none is ACT or IDLE. -/
inductive Place where
  | tile (t : Nat) | full | parked

/-- The choice of R68 and R69. -/
def chooseTile (s : State) (p : Pal) (r : TaskRec) : Place :=
  let up := (maskTiles r).filter (tileUp s)
  let room := up.filter fun t => hasRoom s t r.prio
  match room.find? fun t => !atRisk s p t with
  | some t => .tile t
  | none => match room with
    | t :: _ => .tile t
    | [] => if up.isEmpty then .parked else .full

/-- A task goes to a tile's queue, waits, or is parked. -/
def deliver (s : State) (p : Pal) (k : Nat) (r : TaskRec) : State :=
  match chooseTile s p r with
  | .tile t =>
    let (now, s) := copyNow (wakeIdle s (t / 8)) (t / 8)
    let s := updTask s k fun x => { x with tr := r, phase := .queued, tile := t, enq := now }
    inc { s with tln := { s.tln with handed := s.tln.handed.filter fun h => decide (h ≠ k) } } Reg.TLN_DELIV_CNT
  | .full => updPal (evt s (Reg.TSU_EVT r.home) F.TSU_EVT_QFULL) p.key fun p => { p with held := true }
  | .parked =>
    let s := updTask s k fun x => { x with tr := r, phase := .parked }
    evt { s with tln := { s.tln with handed := s.tln.handed.filter fun h => decide (h ≠ k) } } Reg.TLN_EVT F.TLN_EVT_PARKED

/-- The next record of a palette is checked and delivered; a JOIN and a task that has resolved are passed over. -/
def deliverNext (s : State) (p : Pal) : State :=
  let i := p.next
  let k := taskKey p.key i
  let step (s : State) := updPal s p.key fun p => { p with next := i + 1 }
  if (task s k).phase ≠ .pending then step s
  else
    let b := recBytes s p i
    let r := decodeRec b
    match recFault s p i b with
    | some _ => resolve (updTask (step s) k fun x => { x with tr := { r with onMiss := if r.onMiss = 3 then 0 else r.onMiss }, phase := .handed }) k 11
    | none =>
      if cascades s p.key r then resolve (step s) k 2
      else
        let s := deliver s p k r
        if (task s k).phase = .pending then s else step s

/-- A record is delivered: tasks that come again first, then the palettes in the order of their prepare points. -/
def recordDelivery (s : State) : State :=
  let open_ (k : Nat) : Bool := match palOf s k with
    | some p => !p.held
    | none => false
  match s.tln.handed.find? open_ with
  | some k => match palOf s k with
    | some p => deliver s p k (task s k).tr
    | none => s
  | none =>
    match s.tln.pals.find? fun p => !p.held && decide (p.next < p.hdr.tasks) with
    | some p => deliverNext s p
    | none => s

/-- Does space for a record of a held palette exist (R69)? -/
def qfullRelease (s : State) (p : Pal) : State :=
  let ks := s.tln.handed.filter (fun k => decide (k / 8192 = p.key))
  let r := match ks with
    | k :: _ => (task s k).tr
    | [] => decodeRec (recBytes s p p.next)
  match chooseTile s p r with
  | .full => s
  | _ => updPal s p.key fun p => { p with held := false }

/-- A queued or running task comes to the timeline unit again (R70, R496), or is parked. -/
def passOn (s : State) (k : Nat) : State :=
  let t := task s k
  if (maskTiles t.tr).any (tileUp s) then
    let s := updTask s k fun x => { x with phase := .handed }
    { s with tln := { s.tln with handed := s.tln.handed ++ [k] } }
  else evt (updTask s k fun x => { x with phase := .parked }) Reg.TLN_EVT F.TLN_EVT_PARKED

/-- A sector's queued tasks are passed on (R70). -/
def passSector (s : State) (n : Nat) : State :=
  (s.tln.tasks.filter fun e => decide (e.2.phase = .queued ∧ e.2.tile / 8 = n)).foldl (fun s e => passOn s e.1) s

/-- A parked task is delivered once a tile of its mask is back. -/
def parkedDelivery (s : State) (k : Nat) : State :=
  match palOf s k with
  | none => s
  | some p =>
    let t := task s k
    if t.phase ≠ .parked ∨ !(maskTiles t.tr).any (tileUp s) then s
    else deliver (updTask s k fun x => { x with phase := .handed }) p k t.tr

/-- A task's START has been reached (R71): on its sector's copy, or on the timeline unit's. -/
def startTime (s : State) (k : Nat) : State :=
  match palOf s k with
  | none => s
  | some p =>
    let t := task s k
    let dom := if t.phase = .queued then t.tile / 8 else 20
    match t.phase with
    | .pending => s
    | .done => s
    | .missed => s
    | _ => if t.started || !reached (copyMax s dom % 2 ^ 48) (absStart p t.tr) then s
      else afterAll (updTask s k fun t => { t with started := true }) (k / 8192)

/-! ## The end of a palette (R89) -/

/-- What is kept of a palette once nothing of it can happen any more. -/
def dropPal (s : State) (pk : Nat) : State :=
  if s.tln.bufs.any fun e => decide (e.1 / 16384 = pk) && e.2.ingress && !e.2.closed then s
  else { s with tln := { s.tln with
    pals := s.tln.pals.filter fun p => decide (p.key ≠ pk)
    bufs := s.tln.bufs.filter fun e => decide (e.1 / 16384 ≠ pk) } }

/-- An INGRESS buffer reaches its CLOSE. -/
def ingressClose (s : State) (p : Pal) (i : Nat) : State :=
  let b := buf s (bufKey p.key i)
  if b.ingress && reached (copyMax s 23 % 2 ^ 48) b.close then
    let s := closeBuf s p.key i
    if p.told then dropPal s p.key else s
  else s

/-- Miss reasons of a palette, four bits a task. (DEDUCED, unsafe: log 138) -/
def reasonBytes (s : State) (p : Pal) : List Byte :=
  (upto ((p.hdr.tasks + 1) / 2)).map fun j =>
    BitVec.ofNat 8 ((task s (taskKey p.key (2 * j))).reason + (task s (taskKey p.key (2 * j + 1))).reason * 16)

/-- The last task of a palette has resolved: status block, SLOT_DONE. (DEDUCED, unsafe: log 138) -/
def slotDone (s : State) (p : Pal) : State :=
  match p.resolved with
  | none => s
  | some now =>
    if p.told then s
    else
      let bytes := statHead p.slot 0 now (some p) ++ reasonBytes s p
      let (c, s) := fabWrites 40 s (tlnIssuer (tlOwner s p.tl)) (statAddr p.stat p.slot) bytes
      let s := postSlotDone s p.tl p.slot 0 (decide (c ≠ OKAY)) (some p)
      let s := updPal s p.key fun p => { p with told := true }
      dropPal { s with tln := { s.tln with tasks := s.tln.tasks.filter fun e => decide (e.1 / 8192 ≠ p.key) } } p.key

/-! ## Release (R67) -/

/-- LOAD_PALETTE completes OK with a handle. -/
def loadOk (s : State) (n handle : Nat) : State := completeCmd s n stOK [0, 0, handle]

/-- Does the ring entry at a place of a ring refer to a palette? -/
def entryRefers (s : State) (n a i : Nat) : Bool :=
  let b := loadN s (ringBase s n + i * 32) 32
  bitAt (leAt b 0x1C 4) 0 && decide (leAt b 0 6 = a)

/-- Does an active palette, one bound for its slot, or an unconsumed ring entry refer to a validated palette? -/
def referred (s : State) (v : Validated) : Bool :=
  (s.tln.pals.any fun p => decide (p.addr = v.addr ∧ p.hdr.func = v.func) && p.resolved.isNone) ||
    (upto 64).any fun n => decide (tlOwner s n = v.func) &&
      (upto ((tlTail s n + ringSize s n - tlHead s n) % ringSize s n)).any fun i => entryRefers s n v.addr ((tlHead s n + i) % ringSize s n)

/-- Releases without a reference take effect, and their commands complete. (DEDUCED, unsafe: log 60) -/
def releaseSettle (s : State) : State :=
  (s.hif.valid.filter fun v => v.releasing && !referred s v).foldl (fun s v =>
    let s := { s with hif := { s.hif with valid := s.hif.valid.filter fun x => decide (x.handle ≠ v.handle) } }
    (s.hif.cmds.filter fun c => decide (c.f = v.func ∧ c.cmd = .load true v.addr) && c.started).foldl (fun s c => loadOk s c.seq v.handle) s) s

end Sys2Proof.Machine
end

