-- ==== Sys2Proof/Machine/Tsu.lean ====
section
/-! DEFINITION. Tile supervisors (R61, R71 to R88, R342 to R345): dispatch, program images, completion and commit, deadlines,
stealing, DMA-class tasks. -/

namespace Sys2Proof.Machine

/-! ## Engines of a tile (R61) -/

/-- Is an engine in service and READY? -/
def engReady (s : State) (e : Nat) : Bool :=
  decide (engSt s e = 2) && decide ((fence s (uEng e)).st = 0)

/-- Is an engine set in TILE_SPARE, in TILE_CP3_GRANT? -/
def isSpare (s : State) (e : Nat) : Bool := bitAt (rd s (Reg.TILE_SPARE (e / 8))).toNat (e % 8)
def isGranted (s : State) (e : Nat) : Bool := bitAt (rd s (Reg.TILE_CP3_GRANT (e / 8))).toNat (e % 8)

/-- May an engine run tasks of a class? -/
def runsClass (s : State) (e cls : Nat) : Bool :=
  match cls with
  | 0 => !isSpare s e
  | 1 => isGranted s e && !isSpare s e
  | 2 => isSpare s e
  | _ => false

/-- The engines of a tile. -/
def tileEngs (t : Nat) : List Nat := (upto 8).map (t * 8 + ·)

/-! ## The order of dispatch (R72) -/

/-- Does task `a` come strictly before task `b`: lower PRIO, earlier absolute effective deadline, lower slot number, lower
TASK_ID? -/
def taskBefore (s : State) (a b : Nat) : Bool :=
  match palOf s a, palOf s b with
  | some p, some q =>
    let (r, t) := ((task s a).tr, (task s b).tr)
    if r.prio ≠ t.prio then decide (r.prio < t.prio)
    else
      let d := dist (absDeadline s p r) (absDeadline s q t)
      if d ≠ 0 then decide (d < 0)
      else if p.slot ≠ q.slot then decide (p.slot < q.slot)
      else decide (r.id < t.id)
  | _, _ => false

/-- The first of some tasks; the choice among those with equal keys is free. (DESIGN CHOICE, safe: log 133) -/
def firstTask (s : State) (ks : List Nat) : Option Nat × State :=
  let best := ks.filter fun a => !ks.any fun b => taskBefore s b a
  match best with
  | [] => (none, s)
  | [k] => (some k, s)
  | _ => let (i, s) := freeBelow best.length s; (best[i]?, s)

/-! ## Binding to buffers (R25, R63, R73, R85) -/

/-- The predecessors of a task that were missed. -/
def missedPreds (s : State) (pk : Nat) (r : TaskRec) : List Nat :=
  r.preds.filterMap fun o => o.bind fun i => if missedTask s (taskKey pk i) then some (taskKey pk i) else none

/-- The buffer an input resolves to: a substitute when a predecessor with SUBST was missed (R85). -/
def inputBuf (s : State) (p : Pal) (r : TaskRec) (i : Nat) : Nat :=
  let hit := (missedPreds s p.key r).any fun k => decide ((task s k).tr.onMiss = 2) && (task s k).tr.outs.contains (some i)
  match (bufEnt s p i).subst with
  | some x => if hit then x else i
  | none => i

/-- A reference resolves to a device address and a size. PARAM references do not. -/
def resolveRef (s : State) (p : Pal) (i : Nat) : Option (Nat × Nat) :=
  let b := bufEnt s p i
  if b.kind = kPARAM then none else some (b.addrFor p.slot, b.size)

/-- The references of a task: IN0 to IN3, then OUT0 to OUT3. -/
def resolveRefs (s : State) (p : Pal) (r : TaskRec) : List (Option (Nat × Nat)) :=
  (r.ins.map fun o => o.bind fun i => resolveRef s p (inputBuf s p r i)) ++ r.outs.map fun o => o.bind (resolveRef s p)

/-- The missed-input mask (R74, R85). -/
def missedMask (s : State) (p : Pal) (r : TaskRec) : Nat :=
  let ms := missedPreds s p.key r
  let inBad (o : Option Nat) : Bool := match o with
    | some i => ((buf s (bufKey p.key i)).ingress && !bufComplete s p.key i) || ms.any fun k => (task s k).tr.outs.contains (some i)
    | none => false
  let predBad (o : Option Nat) : Bool := match o with
    | some i => missedTask s (taskKey p.key i)
    | none => false
  ((r.ins.map inBad) ++ (r.preds.map predBad)).foldr (fun b n => b.toNat + 2 * n) 0

/-- Does a resolved range pass the partition check of a palette's function (R25)? -/
def refOk (s : State) (f : Nat) (r : Option (Nat × Nat)) : Bool :=
  match r with
  | some (a, n) => n = 0 || rangeIn s f a n
  | none => true

/-- Engine addresses of references on a tile, and the windows they use (R73); none when more than four are needed. -/
def allocate (t : Nat) : List (Option (Nat × Nat)) → List Nat → Option (List Nat × List Nat)
  | [], ws => some ([], ws)
  | none :: rs, ws => (allocate t rs ws).map fun x => (0 :: x.1, x.2)
  | some (a, n) :: rs, ws =>
    if tileBase t ≤ a ∧ a + n ≤ tileBase t + 0x100000 then
      (allocate t rs ws).map fun x => ((0x100000 + (a - tileBase t)) :: x.1, x.2)
    else
      let reg := a / 2 ^ 24
      let ws := if ws.contains reg then ws else ws ++ [reg]
      if 4 < ws.length then none
      else (allocate t rs ws).map fun x => ((0x1000000 * (ws.idxOf reg + 1) + a % 2 ^ 24) :: x.1, x.2)

/-! ## Task entry (R74, R211, R224) -/

/-- `k` free values of `w` bits. -/
def freeList : Nat → Nat → State → List Nat × State
  | 0, _, s => ([], s)
  | k + 1, w, s =>
    let (v, s) := free w s
    let (vs, s) := freeList k w s
    (v :: vs, s)

/-- The special registers that dispatch leaves as they are: the engine's number, its cycle count, its time. -/
def srKept (n : Nat) : Bool := decide (Sr.ECYC_LO ≤ n ∧ n ≤ Sr.ETIME_HI ∧ n ≠ Sr.ECMP)

/-- The registers at task entry: what R74 lists, and open values everywhere else. -/
def entryRegs (s : State) (e : Nat) (g : List Nat) (a : List Nat) (wins : List Nat) : EngS × State :=
  let x := eng s e
  let (sc, s) := freeList 64 32 s
  let (vs, s) := freeList 32 4096 s
  let (ps, s) := freeList 8 512 s
  let (as, s) := freeList 4 2560 s
  let (ss, s) := freeList 80 32 s
  let (cm, s) := freeList 16 512 s
  let (ma, s) := free 1280 s
  let (cs, s) := freeList 11 32 s
  let w (l : List Nat) (i : Nat) : Word := BitVec.ofNat 32 (l.getD i 0)
  let scal := (upto 64).map fun r =>
    if r = 0 then 0 else if r < 7 then w g r else if 32 ≤ r ∧ r < 40 then w a (r - 32) else w sc r
  let srs := (upto 80).map fun n =>
    if srKept n then x.sr.getD n 0
    else if Sr.WIN 0 ≤ n ∧ n ≤ Sr.WIN 3 ∧ n - Sr.WIN 0 < wins.length then
      BitVec.ofNat 32 (wins.getD (n - Sr.WIN 0) 0 % 2 ^ 24 + 2 ^ 24)
    else BitVec.ofNat 32 (ss.getD n 0 &&& srMask n)
  ({ x with
      scal := scal, vec := vs.map (BitVec.ofNat 4096), pred := (ps.map (BitVec.ofNat 512)).set 0 (BitVec.allOnes 512),
      acc := as.map (BitVec.ofNat 2560), accN := as.map (BitVec.ofNat 2560), sr := srs,
      cp0 := { cm := cm.map (BitVec.ofNat 512), ma := BitVec.ofNat 1280 ma, ctl := w cs 0, sigma := w cs 1, stat := w cs 2 },
      cp1 := { cfg := w cs 3, crc := w cs 4, x1 := w cs 5, x2 := w cs 6, stat := w cs 7 },
      cp3 := { cfg := w cs 8, scale := w cs 9 &&& 0xFFFF, ref := x.cp3.ref, stat := w cs 10 &&& 1 },
      cp0N := none, cp1N := none, cp3N := none, fl := [], slotB := none, frozen := none, exc := none, impAcc := none, accov := none,
      badSeq := none, storeErr := false, fault := none, early := true, ended := false, halt := false }, s)

/-- G1 to G6 by number. -/
def entryG (p : Pal) (k : Nat) (t : Task) (deadline : Nat) : List Nat :=
  [0, k % 8192 + p.hdr.func * 2 ^ 16, t.g2, p.slot, t.tr.arg % 2 ^ 32, t.tr.arg / 2 ^ 32, deadline % 2 ^ 32]

/-- A bound task's code begins on an engine whose instruction memory holds its program. -/
def enterTask (s : State) (k e : Nat) : State :=
  match palOf s k with
  | none => s
  | some p =>
    let t := task s k
    let (as, ws) := (allocate (e / 8) t.refs []).getD ([], [])
    let (x, s) := entryRegs s e (entryG p k t (absDeadline s p t.tr)) as ws
    let (now, s) := copyNow s (e / 64)
    let s := setEng s e { x with st := 3, task := some k, run := true, func := p.hdr.func, pc := t.prog.2.2.1, size := t.prog.2.1,
                                 base := x.seq, grant := if t.recoatRun ∧ t.tr.cls = 1 then true else isGranted s e }
    updTask s k fun t => { t with phase := .running, eng := some e, limitFrom := now }

/-! ## Program images (R76) -/

/-- The program cache of a tile: first byte and size within tile memory. -/
def pcacheAt (s : State) (t : Nat) : Nat × Nat :=
  let r := Reg.TSU_PCACHE t
  (fld s r F.TSU_PCACHE_BASE * 4096, fld s r F.TSU_PCACHE_SIZE * 4096)

/-- The images a tile's cache holds inside its region, most recently used first. -/
def pcache (s : State) (t : Nat) : List (Nat × Nat × Nat) :=
  let (b, n) := pcacheAt s t
  (Tab.get (fun _ => []) s.tln.pcache t).filter fun x => decide (b ≤ x.2.1 ∧ x.2.1 + x.2.2 ≤ b + n)

/-- Sets them. -/
def setPcache (s : State) (t : Nat) (l : List (Nat × Nat × Nat)) : State :=
  { s with tln := { s.tln with pcache := Tab.put (fun _ => []) s.tln.pcache t l } }

/-- The offsets at which an image of `n` bytes fits beside those a cache holds, in steps of 64 bytes. -/
def fits (b size n : Nat) (l : List (Nat × Nat × Nat)) : List Nat :=
  ((upto (size / 64)).map fun i => b + i * 64).filter fun o =>
    decide (o + n ≤ b + size) && l.all fun x => decide (o + n ≤ x.2.1 ∨ x.2.1 + x.2.2 ≤ o)

/-- Makes room for an image: the least recently used ones go until it fits; its place among those that fit is free.
(DESIGN CHOICE, safe: log 133) -/
def makeRoom (b size n : Nat) : Nat → List (Nat × Nat × Nat) → State → Option Nat × List (Nat × Nat × Nat) × State
  | 0, l, s => (none, l, s)
  | k + 1, l, s =>
    match fits b size n l with
    | [] => if l.isEmpty then (none, l, s) else makeRoom b size n k l.dropLast s
    | c :: cs => let (i, s) := freeBelow (cs.length + 1) s; (some ((c :: cs).getD i c), l, s)

/-- Copies an image into an engine's instruction memory. -/
def fillIm (s : State) (e img : Nat) (bs : List Byte) : State :=
  updEng (storeN s (emBase e + 0x20000) bs) e fun x => { x with image := some img, size := bs.length }

/-- Loads an image from HBM into the cache and the engine; false when its read fails or its check does not match. -/
def loadHbm (s : State) (e f : Nat) (pr : Nat × Nat × Nat × Nat) : Bool × State :=
  let t := e / 8
  match fabReads 200 s (supIssuer t f) pr.1 pr.2.1 with
  | (c, bs, s) =>
    let s := inc s (Reg.TSU_PCACHE_MISS_CNT t)
    if c ≠ OKAY ∨ crcOf 6 bs ≠ pr.2.2.2 then (false, s)
    else
      let (b, n) := pcacheAt s t
      match makeRoom b n pr.2.1 ((pcache s t).length + 1) (pcache s t) s with
      | (some o, l, s) => (true, fillIm (setPcache (storeN s (tileBase t + o) bs) t ((pr.1, o, pr.2.1) :: l)) e pr.1 bs)
      | (none, l, s) => (true, fillIm (setPcache s t l) e pr.1 bs)

/-- An image is brought into an engine's instruction memory (R76, R489): from the cache, or from HBM. -/
def loadImage (s : State) (e f : Nat) (pr : Nat × Nat × Nat × Nat) : Bool × State :=
  let t := e / 8
  let l := pcache s t
  match l.find? fun x => decide (x.1 = pr.1 ∧ pr.2.1 ≤ x.2.2) with
  | none => loadHbm s e f pr
  | some x =>
    let a := tileBase t + x.2.1
    match firstDamage s a pr.2.1 with
    | some (d, _) => loadHbm (setPcache (tmemError s t d) t (l.filter fun y => decide (y.1 ≠ pr.1))) e f pr
    | none => (true, fillIm (setPcache s t (x :: l.filter fun y => decide (y.1 ≠ pr.1))) e pr.1 (loadN s a pr.2.1))

/-- Does an engine's instruction memory hold the program's image? -/
def imageThere (s : State) (e : Nat) (pr : Nat × Nat × Nat × Nat) : Bool :=
  decide ((eng s e).image = some pr.1) && decide (pr.2.1 ≤ (eng s e).size)

/-- An engine is READY again, with no task. -/
def engFree (s : State) (e : Nat) : State :=
  updEng s e fun x => { x with st := if x.st = 0 then 0 else 2, task := none, run := false, halt := false, ended := false, fault := none, slotB := none,
                               frozen := none, exc := none }

/-! ## Dispatch (R25, R26, R72 to R76) -/

/-- May a tile dispatch: its sector is ACT or IDLE and not being fenced (R33), DISP_EN is 1, the tile is in service? -/
def mayDispatch (s : State) (t : Nat) : Bool :=
  tileUp s t && !s.pwr.clocksStopped && isSet s (Reg.TSU_CTL t) F.TSU_CTL_DISP_EN && decide ((fence s (uDom (t / 8))).st = 0)
    && decide ((fence s (uTile t)).st = 0)

/-- A task is bound to its buffers and handed to an engine, or missed. -/
def bindTask (s : State) (k e : Nat) : State :=
  match palOf s k with
  | none => s
  | some p =>
    let t := e / 8
    let r := (task s k).tr
    let refs := resolveRefs s p r
    let s := inc s (Reg.TSU_DISP_CNT t)
    if !refs.all (refOk s p.hdr.func) then resolve (evt s (Reg.TSU_EVT t) F.TSU_EVT_PARTITION) k 3
    else if (allocate t refs []).isNone then resolve (evt s (Reg.TSU_EVT t) F.TSU_EVT_WINDOW) k 5
    else
      let pr := progEnt s p r.prog
      let s := updTask s k fun x =>
        { x with refs := refs, g2 := missedMask s p r, prog := pr, eng := some e, phase := .loading, reason := 0, requeue := false }
      if imageThere s e pr then enterTask s k e
      else updEng s e fun x => { x with st := 3, task := some k, run := false, image := none }

/-- A supervisor dispatches on an engine. -/
def taskDispatch (s : State) (t i : Nat) : State :=
  let e := t * 8 + i
  if !mayDispatch s t || !engReady s e then s
  else
    let ks := (tileQueue s t).filter fun k => taskReady s k && runsClass s e (task s k).tr.cls
    match firstTask s ks with
    | (some k, s) => bindTask s k e
    | (none, s) => s

/-- A task's program is bad (R76). -/
def progBad (s : State) (k e : Nat) : State :=
  resolve (engFree (evt s (Reg.TSU_EVT (e / 8)) F.TSU_EVT_PROG_BAD) e) k 4

/-- The load of an engine's program ends: of a task that was dispatched, or of a recoat's target. -/
def programLoadDone (s : State) (e : Nat) : State :=
  let x := eng s e
  match x.task with
  | none => s
  | some k =>
    let t := task s k
    let f := match palOf s k with
      | some p => p.hdr.func
      | none => 0
    if t.phase = .loading then
      match loadImage s e f t.prog with
      | (true, s) => enterTask s k e
      | (false, s) => progBad s k e
    else if t.phase = .recoat ∧ t.target = some e ∧ t.loaded = false ∧ x.run = false then
      match loadImage s e f t.prog with
      | (true, s) => updTask s k fun t => { t with loaded := true }
      | (false, s) => progBad s k e
    else s

/-! ## Completion and commit (R77, R83, R87, R254) -/

/-- Commits the outputs of a task: EGRESS and HOST buffers; HARQ header writes are issued. -/
def commitOuts (s : State) (k : Nat) (p : Pal) : State :=
  (task s k).tr.outs.foldl (fun s o =>
    match o with
    | none => s
    | some i =>
      let b := bufEnt s p i
      if b.kind = kEGRESS then
        let s := updBuf s (bufKey p.key i) fun x => { x with committed := true }
        { s with lnk := { s.lnk with tx := s.lnk.tx.map fun d => if d.pal = p.key ∧ d.buf = i then { d with committed := true } else d } }
      else if b.kind = kHOST then updBuf s (bufKey p.key i) fun x => { x with committed := true }
      else if b.kind = kHARQ then
        let cb := loadLE s (b.base + 4) 4 % 2
        updTask s k fun t => { t with commits := t.commits ++
          [(b.base + 4, leBytes 4 (1 - cb) ++ leBytes 4 p.slot ++ leBytes 4 (k % 8192))] }
      else s) s

/-- A LIMIT fault is charged to the first engine once the recoat run has completed within its limit (R495). -/
def chargeLimit (s : State) (k : Nat) : State :=
  match (task s k).charge with
  | none => s
  | some e =>
    let s := updTask s k fun t => { t with charge := none }
    match countOnly s (uEng e) 2 0 0 with
    | (true, s) => judgeFault s (uEng e) true
    | (false, s) => s

/-- A task has completed: it is judged, and committed when it is on time. -/
def judgeTask (s : State) (k : Nat) (stamp : Nat) : State :=
  match palOf s k with
  | none => s
  | some p =>
    if 0 < dist stamp (absDeadline s p (task s k).tr) then resolve s k 1
    else
      let s := commitOuts s k p
      if (task s k).commits.isEmpty then resolve s k 0 else updTask s k fun t => { t with phase := .committing, eng := none }

/-- An engine's task has executed TEND, its writes are answered and its jobs are finished. -/
def taskCompletion (s : State) (e : Nat) : State :=
  let x := eng s e
  match x.task with
  | none => s
  | some k =>
    if (task s k).phase ≠ .running ∨ !x.run ∨ !x.ended ∨ x.slotB.isSome ∨ x.fault.isSome ∨ x.exc.isSome ∨
        x.stores.any (fun w => decide (x.base ≤ w.seq)) ∨ jobsLeft s e ∨ discards s (uEng e) then s
    else
      let (stamp, s) := copyNow s (e / 64)
      let s := engFree (setEng s e x.drain) e
      if x.storeErr then resolve s k 10 else judgeTask (chargeLimit s k) k stamp

/-- The response to a HARQ commit header write arrives. -/
def harqCommitResponse (s : State) (k : Nat) (lost performed : Bool) : State :=
  let t := task s k
  match t.phase, t.commits, palOf s k with
  | .committing, (a, bs) :: rest, some p =>
    let iss := supIssuer t.tile p.hdr.func
    let (c, s) := if lost && !performed then (TIMEOUT, nocFail s iss a TIMEOUT)
      else match fabWrite s iss a bs with
        | (c, s) => if lost then (TIMEOUT, nocFail s iss a TIMEOUT) else (c, s)
    let s := updTask s k fun t => { t with commits := rest }
    let s := if c = OKAY then s
      else updPal (evt s (Reg.TSU_EVT t.tile) F.TSU_EVT_COMMIT_ERR) p.key fun p => { p with commitErr := p.commitErr + 1 }
    if rest.isEmpty then resolve s k 0 else s
  | _, _, _ => s

/-! ## Stopping (R79, R83, R127) -/

/-- Asks an engine to halt. -/
def haltEngine (s : State) (e : Nat) : State := updEng s e fun x => { x with halt := true, st := if x.st = 3 then 4 else x.st }

/-- A running task is stopped: it will be missed with a reason once its engine has halted or its channels have drained. -/
def stopTask (s : State) (k reason : Nat) : State :=
  let s := updTask s k fun t => { t with phase := .stopping, reason := reason }
  match (task s k).eng with
  | some e => cancelJobs (haltEngine s e) e
  | none => (task s k).pairs.foldl (fun s x =>
      match x.chan with
      | some c => if x.done then s else chStopCmd s c
      | none => s) s

/-- A DMA-class task that is being stopped resolves once none of its channels runs (R345). -/
def dmaSettle (s : State) (k : Nat) : State :=
  let t := task s k
  if t.phase ≠ .stopping ∨ t.eng.isSome then s
  else if t.pairs.any fun x => !x.done && (match x.chan with | some c => chBusy s c | none => false) then s
  else resolve s k t.reason

/-- A task's absolute deadline is reached (R83, R345, and the table of task states). -/
def taskDeadline (s : State) (k : Nat) : State :=
  match palOf s k with
  | none => s
  | some p =>
    let t := task s k
    let dom := if t.phase.onTile then t.tile / 8 else 20
    if k % 8192 < p.hdr.tasks ∧ reached (copyMax s dom % 2 ^ 48) (absDeadline s p (taskRec s p k)) then
      match t.phase with
      | .parked => resolve s k 6
      | .pending => resolve s k 1
      | .handed => resolve s k 1
      | .queued => resolve s k 1
      | .join => resolve s k 1
      | .recoat =>
        let s := match t.target with
          | some e => if (eng s e).task = some k then engFree s e else s
          | none => s
        resolve s k 1
      | .loading => dlStop s k
      | .running => dlStop s k
      | _ => s
    else s
where
  /-- The engine or the channels are stopped. -/
  dlStop (s : State) (k : Nat) : State :=
    let s := if (task s k).eng.isSome then evt s (Reg.TSU_EVT (task s k).tile) F.TSU_EVT_DL_STOP else s
    dmaSettle (stopTask s k 1) k

/-- A task returns to its queue as ready (R79, R512); when its sector is going to sleep it is passed on (R70). -/
def requeueTask (s : State) (k : Nat) : State :=
  let (now, s) := copyNow s ((task s k).tile / 8)
  let s := updTask s k fun t => { t with phase := .queued, eng := none, requeue := false, reason := 0, enq := now }
  if domLive s ((task s k).tile / 8) then s else passOn s k

/-- The recoat whose target an engine is, and which it does not serve yet. -/
def waitingRecoat (s : State) (e : Nat) : Option Nat :=
  (s.tln.tasks.find? fun x => decide (x.2.phase = .recoat ∧ x.2.target = some e)).map (·.1)

/-- A recoat's target is READY: it is reserved, and its program is loaded (R491 step 4). -/
def reserve (s : State) (k e : Nat) : State :=
  let s := updTask s k fun t => { t with loaded := imageThere s e t.prog }
  updEng s e fun x => { x with st := 3, task := some k, run := false, image := if (task s k).loaded then x.image else none }

/-- A halted engine has drained at a bundle boundary (R127) and the cancellation of its jobs is complete (R239): its task
resolves or returns to its queue. -/
def engineHalted (s : State) (e : Nat) : State :=
  let x := eng s e
  if !x.halt || !cancelDone s e then s
  else
    let pc := x.pc
    let s := setEng s e { x.drain with run := false, halt := false, slotB := none, frozen := none, exc := none }
    let s := setFld s (Reg.ECP_PC (e / 8) (e % 8)) F.ECP_PC_ADDR (pc / 8)
    if unitSt s (uEng e) ≠ 0 then s
    else
      let s := engFree s e
      let s := match x.task with
        | none => s
        | some k =>
          let t := task s k
          if t.eng ≠ some e then s
          else if t.requeue then requeueTask s k
          else if t.phase = .stopping then resolve s k t.reason
          else s
      match waitingRecoat s e with
      | some k => reserve s k e
      | none => s

/-! ## Stealing (R81, R82) -/

/-- Does a tile hold a ready task of a class? -/
def holdsReady (s : State) (t cls : Nat) : Bool := (tileQueue s t).any fun k => decide ((task s k).tr.cls = cls) && taskReady s k

/-- Channels that a DMA-class task may take now (R342): its own quadrant's strip first. -/
def dmaChannels (s : State) (t : Nat) : List Nat :=
  let q := t / 32
  let taken := s.tln.tasks.flatMap fun e =>
    if e.2.phase.over then [] else e.2.pairs.filterMap fun x => if x.done then none else x.chan
  ((upto 4).flatMap fun i => (upto 32).map fun c => (q + i) % 4 * 32 + c).filter fun c =>
    chDisp s c && startable s c && domLive s (16 + c / 32) && !taken.contains c

/-- Pairs of a record (R342). -/
def pairsOf (r : TaskRec) : List Nat := (upto 4).filter fun j => ((r.ins.getD j none).isSome && (r.outs.getD j none).isSome)

/-- Victims of a thief in order (R81). -/
def victims (s : State) (t : Nat) : List Nat :=
  let scope := fld s (Reg.TSU_CTL t) F.TSU_CTL_STEAL_SCOPE
  let tiles := (upto 128).filter fun v => decide (v ≠ t)
  let own := byDistance t (tiles.filter fun v => decide (v / 8 = t / 8))
  let quad := byDistance t (tiles.filter fun v => decide (v / 8 ≠ t / 8 ∧ v / 32 = t / 32))
  let dev := byDistance t (tiles.filter fun v => decide (v / 32 ≠ t / 32))
  own ++ (if 1 ≤ scope then quad else []) ++ (if 2 ≤ scope then dev else [])

/-- May a thief take a task of a victim? -/
def stealable (s : State) (t v cls k : Nat) : Bool :=
  let x := task s k
  match palOf s k with
  | none => false
  | some p =>
    let ready := taskReady s k
    let risk := atRisk s p v
    let aged := ready && decide (fld s (Reg.TSU_STEAL_AGE v) F.TSU_STEAL_AGE_VALUE ≤ (copyMax s (v / 8) % 2 ^ 48 + 2 ^ 48 - x.enq) % 2 ^ 48)
    let on := isSet s (Reg.TSU_CTL t) F.TSU_CTL_STEAL_EN && isSet s (Reg.TSU_CTL v) F.TSU_CTL_STEAL_EN
    let held := ((tileQueue s t).filter fun k => decide ((task s k).tr.cls = cls)).length
    let engines := ((tileEngs t).filter fun e => runsClass s e cls).length
    decide (x.tr.cls = cls) && bitAt x.tr.mask t && ((aged && on) || risk) && (on || risk)
      && (if cls = 3 then ready && decide ((pairsOf x.tr).length ≤ (dmaChannels s t).length)
          else ready || decide (held < engines))
      && hasRoom s t x.tr.prio

/-- A thief takes one task of a class from the first victim that has one for it. (DEDUCED, unsafe: log 137) -/
def steal (s : State) (t cls : Nat) : State :=
  let thief := tileUp s t && !holdsReady s t cls &&
    (decide (cls = 3) || (tileEngs t).any fun e => engReady s e && runsClass s e cls)
  if !thief then s
  else
    match (victims s t).find? fun v => (tileQueue s v).any (stealable s t v cls) with
    | none => s
    | some v =>
      match firstTask s ((tileQueue s v).filter (stealable s t v cls)) with
      | (none, s) => s
      | (some k, s) =>
        let again := (task s k).stolen
        let (now, s) := copyNow s (t / 8)
        let s := updTask s k fun x => { x with tile := t, stolen := true, enq := now }
        let s := inc (inc s (Reg.TSU_STEAL_OUT_CNT v)) (Reg.TSU_STEAL_IN_CNT t)
        if again then s else updPal s (k / 8192) fun p => { p with stolen := p.stolen + 1 }

/-! ## DMA-class tasks (R342 to R345) -/

/-- A pair of a DMA-class task before its parameter entries are read. -/
def makePair (s : State) (p : Pal) (r : TaskRec) (j chan : Nat) : DmaPair :=
  let i := (r.ins.getD j none).map (inputBuf s p r)
  let o := r.outs.getD j none
  let bi := bufEnt s p (i.getD 0)
  let bo := bufEnt s p (o.getD 0)
  let b := bits r.arg (8 * j) 8
  let ip := decide (bi.kind = kPARAM)
  let op := decide (bo.kind = kPARAM)
  { j := j, chan := some chan, src := if ip then p.param + bi.base else bi.addrFor p.slot,
    dst := if op then p.param + bo.base else bo.addrFor p.slot, srcHost := ip, dstHost := op,
    cin := if ip then 0 else bi.size, cout := if op then 0 else bo.size, needIn := ip, needOut := op,
    poly := b % 8, mode := b / 8 % 2 }

/-- COUNT of a pair whose entries have been read, or nothing when the pair is not allowed (R343). -/
def pairCount (x : DmaPair) : Option Nat :=
  let w := if x.poly = 7 ∨ x.mode = 0 then 0 else crcLen x.poly
  let n := if x.srcHost then x.cin else if x.dstHost then x.cout else min x.cin (x.cout - w)
  if (!x.srcHost && decide (x.cin < n)) || (!x.dstHost && decide (x.cout < n + w)) then none else some n

/-- Are the bytes of ARG_LO in use good (R343)? -/
def pairArgsOk (s : State) (f : Nat) (r : TaskRec) : Bool :=
  (pairsOf r).all fun j =>
    let b := bits r.arg (8 * j) 8
    decide (b / 16 = 0) && (decide (b % 8 ≠ 6) || accepted s f 7)

/-- Starts a pair on its channel. A pair of COUNT 0 is done at once. -/
def startPair (s : State) (k : Nat) (f : Nat) (x : DmaPair) : State :=
  match x.chan with
  | none => s
  | some c =>
    if x.count = 0 then updTask s k fun t => { t with pairs := t.pairs.map fun y => if y.j = x.j then { y with done := true } else y }
    else dispatchChannel s c f x.srcHost x.dstHost x.src x.dst x.count x.poly x.mode

/-- All pairs done: the task has completed. -/
def dmaComplete (s : State) (k : Nat) : State :=
  let t := task s k
  if t.phase = .running && t.eng.isNone && t.pairs.all (·.done) then
    let (now, s) := copyNow s (t.tile / 8)
    judgeTask s k now
  else s

/-- Every entry has been read: the counts are set and the channels start, or the task is missed. -/
def startDma (s : State) (k : Nat) (p : Pal) : State :=
  let t := task s k
  let ps := t.pairs.map fun x => (x, pairCount x)
  if ps.any (·.2.isNone) || !pairArgsOk s p.hdr.func t.tr then resolve s k 9
  else
    let xs := ps.map fun x => { x.1 with count := x.2.getD 0 }
    let s := updTask s k fun t => { t with pairs := xs, phase := .running }
    dmaComplete (xs.foldl (fun s x => startPair s k p.hdr.func x) s) k

/-- A supervisor dispatches its first ready DMA-class task that has a channel for every pair. -/
def dmaTaskDispatch (s : State) (t : Nat) : State :=
  if !mayDispatch s t then s
  else
    let cs := dmaChannels s t
    match firstTask s ((tileQueue s t).filter fun k => decide ((task s k).tr.cls = 3) && taskReady s k) with
    | (none, s) => s
    | (some k, s) =>
      match palOf s k with
      | none => s
      | some p =>
        let r := (task s k).tr
        let js := pairsOf r
        if cs.length < js.length then s
        else
          let refs := resolveRefs s p r
          let s := inc s (Reg.TSU_DISP_CNT t)
          if !refs.all (refOk s p.hdr.func) then resolve (evt s (Reg.TSU_EVT t) F.TSU_EVT_PARTITION) k 3
          else
            let ps := (js.zip cs).map fun x => makePair s p r x.1 x.2
            let s := updTask s k fun x => { x with refs := refs, pairs := ps, phase := .loading, eng := none, reason := 0 }
            if ps.any fun x => x.needIn || x.needOut then s else startDma s k p

/-- The read of a parameter entry returns (R343). -/
def paramRead (s : State) (k j : Nat) (out lost : Bool) : State :=
  let t := task s k
  match palOf s k, t.pairs.find? fun x => decide (x.j = j) with
  | some p, some x =>
    if t.phase ≠ .loading ∨ t.eng.isSome ∨ (if out then x.needOut else x.needIn) = false then s
    else
      let a := if out then x.dst else x.src
      let iss := supIssuer t.tile p.hdr.func
      let (c, b, s) := if lost then (TIMEOUT, [], nocFail s iss a TIMEOUT) else fabRead s iss a 16
      if c = PARERR then resolve s k 7
      else if c ≠ OKAY ∨ leAt b 12 4 ≠ 0 ∨ 16777216 < leAt b 8 4 then resolve s k 9
      else
        let y := if out then { x with dst := leAt b 0 8, cout := leAt b 8 4, needOut := false }
          else { x with src := leAt b 0 8, cin := leAt b 8 4, needIn := false }
        let s := updTask s k fun t => { t with pairs := t.pairs.map fun z => if z.j = j then y else z }
        if (task s k).pairs.any fun x => x.needIn || x.needOut then s else startDma s k p
  | _, _ => s

/-- The task a channel serves, and its pair. -/
def pairOn (s : State) (c : Nat) : Option (Nat × DmaPair) :=
  s.tln.tasks.findSome? fun e =>
    if e.2.phase = .running ∨ e.2.phase = .stopping then
      (e.2.pairs.find? fun x => !x.done && decide (x.chan = some c)).map fun x => (e.1, x)
    else none

/-- Changes a pair of a task. -/
def setPair (s : State) (k : Nat) (x : DmaPair) : State :=
  updTask s k fun t => { t with pairs := t.pairs.map fun y => if y.j = x.j then x else y }

/-- A pair waits for another channel, or has found one (R344). -/
def retryPair (s : State) (k : Nat) : State :=
  match palOf s k with
  | none => s
  | some p =>
    let t := task s k
    if t.phase ≠ .running then s
    else t.pairs.foldl (fun s x =>
      if x.done || x.chan.isSome then s
      else match (dmaChannels s t.tile).find? fun c => decide (x.bad ≠ some c) with
        | some c => startPair (setPair s k { x with chan := some c }) k p.hdr.func { x with chan := some c }
        | none => s) s

/-- A channel of dispatch has left DRAIN, or halted (R344). -/
def pairSettle (s : State) (c : Nat) : State :=
  match pairOn s c with
  | none => s
  | some (k, x) =>
    if chBusy s c then s
    else if (task s k).phase = .stopping then dmaSettle (setPair s k { x with done := true }) k
    else if chState s c = 0 then dmaComplete (setPair s k { x with done := true }) k
    else
      let err := chErr s c
      let again := decide (err = TIMEOUT ∨ err = FENCED ∨ err = eHOST ∨ err = eFAULT) && decide (x.halts = 0)
      let x := { x with halts := x.halts + 1, bad := some c, chan := none }
      if again then retryPair (setPair s k x) k
      else
        let reason := if x.halts = 1 ∧ err = PARERR then 7 else if x.halts = 1 ∧ err = DENIED then 3 else 9
        dmaSettle (stopTask (setPair s k { x with done := true }) k reason) k

/-- Every waiting pair tries again when a channel has become free (R342, R344). -/
def retryPairs (s : State) : State :=
  (s.tln.tasks.filter fun e => decide (e.2.phase = .running ∧ e.2.eng = none ∧ e.2.pairs ≠ [])).foldl (fun s e => retryPair s e.1) s

end Sys2Proof.Machine
end

