-- ==== Sys2Proof/Machine/Recoat.lean ====
section
/-! DEFINITION. Faults of engines and tiles, recoats, and the ready handshake (R78, R488 to R502, R512). -/

namespace Sys2Proof.Machine

/-! ## Resets of engines -/

/-- An engine is reset (R491, R512): it runs nothing, and tile-memory requests that have not been granted are withdrawn; which
those are is open. (DESIGN CHOICE, safe: log 142) -/
def resetEngine (s : State) (e : Nat) : State :=
  let x := eng s e
  let (keep, s) := x.stores.foldr (fun w (r : List EStore × State) =>
    if w.win then (w :: r.1, r.2)
    else
      let (g, s) := freeBool r.2
      (if g then w :: r.1 else r.1, s)) ([], s)
  setEng s e { x with run := false, halt := false, stores := keep, frozen := none, slotB := none, exc := none, fl := [], fault := none }

/-! ## Targets of a recoat (R492) -/

/-- The SPARE-class task that runs on an engine. -/
def spareTask (s : State) (e : Nat) : Option Nat :=
  match (eng s e).task with
  | some k => if (task s k).phase = .running ∧ (task s k).tr.cls = 2 ∧ (task s k).recoatRun = false ∧ engSt s e = 3 then some k else none
  | none => none

/-- May an engine be the target of a recoat from engine `e`? -/
def canTarget (s : State) (e x : Nat) : Bool :=
  decide (x ≠ e) && isSpare s x && decide (unitSt s (uEng x) = 0) && tileUp s (x / 8)
    && (engReady s x || (spareTask s x).isSome)

/-- The target of a recoat (R492). -/
def chooseTarget (s : State) (k e : Nat) : Option Nat :=
  match (tileEngs (e / 8)).find? (canTarget s e) with
  | some x => some x
  | none =>
    if !isSet s Reg.RAS_CTL F.RAS_CTL_REMOTE_EN then none
    else
      let ts := byDistance (e / 8) ((upto 128).filter fun t => bitAt (task s k).tr.mask t && decide (t ≠ e / 8))
      ts.findSome? fun t => (tileEngs t).find? (canTarget s e)

/-- A SPARE-class task is preempted (R79). -/
def preempt (s : State) (e k : Nat) : State :=
  let s := evt s (Reg.TSU_EVT (e / 8)) F.TSU_EVT_PREEMPT
  let s := updTask s k fun t => { t with phase := .stopping, requeue := true }
  cancelJobs (haltEngine s e) e

/-- A target is taken: reserved at once, or once its SPARE-class task has stopped. -/
def takeTarget (s : State) (k x : Nat) : State :=
  let s := updTask s k fun t => { t with target := some x, loaded := false }
  match spareTask s x with
  | some j => preempt s x j
  | none => reserve s k x

/-- A recoat starts (R491). `kind`: the fault's. (DEDUCED, unsafe: log 140) -/
def startRecoat (s : State) (k e x kind : Nat) : State :=
  let s := updPal s (k / 8192) fun p => { p with recoated := p.recoated + (if (task s k).recoated then 0 else 1) }
  let s := updTask s k fun t =>
    { t with phase := .recoat, faulty := e, target := some x, eng := none, recoatRun := true, recoated := true,
             shortLimit := decide (kind = 5), charge := if kind = 2 then some e else none }
  let s := evt (inc s Reg.RAS_RECOAT_CNT) Reg.RAS_EVT F.RAS_EVT_RECOAT
  let remote := decide (x / 8 ≠ e / 8)
  let s := if remote then inc s Reg.RAS_RECOAT_REMOTE_CNT else s
  let s := match palOf s k with
    | some p => sep s 0x02 (uEng e) remote.toNat (recoatArg s k p)
    | none => s
  takeTarget s k x

/-- A recoat whose target failed takes the next one, or its task is missed. -/
def retarget (s : State) (k : Nat) : State :=
  match chooseTarget s k (task s k).faulty with
  | some x => takeTarget s k x
  | none => resolve s k 9

/-- Do some of a task's inputs lie, in part, in an address range? -/
def inputIn (t : Task) (a n : Nat) : Bool :=
  (t.refs.take 4).any fun o =>
    match o with
    | some (b, m) => decide (a < b + m ∧ b < a + n)
    | none => false

/-- A task whose engine has failed: recoated, or missed (R492 to R495, R497). -/
def recoatTask (s : State) (k e kind : Nat) (damaged : Bool) : State :=
  let t := task s k
  if damaged then resolve s k 7
  else if t.recoatRun || !isSet s Reg.RAS_CTL F.RAS_CTL_RECOAT_EN then resolve s k 9
  else match chooseTarget s k e with
    | some x => startRecoat s k e x kind
    | none => resolve s k 9

/-! ## Engine faults (R491) -/

/-- What a fault of its engine means for the task bound there, and for a recoat that waits for the engine (R494). -/
def faultTask (s : State) (e kind : Nat) (damaged : Bool) : State :=
  let s := match (eng s e).task with
    | none => s
    | some k =>
      let t := task s k
      match t.phase with
      | .running => recoatTask s k e kind damaged
      | .loading => requeueTask s k
      | .stopping => if t.requeue then requeueTask s k else resolve s k t.reason
      | _ => s
  let s := updEng s e fun x => { x with task := none }
  match waitingRecoat s e with
  | some k => retarget s k
  | none => s

/-- An engine fault: recorded, counted unless it only reports damage in a memory (R106) or a limit (R495); the engine is fenced and
its jobs are cancelled. `count` is false for an injection that is not to be counted. (DEDUCED, unsafe: log 67, 141) -/
def engineFault (s : State) (e kind site addr : Nat) (count : Bool) : State :=
  let u := uEng e
  if discards s u then stale s
  else
    let (t, i) := (e / 8, e % 8)
    let x := eng s e
    let r := Reg.ECP_FLT t i
    let s := incFld (setFld (setFld s r F.ECP_FLT_KIND kind) r F.ECP_FLT_SITE site) r F.ECP_FLT_FCNT
    let s := setFld (wr s (Reg.ECP_FADDR t i) (BitVec.ofNat 32 addr)) (Reg.ECP_PC t i) F.ECP_PC_ADDR (x.pc / 8)
    let dev := (place x e addr).map (·.1)
    let damaged := decide (kind = 1 ∧ (site = 13 ∨ site = 14)) && (match x.task, dev with
      | some k, some d => inputIn (task s k) d 1
      | _, _ => false)
    let counted := count && decide (kind ≠ 2) && !decide (kind = 1 ∧ (site = 13 ∨ site = 14))
    let s := recordFault s u kind addr site
    let (p, s) := if counted then countOnly s u kind addr site else (false, s)
    let s := judgeFault (fenceRequest s u) u p
    let s := if site = 11 ∧ count ∧ unitSt s (uCp3 t) = 0 then
        let c := uCp3 t
        match countOnly s c kind 0 0 with
        | (p, s) => judgeFault (fenceRequest s c) c p
      else s
    let s := cancelJobs (updEng s e fun x => { x with halt := true, fault := none }) e
    faultTask s e kind damaged

/-- A report of an engine fault: the one the engine has found, or a parity error at a site of its own. -/
def engineFaultReport (s : State) (e : Nat) (parity : Bool) (site addr : Nat) : State :=
  match (eng s e).fault with
  | some (k, st, a) => engineFault s e k st a true
  | none =>
    if parity && decide (1 ≤ site ∧ site ≤ 12 ∧ (eng s e).st ≠ 0) then engineFault s e 1 site addr true else s

/-- A halt has not been taken within 64 cycles (R481, R491): the steward resets the engine. An engine that was not being fenced
has a fault of its own. -/
def haltTimeout (s : State) (e : Nat) : State :=
  if !(eng s e).halt then s
  else if unitSt s (uEng e) ≠ 0 then resetEngine s e
  else engineFault (resetEngine s e) e 4 0 0 true

/-- The fence and the cancellation are complete and the program is loaded (R491 step 5): the task is bound to its snapshot on
the target. (DEDUCED, unsafe: log 140) -/
def recoatDispatch (s : State) (k : Nat) : State :=
  let t := task s k
  match t.target with
  | none => s
  | some x =>
    let f := (fence s (uEng t.faulty)).st
    if t.phase ≠ .recoat ∨ !t.loaded ∨ (eng s x).task ≠ some k ∨ (eng s x).run ∨ (f ≠ 3 ∧ f ≠ 0) ∨ !cancelDone s t.faulty ∨ (eng s t.faulty).halt
    then s
    else if (allocate (x / 8) t.refs []).isNone then resolve (engFree (evt s (Reg.TSU_EVT (x / 8)) F.TSU_EVT_WINDOW) x) k 5
    else enterTask (updTask (inc s (Reg.TSU_DISP_CNT (x / 8))) k fun t => { t with tile := x / 8 }) k x

/-! ## The run limit (R78, R492, R495) -/

/-- The limit of a task's run. -/
def runLimit (s : State) (t : Task) (tile : Nat) : Nat :=
  let l := fld s (Reg.TSU_TSK_LIMIT tile) F.TSU_TSK_LIMIT_VALUE
  if t.shortLimit then min l 43253 else l

/-- A recoat run overran its full limit: recorded against the program. -/
def progOverrun (s : State) (p : Pal) (t : Task) : State :=
  let s := wr s Reg.RAS_PROG_OVR (BitVec.ofNat 32 (t.tr.prog + p.hdr.func * 2 ^ 16 + p.tl * 2 ^ 21))
  evt (inc s Reg.RAS_PROG_OVR_CNT) Reg.RAS_EVT F.RAS_EVT_PROG_OVR

/-- TSU_TSK_LIMIT expires on a running task. -/
def tskLimitExpiry (s : State) (e : Nat) : State :=
  let x := eng s e
  match x.task with
  | none => s
  | some k =>
    let t := task s k
    match palOf s k with
    | none => s
    | some p =>
      if t.phase ≠ .running ∨ !x.run ∨ dist (copyMax s (e / 64) % 2 ^ 48) (t.limitFrom + runLimit s t (e / 8)) < 0 then s
      else
        let full := decide (runLimit s t (e / 8) = runLimit s { t with shortLimit := false } (e / 8))
        let s := if full then evt (inc s (Reg.TSU_LIMIT_CNT (e / 8))) (Reg.TSU_EVT (e / 8)) F.TSU_EVT_LIMIT else s
        if t.recoatRun then
          let s := if full then progOverrun s p t else s
          stopTask (updTask s k fun t => { t with charge := none }) k 8
        else engineFault s e 2 0 0 true

/-! ## Tiles (R496) -/

/-- The running task of an engine of a lost tile. -/
def loseEngine (s : State) (t e : Nat) : State :=
  let s := fenceRequest s (uEng e)
  let s := if unitSt s (uEng e) = 0 then setUnitSt s (uEng e) 1 else s
  let s := cancelJobs (updEng s e fun x => { x with halt := true }) e
  match (eng s e).task with
  | none => s
  | some k =>
    let x := task s k
    let damaged := inputIn x (tileBase t) 0x100000
    let s := updEng s e fun x => { x with task := none }
    match x.phase with
    | .running => recoatTask s k e 0 damaged
    | .loading => if damaged then resolve s k 7 else passOn s k
    | .stopping => if x.requeue then passOn s k else resolve s k x.reason
    | .recoat => retarget s k
    | _ => s

/-- A queued task of a lost tile: missed when an input lies in the tile, otherwise delivered again. -/
def loseQueued (s : State) (t k : Nat) : State :=
  match palOf s k with
  | none => s
  | some p =>
    let x := { task s k with refs := resolveRefs s p (task s k).tr }
    if inputIn x (tileBase t) 0x100000 then resolve s k 7 else passOn s k

/-- The DMA-class tasks that the lost supervisor had started: their channels are stopped and they are delivered again. -/
def loseDma (s : State) (t k : Nat) : State :=
  let s := (task s k).pairs.foldl (fun s x => match x.chan with | some c => if x.done then s else chStopCmd s c | none => s) s
  loseQueued (updTask s k fun x => { x with pairs := [], phase := .queued }) t k

/-- A tile is lost: its engines and its port are fenced, its tasks redelivered, recoated or missed. `kind`: the fault of its
supervisor or router; 0 when retirement, or the limit, has lost it. (DEDUCED, unsafe: log 141) -/
def tileLost (s : State) (t kind : Nat) : State :=
  let u := uTile t
  if (kind = 0 ∧ unitSt s u = 0) ∨ (fence s u).st ≠ 0 then s
  else if kind ≠ 0 ∧ discards s u then s
  else
    let s := if kind = 0 then fenceRequest s u else unitFault s u kind 0 0
    let s := evt s (Reg.STW_EVT (t / 8)) F.STW_EVT_TILE_LOST
    let q := tileQueue s t
    let dma := (s.tln.tasks.filter fun e => decide (e.2.tile = t ∧ e.2.tr.cls = 3 ∧ (e.2.phase = .running ∨ e.2.phase = .loading))).map (·.1)
    let s := (tileEngs t).foldl (fun s e => loseEngine s t e) s
    let s := q.foldl (fun s k => loseQueued s t k) s
    dma.foldl (fun s k => loseDma s t k) s

/-! ## The ready handshake (R502) -/

/-- What a unit's return clears (R502 step 4). -/
def clearUnit (s : State) (u : Nat) : State :=
  let i := u % 4096
  match u / 4096 with
  | 1 => setEng (clearMem s (emBase i) (emBase i + 0x28000)) i
      { st := 2, seq := (eng s i).seq, stores := (eng s i).stores }
  | 2 => setPcache s i []
  | 3 => setCp3U s i {}
  | 10 => cxuReturn s i
  | 12 => dmaReturn s i
  | _ => s

/-- A fenced unit comes back: `gen` false when the generation check fails, `shadow` false at a parity error of the register
shadow, `again` when the unit faults again. Domains return through their wake, lanes through their training. (DEDUCED, safe: log 97) -/
def readyHandshake (s : State) (u : Nat) (gen shadow again : Bool) : State :=
  let c := u / 4096
  if !unitExists u || c = 0 || c = 4 || c = 5 || 13 ≤ c || decide (unitSt s u ≠ 1) || decide ((fence s u).st ≠ 3) ||
      (c = 1 && ((eng s (u % 4096)).halt || !cancelDone s (u % 4096) || decide (unitSt s (uTile (u % 4096 / 8)) ≠ 0) || !domLive s (u % 4096 / 64))) then s
  else if !gen || (unit s u).gen ≠ (unit s u).shadowGen then genFail s u
  else if !shadow then fatal s 2
  else if again then
    match countFault s u 1 0 0 with
    | (p, s) => judgeFault s u p
  else handshakeDone (clearUnit s u) u

/-! ## Engine control ports (R512) -/

/-- The task of an engine that management stops returns to its queue. -/
def withdraw (s : State) (e : Nat) : State :=
  match (eng s e).task with
  | none => s
  | some k =>
    let t := task s k
    if (t.phase = .running ∨ t.phase = .loading) ∧ t.eng = some e then
      cancelJobs (updTask s k fun t => { t with phase := .stopping, requeue := true }) e
    else s

/-- HALT. -/
def ecpHalt (s : State) (e : Nat) : State :=
  if engSt s e = 2 ∨ engSt s e = 3 then haltEngine (withdraw s e) e else s

/-- RESET: the engine runs nothing more and returns through the ready handshake. -/
def ecpReset (s : State) (e : Nat) : State :=
  if engSt s e = 0 ∨ unitSt s (uEng e) ≠ 0 then s
  else
    let s := resetEngine (withdraw s e) e
    let s := match (eng s e).task with
      | some k => if (task s k).requeue then requeueTask s k else if (task s k).phase = .stopping then resolve s k (task s k).reason else s
      | none => s
    let s := updEng s e fun x => { x with task := none }
    let s := setUnitSt (fenceRequest s (uEng e)) (uEng e) 1
    let s := match waitingRecoat s e with
      | some k => retarget s k
      | none => s
    sep s 0x0E (uEng e) 4 e

/-- DOORBELL. -/
def ecpDoorbell (s : State) (e : Nat) : State := setEip s e 0

/-- A job of an engine's task ended with PARERR or FAULT (R258, R493): the task is stopped as at a deadline. -/
def jobStopsTask (s : State) (e reason : Nat) : State :=
  match (eng s e).task with
  | none => s
  | some k => if (task s k).phase = .running then stopTask s k reason else s

end Sys2Proof.Machine
end

