-- ==== Sys2Proof/Machine/Sepia.lean ====
section
/-! DEFINITION. The Sepia recorder (R503 to R510), the query of unit records (R513), and the loss and training of HBM
stacks (R324, R508). -/

namespace Sys2Proof.Machine

/-- The four words of an entry (R504). -/
def sepWords (e : SepEvent) : SepEntry :=
  (BitVec.ofNat 32 e.time, BitVec.ofNat 32 (e.time / 2 ^ 32 % 2 ^ 16 + e.wrap % 2 ^ 8 * 2 ^ 16 + e.type % 2 ^ 8 * 2 ^ 24),
    BitVec.ofNat 32 (e.unit % 2 ^ 16 + e.gen % 2 ^ 8 * 2 ^ 16 + e.code % 2 ^ 8 * 2 ^ 24), BitVec.ofNat 32 e.arg)

/-- Entry `i` of the recorder. -/
def sepEntry (s : State) (i : Nat) : SepEntry := Tab.get (fun _ => (0, 0, 0, 0)) s.ras.entries i

/-- The bytes of an entry. -/
def entryBytes (e : SepEntry) : List Byte :=
  leBytes 4 e.1.toNat ++ leBytes 4 e.2.1.toNat ++ leBytes 4 e.2.2.1.toNat ++ leBytes 4 e.2.2.2.toNat

/-- A dump starts (R509), unless one is running. -/
def sepDumpStart (s : State) (cause stamp : Nat) : State :=
  if fld s Reg.SEP_STAT F.SEP_STAT_DUMP = 1 then s
  else setFld { s with ras := { s.ras with dumpCause := cause, dumpStamp := stamp } } Reg.SEP_STAT F.SEP_STAT_DUMP 1

/-- A FATAL entry has been written (R508): the recorder is frozen, and what is still queued counts as dropped.
(DEDUCED, unsafe: log 17) -/
def sepFreeze (s : State) (e : SepEvent) : State :=
  let s := setFld (setFld s Reg.SEP_STAT F.SEP_STAT_FROZEN 1) Reg.SEP_STAT F.SEP_STAT_CAUSE e.code
  let s := addCnt (wr64 s Reg.SEP_FREEZE_LO e.time) Reg.SEP_DROP_CNT s.ras.queue.length
  let s := { s with ras := { s.ras with queue := [], dropSince := 0 } }
  if isSet s Reg.SEP_CTL F.SEP_CTL_DUMP_EN then sepDumpStart s e.code e.time else s

/-- The recorder writes the event at the head of its queue; a DROP event joins the queue once it has room (R507).
(DEDUCED, unsafe: log 17) -/
def sepiaWrite (s : State) : State :=
  match s.ras.queue with
  | [] => s
  | e :: q =>
    let i := (rd s Reg.SEP_COUNT).toNat % 8192
    let s := inc { s with ras := { s.ras with
      queue := q
      entries := Tab.put (fun _ => (0, 0, 0, 0)) s.ras.entries i (sepWords e)
      badEntries := Tab.put (fun _ => false) s.ras.badEntries i false } } Reg.SEP_COUNT
    if e.type = 0x13 then sepFreeze s e
    else if s.ras.dropSince ≠ 0 ∧ s.ras.queue.length < 60 then
      { s with ras := { s.ras with
        queue := s.ras.queue ++ [sepMake s 0x12 0 0 s.ras.dropSince]
        dropSince := 0 } }
    else s

/-- Bytes 0x00 to 0x3B of the dump header (R509). -/
def dumpHead (s : State) : List Byte :=
  leBytes 4 0x53455031 ++ leBytes 4 (1 + s.ras.dumpCause % 256 * 2 ^ 8) ++ leBytes 8 Config.serial.toNat ++
    leBytes 4 (rd s Reg.SEP_COUNT).toNat ++ leBytes 4 (rd s Reg.TIM_WRAP_CNT).toNat ++ leBytes 8 s.ras.dumpStamp ++
    leBytes 4 (rd s Reg.SEP_DROP_CNT).toNat ++ leBytes 24 0

/-- A dump has written its entries and its header (R509), or has failed. (DEDUCED, unsafe: log 28) -/
def sepDumpDone (s : State) (ok : Bool) : State :=
  if fld s Reg.SEP_STAT F.SEP_STAT_DUMP ≠ 1 then s
  else if !ok then setFld s Reg.SEP_STAT F.SEP_STAT_DUMP 3
  else
    let base := (rd s Reg.SEP_DUMP_ADDR).toNat / 2 ^ 16 * 2 ^ 16
    let body := (upto 8192).flatMap fun i => entryBytes (sepEntry s i)
    let head := dumpHead s
    let check := crcOf 6 (head ++ body)
    setFld { s with flash := memPutN s.flash base (head ++ leBytes 4 check ++ body) } Reg.SEP_STAT F.SEP_STAT_DUMP 2

/-- UNFREEZE (R508). -/
def sepUnfreeze (s : State) : State :=
  setFld (setFld s Reg.SEP_STAT F.SEP_STAT_FROZEN 0) Reg.SEP_STAT F.SEP_STAT_CAUSE 0

/-- A write of SEP_CTL by a management core (`mc`) or with the rights of the physical function (R514). -/
def sepCtlWrite (s : State) (v : Word) (mc : Bool) : State :=
  let a := Reg.SEP_CTL
  let s := [F.SEP_CTL_EN, F.SEP_CTL_MISS_ALL, F.SEP_CTL_DUMP_EN, F.SEP_CTL_MON_FATAL].foldl (fun s f => setFld s a f (getF v f)) s
  let s := if getF v F.SEP_CTL_FREEZE = 1 then fatal s 5 else s
  let s := if getF v F.SEP_CTL_UNFREEZE = 1 ∧ mc = true then sepUnfreeze s else s
  if getF v F.SEP_CTL_DUMP = 1 then
    sepDumpStart s (fld s Reg.SEP_STAT F.SEP_STAT_CAUSE) (raw s) else s

/-- A MARK is recorded (R514). -/
def sepMark (s : State) (code : Nat) (v : Word) : State := sep s 0x11 0 code v.toNat

/-- Is the event with a serial number still held (R510)? -/
def sepHeld (s : State) (n : Nat) : Bool :=
  let c := (rd s Reg.SEP_COUNT).toNat
  decide ((c + 2 ^ 32 - 1 - n % 2 ^ 32) % 2 ^ 32 < min c 8192)

/-- A requester captures the entry of a serial number (R510). (DEDUCED, unsafe: log 13) -/
def sepCapture (s : State) (who n : Nat) : State :=
  let i := n % 8192
  let cap : SepCap :=
    if sepHeld s n then
      { valid := true, gone := false, perr := Tab.get (fun _ => false) s.ras.badEntries i, words := sepEntry s i }
    else { gone := true }
  { s with ras := { s.ras with rdcap := Tab.put (fun _ => {}) s.ras.rdcap who cap } }

/-- RAS_Q_STAT of a unit (R513). -/
def unitStat (s : State) (u : Nat) : Word :=
  if !unitExists u then BitVec.ofNat 32 (4 * 2 ^ 16)
  else BitVec.ofNat 32 (inWindow s u % 16 + (unit s u).kind * 2 ^ 4 + (unit s u).gen % 256 * 2 ^ 8 + unitSt s u * 2 ^ 16)

/-- A requester captures a unit's record (R513). (DEDUCED, unsafe: log 13) -/
def rasCapture (s : State) (who u : Nat) : State :=
  let cap : QCap := { stat := unitStat s u, total := BitVec.ofNat 32 (unit s u).total, last := (unit s u).last }
  { s with ras := { s.ras with qcap := Tab.put (fun _ => {}) s.ras.qcap who cap } }

/-! ## Stacks and management cores (R324, R508) -/

/-- READY bit of a stack. -/
def stackReady (i : Nat) : Fld := if i = 0 then F.MEM_STAT_READY0 else F.MEM_STAT_READY1

/-- Sets the state of the pseudo-channels of a stack. -/
def setPcs (s : State) (i st : Nat) : State :=
  (upto 32).foldl (fun s n => setFld s (Reg.MEM_PC (i * 32 + n)) F.MEM_PC_STATE st) s

/-- A stack finishes training. -/
def stackTrained (s : State) (i : Nat) : State :=
  if domSt s 21 ≠ 0 then s else setPcs (setFld s Reg.MEM_STAT (stackReady i) 1) i 2

/-- A stack leaves READY: its pseudo-channels are OFF or TRAINING, which the spec leaves open. (DESIGN CHOICE, safe: log 23) -/
def stackLoss (s : State) (i : Nat) : State :=
  if !isSet s Reg.MEM_STAT (stackReady i) then s
  else
    let (x, s) := freeBelow 2 s
    let s := setPcs (setFld s Reg.MEM_STAT (stackReady i) 0) i x
    if isSet s Reg.MEM_CTL F.MEM_CTL_EN then fatal s 3 else s

/-! ## Meanings -/

/-- SEPIA_WRITE (R507). -/
def execSepiaWrite (s : State) : Res := done (sepiaWrite s)

/-- HBM_STACK_LOSS (R508). -/
def execHbmStackLoss (i : Fin 2) (s : State) : Res := done (stackLoss s i)

/-- HBM_STACK_TRAINED (R324). -/
def execHbmStackTrained (i : Fin 2) (s : State) : Res := done (stackTrained s i)

/-- MANAGEMENT_CORE_FAULT (R508). -/
def execManagementCoreFault (_i : Fin 4) (s : State) : Res := done (fatal s 4)

end Sys2Proof.Machine
end

