-- ==== Sys2Proof/Machine/Live.lean ====
section
/-! DEFINITION. What a register shows (R9, R44, R514, R513): most registers hold what they show; the status registers below
follow the state of their block. -/

namespace Sys2Proof.Machine

/-- Sets fields of a word. -/
def putAll (w : Word) (fs : List (Fld × Nat)) : Word := fs.foldl (fun w e => putF w e.1 e.2) w

/-- Truth values as the bits of a number, lowest first. -/
def maskOf (n : Nat) (p : Nat → Bool) : Nat := ((upto n).filter p).foldl (fun m i => m + 2 ^ i) 0

/-- Numbers of `w` bits as the fields of a number, lowest first. -/
def packOf (n w : Nat) (v : Nat → Nat) : Nat := (upto n).foldl (fun m i => m + v i * 2 ^ (w * i)) 0

/-- A replicated register whose value is computed: its first address, stride and count, and its value from its index and what
is stored. -/
structure LiveReg where
  base : Nat
  stride : Nat
  count : Nat
  val : Nat → Word → Word

/-- The computed value of the register at an address, if one of a list covers it. -/
def liveAt : List LiveReg → Nat → Word → Option Word
  | [], _, _ => none
  | r :: rs, a, w =>
    if r.base ≤ a ∧ (a - r.base) % r.stride = 0 ∧ (a - r.base) / r.stride < r.count then some (r.val ((a - r.base) / r.stride) w)
    else liveAt rs a w

/-- One register. -/
def one (a : Nat) (v : Word → Word) : LiveReg := ⟨a, 4, 1, fun _ w => v w⟩

/-- A number as a word. -/
abbrev w32 (n : Nat) : Word := BitVec.ofNat 32 n

/-- GEN of a unit. -/
def genOf (s : State) (u : Nat) : Nat := (unit s u).gen % 256

/-- Commands of a queue pair that have started and not completed. -/
def pairInflight (s : State) (f q : Nat) : Nat := (s.hif.cmds.filter fun c => decide (c.f = f ∧ c.q = q) && c.started).length

/-- Is a virtual function enabled? (DESIGN CHOICE, unsafe: log 29) -/
def vfOn (s : State) (f : Nat) : Bool := bitAt s.hif.vfs f

/-- Has a function's swatch been accepted? -/
def swAccepted (s : State) (f : Nat) : Bool := isSet s (fnKey f Reg.SWATCH_STAT) F.SWATCH_STAT_ACCEPTED

/-- ID, SWATCH and HIF registers of function `f` (R443, R539). -/
def liveHif (s : State) (f : Nat) : List LiveReg :=
  [ one Reg.ID_REV fun w => putF w F.ID_REV_GRADE Config.grade.toNat,
    one Reg.ID_SUBSYS fun _ => s.hif.subsys,
    one Reg.ID_SERIAL_LO fun _ => w32 Config.serial.toNat,
    one Reg.ID_SERIAL_HI fun _ => w32 (Config.serial.toNat / 2 ^ 32),
    one Reg.HIF_ID fun w => if f = 0 then w else putF w F.HIF_ID_NQP (fld s (Reg.VF_CTL f) F.VF_CTL_NQP),
    one Reg.HIF_STAT fun w => putAll w [(F.HIF_STAT_ACCEPTED, (swAccepted s f).toNat), (F.HIF_STAT_FLR, (resetting s f).toNat),
      (F.HIF_STAT_LINK, s.hif.linkTrained.toNat), (F.HIF_STAT_BAR4, s.hif.bar4En.toNat)],
    one Reg.HIF_MGMT_TIMEOUT fun _ => rd s Reg.HIF_MGMT_TIMEOUT,
    one Reg.HIF_DEVEVT_SUM fun _ => w32 (if f = 0 then devEvtSum s else 0),
    ⟨Reg.QP_STAT 0, 0x40, 64, fun q w =>
      putAll w [(F.QP_STAT_RUN, (isSet s (qp f q Reg.QP_CTL) F.QP_CTL_EN || pairInflight s f q ≠ 0).toNat),
        (F.QP_STAT_HELD, (cqFull s f q).toNat)]⟩,
    ⟨Reg.QP_INFLIGHT 0, 0x40, 64, fun q _ => w32 (pairInflight s f q)⟩,
    ⟨Reg.VF_STAT 0, 0x40, 32, fun v w => putAll w [(F.VF_STAT_ENABLED, (vfOn s v).toNat),
      (F.VF_STAT_ACCEPTED, (vfOn s v && swAccepted s v).toNat), (F.VF_STAT_FLR, (vfOn s v && resetting s v).toNat)]⟩ ]

/-- TLN registers (R90). -/
def liveTln (s : State) : List LiveReg :=
  [ one Reg.TLN_STATUS fun w => putAll w [(F.TLN_STATUS_ACTIVE_PAL, (s.tln.pals.filter Pal.live).length),
      (F.TLN_STATUS_VALID_PAL, s.hif.valid.length)],
    one Reg.TLN_EVT fun w =>
      putF w F.TLN_EVT_TL ((upto 64).any fun n => rd s (Reg.TL_EVT n) &&& rd s (Reg.TL_EVT_EN n) ≠ 0).toNat,
    one Reg.TLN_SECOP fun _ => w32 (packOf 16 2 (sectorOp s)),
    one Reg.TLN_SECOSC fun _ => w32 (maskOf 16 (onOsc s)),
    one Reg.TLN_PARK_CNT fun _ => w32 ((s.tln.tasks.filter fun t => decide (t.2.phase = .parked)).length),
    ⟨Reg.TL_CTL 0, 0x40, 64, fun n w => putF w F.TL_CTL_DIRECT (tlDirect s n).toNat⟩,
    ⟨Reg.TL_STAT 0, 0x40, 64, fun n w => putAll w [(F.TL_STAT_RUNNING, (tlRuns s n).toNat),
      (F.TL_STAT_REPEAT_HELD, (tl s n).held.isSome.toNat),
      (F.TL_STAT_INFLIGHT, (s.tln.pals.filter fun p => decide (p.tl = n) && p.live).length)]⟩ ]

/-- The head of the TIME receive queue, or zeros. -/
def trxHead (s : State) : TrxEntry := s.tim.trx.headD { msg := List.replicate 16 0, stamp := 0, bundle := 0, lane := 0, seq := 0 }

/-- A requester's copy of TIM_RAW and SET at its last read of TIM_NOW_LO (R393). -/
def snapOf (s : State) (who : Nat) : Nat × Bool := Tab.get (fun _ => (0, false)) s.tim.snap who

/-- TIM registers (R410) for a requester. -/
def liveTim (s : State) (who : Nat) : List LiveReg :=
  [ one Reg.TIM_CTL fun w => putF w F.TIM_CTL_AUTORESP (autoResp s).toNat,
    one Reg.TIM_EVT fun w => putF w F.TIM_EVT_TRX (!s.tim.trx.isEmpty).toNat,
    one Reg.TIM_RAW_LO fun _ => w32 (raw s),
    one Reg.TIM_RAW_HI fun _ => w32 (raw s / 2 ^ 32),
    one Reg.TIM_NOW_LO fun _ => w32 (timNow s),
    one Reg.TIM_NOW_HI fun _ => w32 (timNow s / 2 ^ 32),
    one Reg.TIM_SNAP_RAW_LO fun _ => w32 (snapOf s who).1,
    one Reg.TIM_SNAP_RAW_HI fun _ => w32 ((snapOf s who).1 / 2 ^ 32 + (snapOf s who).2.toNat * 2 ^ 31),
    ⟨Reg.TIM_TRX_MSG 0, 4, 4, fun k _ => w32 (leAt (trxHead s).msg (4 * k) 4)⟩,
    one Reg.TIM_TRX_STAMP_LO fun _ => w32 (trxHead s).stamp,
    one Reg.TIM_TRX_STAMP_HI fun _ => w32 ((trxHead s).stamp % 2 ^ 54 / 2 ^ 32),
    one Reg.TIM_TRX_INFO fun w => putAll w [(F.TIM_TRX_INFO_DEPTH, s.tim.trx.length), (F.TIM_TRX_INFO_VALID, (!s.tim.trx.isEmpty).toNat),
      (F.TIM_TRX_INFO_BUNDLE, (trxHead s).bundle), (F.TIM_TRX_INFO_LANE, (trxHead s).lane), (F.TIM_TRX_INFO_SEQ, (trxHead s).seq)] ]

/-- GEN of a domain. -/
def domGen (s : State) (n : Nat) : Nat := genOf s (uDom n)

/-- A domain's transition engine. -/
def dom (s : State) (n : Nat) : DomS := Tab.get (fun _ => {}) s.pwr.doms n

/-- Do wakes of sectors run natively (R460)? -/
def wakeNative (s : State) : Bool := isSet s Reg.PWR_CTL F.PWR_CTL_WAKE_NATIVE && feature s 0 10

/-- The device level (R36): 0 FULL, 1 PARTIAL, 2 STANDBY. -/
def level (s : State) : Nat :=
  if (upto 20).all (domLive s) && decide (domSt s 20 = 0 ∧ domSt s 21 = 0) && !lnkMinimal s then 0
  else if (upto 21).all (fun n => decide (domSt s n = 3)) && decide (domSt s 21 = 2) && lnkMinimal s then 2
  else 1

/-- PWR registers (R477). -/
def livePwr (s : State) : List LiveReg :=
  [ one Reg.PWR_LEVEL fun _ => putAll 0 [(F.PWR_LEVEL_LEVEL, level s), (F.PWR_LEVEL_BUSY, s.pwr.levelTarget.isSome.toNat)],
    ⟨Reg.PWR_DOM_OP 0, 0x10, 20, fun n w => putF w F.PWR_DOM_OP_BUSY (dom s n).trans.isSome.toNat⟩,
    ⟨Reg.PWR_DOM_CLK 0, 0x10, 16, fun _ w =>
      if wakeNative s then w else putF w F.PWR_DOM_CLK_SRC 1⟩,
    one Reg.PWR_CTL fun w => putF w F.PWR_CTL_WAKE_NATIVE (wakeNative s).toNat,
    ⟨Reg.PWR_DOMAIN_STATE 0, 0x10, 25, fun n w => putF w F.PWR_DOMAIN_STATE_GEN (domGen s n)⟩ ]

/-- A requester's capture of the RAS query, of a recorder entry. -/
def qcapOf (s : State) (who : Nat) : QCap := Tab.get (fun _ => {}) s.ras.qcap who
def sepCapOf (s : State) (who : Nat) : SepCap := Tab.get (fun _ => {}) s.ras.rdcap who

/-- RAS and SEP registers (R513, R514) for a requester. -/
def liveRas (s : State) (who : Nat) : List LiveReg :=
  [ ⟨Reg.RAS_ENG_RETIRED 0, 4, 32, fun k _ => w32 (maskOf 32 fun j => decide (unitSt s (uEng (32 * k + j)) = 3))⟩,
    ⟨Reg.RAS_TILE_RETIRED 0, 4, 4, fun k _ => w32 (maskOf 32 fun j => decide (unitSt s (uTile (32 * k + j)) = 3))⟩,
    one Reg.RAS_Q_STAT fun _ => (qcapOf s who).stat,
    one Reg.RAS_Q_TOTAL fun _ => (qcapOf s who).total,
    one Reg.RAS_Q_LAST_LO fun _ => w32 (qcapOf s who).last,
    one Reg.RAS_Q_LAST_HI fun _ => w32 ((qcapOf s who).last / 2 ^ 32),
    one Reg.SEP_RD_STAT fun w => putAll w [(F.SEP_RD_STAT_VALID, (sepCapOf s who).valid.toNat),
      (F.SEP_RD_STAT_GONE, (sepCapOf s who).gone.toNat), (F.SEP_RD_STAT_PERR, (sepCapOf s who).perr.toNat)],
    ⟨Reg.SEP_RD 0, 4, 4, fun k _ =>
      let (a, b, c, d) := (sepCapOf s who).words
      match k with | 0 => a | 1 => b | 2 => c | _ => d⟩ ]

/-- Powered seconds (R530). -/
def ponSec (s : State) : Nat := rawTotal s / 1966080000

/-- MGT registers (R540). (DEDUCED, unsafe: log 33; DESIGN CHOICE, unsafe: log 98) -/
def liveMgt (s : State) : List LiveReg :=
  [ one Reg.MGT_ALERT_STAT fun _ => w32 (alertStat s),
    one Reg.MGT_PON_SEC_LO fun _ => w32 (ponSec s),
    one Reg.MGT_PON_SEC_HI fun _ => w32 (ponSec s / 2 ^ 32),
    one Reg.MGT_GPIO_IN fun _ => w32 (s.mgt.gpioIn % 2 ^ 16),
    one Reg.MGT_MBOX_STAT fun w => putAll w [(F.MGT_MBOX_STAT_DEPTH, s.hif.mail.length),
      (F.MGT_MBOX_STAT_FW_READY, (decide (fld s Reg.MGT_BOOT_STAT F.MGT_BOOT_STAT_STAGE = 3)).toNat)] ]

/-- Is a unit's or scope's fence FENCED, or on its way (R323)? Refusal shows from DRAINING on. -/
def fenceBit (s : State) (u : Nat) : Bool := refuses s u

/-- Is sub-port `j` of an edge router fenced: its strip for a strip group, all lanes' bundle never? -/
def edgeFenced (s : State) (r j : Nat) : Bool :=
  decide (160 ≤ r ∧ j = 0) && refuses s (uDom (16 + ((r - 160) % 8 / 4 * 2 + (r - 160) / 8)))

/-- The entry of a router's override table: bits of NOC_RT_DATA. -/
def routeKey (router bank tgt : Nat) : Nat := (router * 2 + bank) * 256 + tgt
def routeEntry (s : State) (router bank tgt : Nat) : Nat := Tab.get (fun _ => 0) s.noc.routes (routeKey router bank tgt)

/-- The entry that NOC_RT_SEL selects. -/
def selectedRoute (s : State) : Nat :=
  routeKey (fld s Reg.NOC_RT_SEL F.NOC_RT_SEL_ROUTER) (fld s Reg.NOC_RT_SEL F.NOC_RT_SEL_BANK) (fld s Reg.NOC_RT_SEL F.NOC_RT_SEL_TGT)

/-- NOC registers (R323). (DEDUCED, unsafe: log 35) -/
def liveNoc (s : State) : List LiveReg :=
  [ one Reg.NOC_RT_DATA fun _ => w32 (Tab.get (fun _ => 0) s.noc.routes (selectedRoute s)),
    ⟨Reg.NOC_FENCE_T 0, 4, 4, fun i _ => w32 (maskOf 32 fun j =>
      fenceBit s (uTile (32 * i + j)) || fenceBit s (uDom ((32 * i + j) / 8)))⟩,
    ⟨Reg.NOC_FENCE_E 0, 4, 12, fun i _ => w32 (maskOf 32 fun b => edgeFenced s (128 + 4 * i + b / 8) (b % 8))⟩,
    ⟨Reg.NOC_EFENCE 0, 4, 32, fun i _ => w32 (maskOf 32 fun b => fenceBit s (uEng ((4 * i + b / 8) * 8 + b % 8)))⟩ ]

/-- STATE of DMA_UNIT: 0 OFF, 1 RETURNING, 2 READY, 4 FENCED, 5 RETIRED. -/
def dmaUnitState (s : State) (d : Nat) : Nat :=
  match unitSt s (uDma d) with
  | 1 => 4
  | 2 => 1
  | 3 => 5
  | _ => if domLive s (16 + d / 2) then 2 else 0

/-- DMA registers (R349). -/
def liveDma (s : State) : List LiveReg :=
  [ ⟨Reg.DMA_EVT_SUM 0, 0x4000, 8, fun d _ => w32 (maskOf 16 fun c => rd s (Reg.CH_EVT d c) &&& rd s (Reg.CH_EVT_EN d c) ≠ 0)⟩,
    ⟨Reg.DMA_OUTST 0, 0x4000, 8, fun d w =>
      putAll w [(F.DMA_OUTST_READS, engReads s d), (F.DMA_OUTST_WRITES, engWrites s d)]⟩,
    ⟨Reg.DMA_UNIT 0, 0x4000, 8, fun d w => putAll w [(F.DMA_UNIT_STATE, dmaUnitState s d), (F.DMA_UNIT_GEN, genOf s (uDma d))]⟩ ]
  ++ (upto 16).flatMap fun c =>
    [ ⟨Reg.CH_STATUS 0 c, 0x4000, 8, fun d w => putF w F.CH_STATUS_STATE (chState s (d * 16 + c))⟩,
      ⟨Reg.CH_CFG 0 c, 0x4000, 8, fun d w => putF w F.CH_CFG_DISP (chDisp s (d * 16 + c)).toNat⟩ ]

/-- LNK registers (R382). -/
def liveLnk (s : State) : List LiveReg :=
  [ ⟨Reg.LNK_STAT 0, 0x10000, 12, fun b w => putF w F.LNK_STAT_UP (maskOf 8 fun l => decide (lnState s (b * 8 + l) = 6))⟩,
    ⟨Reg.LNK_EVT 0, 0x10000, 12, fun b w => putAll w
      [(F.LNK_EVT_LANE, ((upto 8).any fun l => rd s (Reg.LN_EVT b l) &&& rd s (Reg.LN_EVT_EN b l) ≠ 0).toNat),
       (F.LNK_EVT_TXTS, (!(bundle s b).txts.isEmpty).toNat)]⟩,
    ⟨Reg.LNK_TXTS_STAT 0, 0x10000, 12, fun b w =>
      let q := (bundle s b).txts
      putAll w [(F.LNK_TXTS_STAT_DEPTH, q.length), (F.LNK_TXTS_STAT_VALID, (!q.isEmpty).toNat),
        (F.LNK_TXTS_STAT_ID, (q.headD (0, 0)).1)]⟩,
    ⟨Reg.LNK_TXTS_LO 0, 0x10000, 12, fun b _ => w32 ((bundle s b).txts.headD (0, 0)).2⟩,
    ⟨Reg.LNK_TXTS_HI 0, 0x10000, 12, fun b _ => w32 (((bundle s b).txts.headD (0, 0)).2 % 2 ^ 54 / 2 ^ 32)⟩ ]
  ++ (upto 8).map fun l => ⟨Reg.LN_STAT 0 l, 0x10000, 12, fun b w => putAll w
      [(F.LN_STAT_FENCED, (decide ((fence s (uLane (b * 8 + l))).st ≠ 0)).toNat), (F.LN_STAT_GEN, genOf s (uLane (b * 8 + l)))]⟩

/-- STATE and GEN of a job unit. -/
def jobUnitWord (s : State) (q kind i : Nat) (w : Word) : Word :=
  putAll w [(F.FEC_UNIT_STATE, unitState s q kind i), (F.FEC_UNIT_GEN, genOf s (jobUnit q kind i))]

/-- Kind and index of unit `u` of FEC_UNIT (R262). -/
def fecUnit (u : Nat) : Nat × Nat := if u < 8 then (1, u) else if u < 12 then (2, u - 8) else if u < 16 then (3, u - 12) else (4, u - 16)

/-- FEC, CXU and FFT registers (R262, R292, R293). -/
def liveAcc (s : State) : List LiveReg :=
  [ ⟨Reg.FEC_QD0 0, 0x10000, 4, fun q w => putAll w
      [(F.FEC_QD0_LDEC, (queued s q 1).length), (F.FEC_QD0_LENC, (queued s q 2).length)]⟩,
    ⟨Reg.FEC_QD1 0, 0x10000, 4, fun q w => putAll w
      [(F.FEC_QD1_PDEC, (queued s q 3).length), (F.FEC_QD1_TDEC, (queued s q 4).length)]⟩,
    ⟨Reg.CXU_UNIT 0, 0x4000, 32, fun n w => putAll w [(F.CXU_UNIT_STATE, cxuState s n), (F.CXU_UNIT_GEN, genOf s (uCxu n))]⟩,
    ⟨Reg.FFT_QD 0, 0x4000, 4, fun q w => putF w F.FFT_QD_DEPTH (queued s q 6).length⟩,
    ⟨Reg.FFT_UNIT 0, 0x1000, 16, fun n w => jobUnitWord s (n / 4) 6 (n % 4) w⟩ ]
  ++ (upto 18).map fun u => ⟨Reg.FEC_UNIT 0 u, 0x10000, 4, fun q w => jobUnitWord s q (fecUnit u).1 (fecUnit u).2 w⟩

/-- State of a tile in STW_TILE: 0 OFF, 1 RETURNING, 2 READY, 3 LOST, 4 RETIRED. -/
def tileState (s : State) (t : Nat) : Nat :=
  match unitSt s (uTile t) with
  | 1 => 3
  | 2 => 1
  | 3 => 4
  | _ => if domLive s (t / 8) then 2 else 0

/-- Steward registers (R479). -/
def liveStw (s : State) : List LiveReg :=
  [ ⟨Reg.STW_STAT 0, 0x1000, 16, fun n _ => putAll 0
      [(F.STW_STAT_STATE, domSt s n), (F.STW_STAT_BUSY, (dom s n).trans.isSome.toNat), (F.STW_STAT_FENCE, (fence s (uDom n)).st),
       (F.STW_STAT_CUR, sectorOp s n), (F.STW_STAT_ON_OSC, (onOsc s n).toNat),
       (F.STW_STAT_HELD, (dom s n).held.isSome.toNat), (F.STW_STAT_GEN, domGen s n)]⟩,
    ⟨Reg.STW_TILE 0, 0x1000, 16, fun n _ => w32 (packOf 8 4 fun t => tileState s (n * 8 + t))⟩ ]

/-- The palette of the task bound to an engine, with the task. -/
def boundTask (s : State) (e : Nat) : Option (Nat × Task × Pal) :=
  (eng s e).task.bind fun k => (palOf s k).map fun p => (k, task s k, p)

/-- Supervisor registers and engine control ports (R91, R512). -/
def liveTsu (s : State) : List LiveReg :=
  [ ⟨Reg.TSU_ENG_STATE 0, 0x10000, 128, fun t _ => w32 (packOf 8 4 fun i => engSt s (t * 8 + i))⟩,
    ⟨Reg.TSU_QD01 0, 0x10000, 128, fun t w => putAll w [(F.TSU_QD01_QLOW, queueDepth s t 0), (F.TSU_QD01_QHIGH, queueDepth s t 1)]⟩,
    ⟨Reg.TSU_QD23 0, 0x10000, 128, fun t w => putAll w [(F.TSU_QD01_QLOW, queueDepth s t 2), (F.TSU_QD01_QHIGH, queueDepth s t 3)]⟩,
    ⟨Reg.TSU_RISK 0, 0x10000, 128, fun t w => putAll w [(F.TSU_RISK_OP, sectorOp s (t / 8)), (F.TSU_RISK_FASTOSC, (onOsc s (t / 8)).toNat),
      (F.TSU_RISK_RISK_COUNT, ((tileQueue s t).filter fun k =>
        match palOf s k with | some p => atRisk s p t | none => false).length)]⟩ ]
  ++ (upto 8).flatMap fun i =>
    [ ⟨Reg.ECP_STAT 0 i, 0x10000, 128, fun t _ =>
        let e := t * 8 + i
        putAll 0 [(F.ECP_STAT_STATE, engSt s e), (F.ECP_STAT_GEN, genOf s (uEng e)), (F.ECP_STAT_KIND, fld s (Reg.ECP_FLT t i) F.ECP_FLT_KIND),
          (F.ECP_STAT_SPARE, (isSpare s e).toNat), (F.ECP_STAT_GRANT, ((eng s e).run && (eng s e).grant).toNat)]⟩,
      ⟨Reg.ECP_TASK 0 i, 0x10000, 128, fun t _ =>
        match boundTask s (t * 8 + i) with
        | some (k, x, p) => putAll 0 [(F.ECP_TASK_TASK_ID, k % 8192), (F.ECP_TASK_FUNC, p.hdr.func), (F.ECP_TASK_TL, p.tl),
            (F.ECP_TASK_RECOAT, x.recoatRun.toNat), (F.ECP_TASK_VALID, 1)]
        | none => 0⟩,
      ⟨Reg.ECP_SLOT 0 i, 0x10000, 128, fun t _ =>
        match boundTask s (t * 8 + i) with
        | some (_, _, p) => w32 p.slot
        | none => 0⟩ ]

/-- The computed registers of the block that holds an offset. -/
def liveBlock (s : State) (who f a : Nat) : List LiveReg :=
  if a < 0x10000 then liveHif s f
  else if a < 0x20000 then liveTln s
  else if a < 0x30000 then liveTim s who
  else if a < 0x40000 then livePwr s
  else if a < 0x50000 then []
  else if a < 0x70000 then liveRas s who
  else if a < 0x80000 then liveMgt s
  else if a < 0x200000 then liveNoc s
  else if a < 0x300000 then []
  else if a < 0x400000 then liveDma s
  else if a < 0x800000 then liveLnk s
  else if a < 0x1000000 then liveAcc s
  else if a < 0x1100000 then liveStw s
  else liveTsu s

/-- Bits of a register that are WO: they read 0 (R9). -/
def woMask (d : RegDesc) : Nat := (d.fields.filter fun f => decide (f.acc = .wo)).foldl (fun m f => m + (2 ^ f.width - 1) * 2 ^ f.lo) 0

/-- What the register at a BAR0 offset of function `f` shows a requester, beside its holding copies. -/
def peek (s : State) (who f a : Nat) : Word :=
  let a := canonOff a
  match findReg a with
  | none => 0
  | some (d, _) =>
    let w := rd s (if d.perFn then fnKey f a else a)
    let v := (liveAt (liveBlock s who f a) a w).getD w
    v &&& ~~~(w32 (woMask d))

end Sys2Proof.Machine
end

