-- ==== Sys2Proof/Machine/Power.lean ====
section
/-! DEFINITION. Power states, levels, operating points and clock sources (R446 to R466): the transition engines of sectors and
strips. -/

namespace Sys2Proof.Machine

/-- Changes a domain's transition engine. -/
def updDom (s : State) (n : Nat) (g : DomS → DomS) : State :=
  { s with pwr := { s.pwr with doms := Tab.upd (fun _ => {}) s.pwr.doms n g } }

/-- The reason a domain's state shows. -/
def setReason (s : State) (n r : Nat) : State := setFld s (Reg.PWR_DOMAIN_STATE n) F.PWR_DOMAIN_STATE_REASON r

/-- Job units of a strip, by kind. -/
def stripJobUnits (q : Nat) : List Nat := [1, 2, 3, 4, 6].flatMap fun kind => (upto (unitsOf kind)).map (jobUnit q kind)

/-- The units of a sector or strip that return one by one (R461, R502). -/
def domUnits (n : Nat) : List Nat :=
  if n < 16 then
    (upto 8).map (fun t => uTile (n * 8 + t)) ++ (upto 8).map (fun t => uCp3 (n * 8 + t)) ++ (upto 64).map (fun e => uEng (n * 64 + e))
  else if n < 20 then
    let q := n - 16
    stripJobUnits q ++ (upto 8).map (fun i => uCxu (q * 8 + i)) ++ (upto 2).map (fun i => uDma (q * 2 + i))
  else []

/-- The sector or strip of a unit. -/
def unitDom (u : Nat) : Option Nat := firstFrom (fun n => (domUnits n).contains u) 20 0

/-! ## What a domain loses when it is gated -/

/-- Bits of a register that are RW: the shadow keeps them (R459, R518). -/
def rwMask (d : RegDesc) : Nat := (d.fields.filter fun f => decide (f.acc = .rw)).foldl (fun m f => m + (2 ^ f.width - 1) * 2 ^ f.lo) 0

/-- Registers of a block lose what the shadow does not keep. CH_STATUS stays: a channel stays HALTED through its strip's
sleep (R347). -/
def offRegs (s : State) (lo n : Nat) : State :=
  (s.regs.filter fun e => decide (lo ≤ e.1 ∧ e.1 < lo + n)).foldl (fun s e =>
    match findReg e.1 with
    | none => s
    | some (d, _) =>
      if d.base = Reg.CH_STATUS 0 0 then s
      else let m := w32 (rwMask d); wr s e.1 ((regReset e.1 &&& ~~~m) ||| (e.2 &&& m))) s

/-- A sector or strip goes OFF: its flops and memories are lost. (DEDUCED, unsafe: log 40) -/
def offDomain (s : State) (n : Nat) : State :=
  if n < 16 then
    let s := offRegs s (Reg.TSU_CTL (n * 8)) 0x80000
    (upto 8).foldl (fun s i =>
      let t := n * 8 + i
      let s := clearMem s (tileBase t) (tileBase t + 0x300000)
      let s := setCp3U (setPcache s t []) t {}
      (upto 8).foldl (fun s e => setEng s (t * 8 + e) { seq := (eng s (t * 8 + e)).seq }) s) s
  else
    let q := n - 16
    let s := offRegs (offRegs s (Reg.DMA_ID (q * 2)) 0x8000) (Reg.FEC_ID q) 0x10000
    offRegs (offRegs s (Reg.CXU_ID (q * 8)) 0x20000) (Reg.FFT_ID (q * 4)) 0x4000

/-- The supervisors of a sector write back the dirty lines of their caches and invalidate them (R457 step 3). -/
def flushCaches (s : State) (n : Nat) : State :=
  (s.noc.lines.filter fun e => decide (n * 8 ≤ e.1 / 2 ^ 42 ∧ e.1 / 2 ^ 42 < n * 8 + 8)).foldl (fun s e =>
    snoopOne s (e.1 / 2 ^ 42) (e.1 % 2 ^ 42 * 64) true) s

/-! ## Entering RET or OFF (R457, R458) -/

/-- The tasks that run on a sector are handed on (DRAIN = 0): engines halt, jobs are cancelled. DMA-class tasks of its tiles are
stopped and delivered again. -/
def handOn (s : State) (n : Nat) : State :=
  let s := (upto 64).foldl (fun s i =>
    let e := n * 64 + i
    if engSt s e = 3 then haltEngine (withdraw s e) e else s) s
  let ks := (s.tln.tasks.filter fun e => decide (e.2.tile / 8 = n ∧ e.2.eng = none ∧ e.2.tr.cls = 3 ∧ (e.2.phase = .running ∨ e.2.phase = .loading))).map (·.1)
  ks.foldl (fun s k =>
    let s := (task s k).pairs.foldl (fun s x => match x.chan with | some c => if x.done then s else chStopCmd s c | none => s) s
    passOn (updTask s k fun x => { x with pairs := [] }) k) s

/-- A domain starts to enter RET or OFF. (DEDUCED, unsafe: log 42) -/
def enter (s : State) (n st : Nat) (drain : Bool) (reason : Nat) : State :=
  let s := updDom s n fun x => { x with trans := some (.enter st reason drain), left := if domLive s n then 0 else domSt s n }
  let s := setDom (setReason s n reason) n 4
  if n < 16 then
    let s := passSector s n
    if drain then s else handOn s n
  else stripStopDma (stripStopCxus (fenceJobs s (n - 16)) (n - 16)) (n - 16)

/-- Has everything ended that must end before the fence: tasks and engines of a sector; jobs, CXUs and channels of a strip? -/
def readyToFence (s : State) (n : Nat) : Bool :=
  if n < 16 then
    (upto 64).all (fun i => decide (engSt s (n * 64 + i) ≠ 3 ∧ engSt s (n * 64 + i) ≠ 4)) &&
      !(s.tln.tasks.any fun e => decide (e.2.tile / 8 = n) && e.2.phase.onTile && !e.2.phase.over)
  else !stripBusy s (n - 16) && !stripDmaBusy s (n - 16)

/-- The step of an entry that raises the domain's fence. -/
def enterFence (s : State) (n : Nat) : State :=
  match (dom s n).trans with
  | some (.enter _ _ _) => if readyToFence s n then fenceRequest (if n < 16 then flushCaches s n else s) (uDom n) else s
  | _ => s

/-! ## Waking (R461 to R464) -/

/-- The units of a domain whose state was kept or cleared begin their handshakes. -/
def unitsReturn (s : State) (n : Nat) (fromOff : Bool) : State :=
  let s := updDom s n fun x => { x with trans := some (.returning fromOff) }
  (domUnits n).foldl (fun s u => if unitSt s u = 0 then setUnitSt s u 2 else s) s

/-- Domains in the power-switch step. -/
def inSwitch (s : State) : Nat := ((upto 20).filter fun n => decide ((dom s n).trans = some .switching)).length

/-- A domain starts to wake. (DEDUCED, unsafe: log 40) -/
def wake (s : State) (n reason : Nat) : State :=
  let native := decide (16 ≤ n) || wakeNative s
  let old := domSt s n
  let s := updDom s n fun x => { x with native := native, clkAsked := false, left := old }
  let s := setDom (setReason s n reason) n 5
  let s := if n < 16 then
      let s := if native then setFld s (Reg.PWR_DOM_CLK n) F.PWR_DOM_CLK_SRC 0 else s
      let locked := isSet s (Reg.PWR_DOM_CLK n) F.PWR_DOM_CLK_LOCK
      updDom s n fun x => { x with pllWait := !locked }
    else s
  if old = 3 then
    updDom s n fun x => { x with trans := some (if inSwitch s < 4 then .switching else .waitSwitch) }
  else unitsReturn s n false

/-- The steward announces that its sector's clock source is the PLL (R462). -/
def switchToPll (s : State) (n : Nat) : State :=
  let s := setFld s (Reg.PWR_DOM_CLK n) F.PWR_DOM_CLK_ON_OSC 0
  evt (updDom s n fun x => { x with clkAsked := false }) Reg.PWR_EVT F.PWR_EVT_CLK_SWITCH

/-! ## Operating points (R452 to R456) -/

/-- LDO output of a point, in mV (R453). -/
def opVolt : Nat → Nat
  | 0 => 800
  | 1 => 720
  | 2 => 650
  | _ => 600

/-- Commanded VDD_CORE. -/
def vcore (s : State) : Nat := fld s Reg.PWR_AVS_STAT F.PWR_AVS_STAT_VCORE

/-- HEAD. -/
def avsHead (s : State) : Nat := fld s Reg.PWR_AVS_CTL F.PWR_AVS_CTL_HEAD

/-- VDD_CORE is commanded over AVSBus. -/
def avsCommand (s : State) (mv : Nat) : State :=
  let s := setFld (setFld s Reg.PWR_AVS_STAT F.PWR_AVS_STAT_VCORE mv) Reg.PWR_AVS_STAT F.PWR_AVS_STAT_BUSY 1
  emit s (.avs mv)

/-- The fastest point whose voltage a sector's LDO gives or is going to give. -/
def ldoPoint (s : State) (n : Nat) : Nat :=
  match (dom s n).trans with
  | some (.raise op) => min op (sectorOp s n)
  | some (.ldo op _) => min op (sectorOp s n)
  | _ => sectorOp s n

/-- The last step to a slower point: VDD_CORE is lowered when it can be. -/
def avsLower (s : State) : State :=
  let live := (upto 16).filter (domLive s)
  let want := max 600 ((live.map fun n => opVolt (ldoPoint s n)).foldl max 0 + avsHead s)
  if isSet s Reg.PWR_CTL F.PWR_CTL_AVS_AUTO && !live.isEmpty && decide (want + 25 ≤ vcore s) then avsCommand s want else s

/-- The divider changes, which the steward announces (R455). -/
def setPoint (s : State) (n op : Nat) : State :=
  let old := sectorOp s n
  let s := setFld s (Reg.PWR_DOM_OP n) F.PWR_DOM_OP_CUR op
  if op = old then s else sep s 0x09 (uDom n) op (old + fld s (Reg.PWR_DOM_OP n) F.PWR_DOM_OP_CAP * 16)

/-- A transition to another point starts. With FAIL set a raise is refused. -/
def startOp (s : State) (n op : Nat) : State :=
  if op < sectorOp s n then
    let want := opVolt op + avsHead s
    if want ≤ vcore s && !isSet s Reg.PWR_AVS_STAT F.PWR_AVS_STAT_BUSY then updDom s n fun x => { x with trans := some (.ldo op true) }
    else if vcore s < want && isSet s Reg.PWR_AVS_STAT F.PWR_AVS_STAT_FAIL then s
    else
      let s := if vcore s < want then avsCommand s want else s
      updDom s n fun x => { x with trans := some (.raise op) }
  else setPoint (updDom s n fun x => { x with trans := some (.ldo op false) }) n op

/-- The target of a sector: the slower of request and cap. -/
def opTarget (s : State) (n : Nat) : Nat :=
  max (fld s (Reg.PWR_DOM_OP n) F.PWR_DOM_OP_REQ_OP) (fld s (Reg.PWR_DOM_OP n) F.PWR_DOM_OP_CAP)

/-- A held request is replaced (R451). -/
def heldReplaced (s : State) : State := evt (inc s Reg.PWR_HELD_DROP_CNT) Reg.PWR_EVT F.PWR_EVT_HELD_REPLACED

/-- REQ_OP or the cap of a sector has changed: a request for the new target (R452). (DEDUCED, unsafe: log 76) -/
def opRequest (s : State) (n : Nat) : State :=
  let a := Reg.PWR_DOM_OP n
  let tgt := opTarget s n
  let s := setFld s a F.PWR_DOM_OP_TARGET tgt
  if (dom s n).trans.isSome then
    let s := if isSet s a F.PWR_DOM_OP_HELD then heldReplaced s else s
    setFld (setFld s a F.PWR_DOM_OP_HELD 1) a F.PWR_DOM_OP_HELD_OP tgt
  else if !domLive s n || tgt = sectorOp s n then s
  else startOp s n tgt

/-! ## Requests and their completion (R451, R465) -/

/-- Answers to MGMT requests that awaited a unit (R476, R511, R538). -/
def mailBytes (s : State) (m : Mail) : List Byte :=
  let n := leAt m.args 0 1
  let u := leAt m.args 0 2
  match m.mcode with
  | 0x0002 => leBytes 4 (peek s 0 0 (Reg.PWR_DOMAIN_STATE n)).toNat
  | 0x0003 => leBytes 4 (peek s 0 0 (Reg.PWR_DOM_OP n)).toNat
  | 0x0004 => leBytes 4 (peek s 0 0 Reg.PWR_LEVEL).toNat
  | 0x0103 => leBytes 4 (unitStat s u).toNat
  | 0x0107 => leBytes 4 (rd s Reg.SEP_STAT).toNat
  | 0x0203 => leBytes 4 (genOf s u)
  | _ => []

/-- The MGMT requests that await a unit, or the dump (1), are answered. (DESIGN CHOICE, unsafe: log 52) -/
def answerWaiting (s : State) (u acode : Nat) : State :=
  (s.hif.mail.filter fun m => decide (m.wait = some u)).foldl (fun s m => answerMail s m acode (mailBytes s m)) s

/-- The MGMT requests that await a device level (0) are answered. (DESIGN CHOICE, unsafe: log 52) -/
def answerLevel (s : State) (l acode : Nat) : State :=
  (s.hif.mail.filter fun m => decide (m.wait = some 0 ∧ leAt m.args 0 1 = l)).foldl (fun s m => answerMail s m acode (mailBytes s m)) s

/-- A state request starts (R457, R458, R461, R528). RET is entered from ACT or IDLE only. (DEDUCED, unsafe: log 37) -/
def startReq (s : State) (n : Nat) (r : StateReq) : State :=
  let st := domSt s n
  if r.reset then
    let s := updDom s n fun x => { x with thenWake := true }
    if st = 3 then wake s n 0 else enter s n 3 false 0
  else if r.st = 0 then (if st ≤ 1 then s else wake s n r.reason)
  else if r.st = st ∨ (st = 3 ∧ r.st = 2) then s
  else enter s n r.st r.drain r.reason

/-- Has a level change ended, and which level is then in force? -/
def levelDone (s : State) : Bool :=
  match s.pwr.levelTarget with
  | some 2 => (upto 20).all fun n => decide (domSt s n = 3 ∨ domSt s n = 6)
  | some _ => (upto 20).all fun n => domLive s n || decide (domSt s n = 6)
  | none => false

/-- The last steps into STANDBY: FAB OFF, MEM in self-refresh, LNK minimal. (DEDUCED, unsafe: log 41, 47) -/
def standby (s : State) : State :=
  let s := setDom (setReason s 20 5) 20 3
  let s := offRegs (offRegs s Reg.TLN_ID 0x10000) Reg.NOC_ID 0x100000
  let s := { s with tln := { nextKey := s.tln.nextKey }, hif := { s.hif with valid := [], reported := [] } }
  let s := setDom (setReason s 21 5) 21 2
  let s := setFld (setPcs (setPcs s 0 3) 1 3) Reg.MEM_STAT F.MEM_STAT_SR 1
  let s := setFld (setReason s 23 5) (Reg.PWR_DOMAIN_STATE 23) F.PWR_DOMAIN_STATE_MINIMAL 1
  (upto 96).foldl (fun s l =>
    if lnState s l = 0 ∨ lnState s l = 9 then s
    else setLn (setLnF (dropEgress s l) l F.LN_STAT_BLOCKLOCK 0) l 1) s

/-- FAB returns from OFF: its registers are written from the shadow, which sets the EN of its timelines (R459, R502).
(DEDUCED, unsafe: log 41) -/
def fabReturns (s : State) (reason : Nat) : State :=
  let s := setDom (setReason s 20 reason) 20 0
  (upto 64).foldl (fun s n => if isSet s (Reg.TL_CTL n) F.TL_CTL_EN then tlEnable s n else s) s

/-- The first steps out of STANDBY. -/
def leaveStandby (s : State) (reason : Nat) : State :=
  let s := if domSt s 20 = 0 then s else fabReturns s reason
  let s := if domSt s 21 = 0 then s
    else
      let s := setFld (setDom (setReason s 21 reason) 21 0) Reg.MEM_STAT F.MEM_STAT_SR 0
      let s := if isSet s Reg.MEM_STAT F.MEM_STAT_READY0 then setPcs s 0 2 else s
      if isSet s Reg.MEM_STAT F.MEM_STAT_READY1 then setPcs s 1 2 else s
  if !lnkMinimal s then s
  else
    let s := setFld (setReason s 23 reason) (Reg.PWR_DOMAIN_STATE 23) F.PWR_DOMAIN_STATE_MINIMAL 0
    (upto 96).foldl (fun s l =>
      if lnState s l = 1 ∧ isSet s (lnReg Reg.LN_STAT l) F.LN_STAT_SIGNAL = true then startAttempt s l false else s) s

/-- A state request reaches a domain's transition engine: it starts, or is held (R451). -/
def domRequest (s : State) (n : Nat) (r : StateReq) : State :=
  if domSt s n = 6 then s
  else if (dom s n).trans.isSome then
    let s := if (dom s n).held.isSome then heldReplaced s else s
    updDom s n fun x => { x with held := some r }
  else startReq s n r

/-- A level request starts: every sector and strip is taken down, or woken. -/
def startLevel (s : State) (l reason : Nat) : State :=
  let s := { s with pwr := { s.pwr with levelTarget := some l } }
  let s := if l = 2 then s else leaveStandby s reason
  (upto 20).foldl (fun s n =>
    domRequest s n { st := if l = 2 then 3 else 0, drain := false, reason := if l = 2 then 5 else reason, reset := false }) s

/-- A level request (R465): STANDBY is refused while the timelines are enabled. (DESIGN CHOICE, unsafe: log 52) -/
def levelRequest (s : State) (l reason : Nat) : State :=
  if l = 2 && isSet s Reg.TLN_CTL F.TLN_CTL_EN then answerLevel (evt s Reg.PWR_EVT F.PWR_EVT_LEVEL_REFUSED) 2 2
  else match s.pwr.levelTarget with
    | some _ =>
      let s := match s.pwr.heldLevel with
        | some h => if h = l then heldReplaced s else answerLevel (heldReplaced s) h 2
        | none => s
      { s with pwr := { s.pwr with heldLevel := some l } }
    | none =>
      if l = level s then answerLevel s l 0 else startLevel s l reason

/-- A level change ends when its last domain has arrived. -/
def levelEnd (s : State) : State :=
  let l := s.pwr.levelTarget
  let s := if l = some 2 then standby s else s
  let s := evt { s with pwr := { s.pwr with levelTarget := none } } Reg.PWR_EVT F.PWR_EVT_LEVEL_DONE
  answerLevel s (l.getD 0) 0

/-- A level change that is over ends; a held one follows. -/
def levelCheck (s : State) : State :=
  if !levelDone s then s
  else
    let s := levelEnd s
    match s.pwr.heldLevel with
    | none => s
    | some l =>
      let s := levelRequest { s with pwr := { s.pwr with heldLevel := none } } l 2
      if levelDone s then levelEnd s else s

/-- A transition completes (R451): the held state request starts, then the held point. `acode`: 4 when it ended with
AVS_FAIL. -/
def transDone (s : State) (n acode : Nat) : State :=
  let s := updDom s n fun x => { x with trans := none }
  let s := evt (inc s Reg.PWR_XITION_CNT) Reg.PWR_EVT F.PWR_EVT_XITION_DONE
  let s := if n < 16 then evt (inc s (Reg.STW_XITION_CNT n)) (Reg.STW_EVT n) F.STW_EVT_XITION_DONE else s
  let s := if acode = 0 then s else answerWaiting s (uDom n) acode
  let s := match (dom s n).held with
    | some r => startReq (updDom s n fun x => { x with held := none }) n r
    | none => s
  let a := Reg.PWR_DOM_OP n
  let s := if (dom s n).trans.isSome || !isSet s a F.PWR_DOM_OP_HELD then s
    else
      let s := setFld (setFld s a F.PWR_DOM_OP_HELD 0) a F.PWR_DOM_OP_HELD_OP 0
      if domLive s n && decide (opTarget s n ≠ sectorOp s n) then startOp s n (opTarget s n) else s
  let s := if (dom s n).trans.isNone then answerWaiting s (uDom n) 0 else s
  levelCheck s

/-- A domain is gated: RET keeps memories and flops, OFF nothing (R448, R457 step 5). A sector's PLL stays locked in RET while wakes
are not native (R463). (DESIGN CHOICE, safe: log 2) -/
def domGated (s : State) (n : Nat) : State :=
  match (dom s n).trans with
  | some (.enter st _ _) =>
    if (fence s (uDom n)).st ≠ 3 then s
    else
      let s := if st = 3 then offDomain s n
        else if n < 16 then (upto 8).foldl (fun s t => setPcache s (n * 8 + t) []) s else s
      let s := if n < 16 then
          let keep := decide (st = 2) && !wakeNative s && isSet s (Reg.PWR_DOM_CLK n) F.PWR_DOM_CLK_LOCK
          setFld (setFld s (Reg.PWR_DOM_CLK n) F.PWR_DOM_CLK_LOCK keep.toNat) (Reg.PWR_DOM_CLK n) F.PWR_DOM_CLK_ON_OSC 0
        else s
      let s := updDom s n fun x => { x with pllWait := false, clkAsked := false }
      let s := setDom s n (if unitSt s (uDom n) = 3 then 6 else st)
      if (dom s n).thenWake && decide (domSt s n ≠ 6) then wake s n 0 else transDone s n 0
  | _ => s

/-- A power-switch step frees (R464): its domain goes on, and a domain that waits takes the step. (DESIGN CHOICE, safe: log 44) -/
def powerSwitchFree (s : State) (n : Nat) : State :=
  if (dom s n).trans ≠ some .switching then s
  else
    let s := updDom s n fun x => { x with trans := some .clearing }
    let ws := (upto 20).filter fun m => decide ((dom s m).trans = some .waitSwitch)
    let (i, s) := freeBelow ws.length s
    match ws[i]? with
    | some m => updDom s m fun x => { x with trans := some .switching }
    | none => s

/-- The memories of a waking domain have been cleared. -/
def memoryCleared (s : State) (n : Nat) : State :=
  if (dom s n).trans = some .clearing then unitsReturn s n true else s

/-- The wake ends: STATE = ACT. -/
def wakeDone (s : State) (n : Nat) : State :=
  let s := updDom s n fun x => { x with thenWake := false }
  let s := if n < 16 then
      let onOsc := (dom s n).native || !isSet s (Reg.PWR_DOM_CLK n) F.PWR_DOM_CLK_LOCK
      let s := setFld (setFld s (Reg.PWR_DOM_OP n) F.PWR_DOM_OP_CUR (opTarget s n)) (Reg.PWR_DOM_CLK n) F.PWR_DOM_CLK_ON_OSC onOsc.toNat
      if onOsc && (dom s n).clkAsked && isSet s (Reg.PWR_DOM_CLK n) F.PWR_DOM_CLK_LOCK then switchToPll s n else s
    else s
  transDone (setDom s n 0) n 0

/-- Engines of a compatibility wake start at their exact time (R463). -/
def compatStart (s : State) (n : Nat) : State :=
  if (dom s n).trans = some .compat && !(dom s n).pllWait then wakeDone s n else s

/-- A sector PLL locks (R462). -/
def pllLock (s : State) (n : Nat) : State :=
  if !(dom s n).pllWait then s
  else
    let s := setFld (updDom s n fun x => { x with pllWait := false }) (Reg.PWR_DOM_CLK n) F.PWR_DOM_CLK_LOCK 1
    if (dom s n).clkAsked && onOsc s n then switchToPll s n else s

/-- A sector PLL does not lock within 30 µs (R464). -/
def pllTimeout (s : State) (n : Nat) : State :=
  if !(dom s n).pllWait then s
  else evt (updDom s n fun x => { x with pllWait := false }) Reg.PWR_EVT F.PWR_EVT_PLL_FAIL

/-- SRC = 1 is written (R462): the sector moves to its PLL at once, or once it has locked. -/
def clockSwitch (s : State) (n : Nat) : State :=
  let s := setFld s (Reg.PWR_DOM_CLK n) F.PWR_DOM_CLK_SRC 1
  if onOsc s n && isSet s (Reg.PWR_DOM_CLK n) F.PWR_DOM_CLK_LOCK then switchToPll s n
  else if onOsc s n || decide (domSt s n = 5) then updDom s n fun x => { x with clkAsked := true }
  else s

/-- The regulator reports the commanded voltage (R454): the sectors for which it is enough raise their LDO; for others it is commanded
higher. -/
def avsResponse (s : State) : State :=
  if !isSet s Reg.PWR_AVS_STAT F.PWR_AVS_STAT_BUSY then s
  else
    let there := vcore s
    let s := setFld s Reg.PWR_AVS_STAT F.PWR_AVS_STAT_BUSY 0
    (upto 16).foldl (fun s n =>
      match (dom s n).trans with
      | some (.raise op) =>
        if opVolt op + avsHead s ≤ there then updDom s n fun x => { x with trans := some (.ldo op true) }
        else if vcore s < opVolt op + avsHead s then avsCommand s (opVolt op + avsHead s) else s
      | _ => s) s

/-- The regulator does not report in time (R456). -/
def avsTimeout (s : State) : State :=
  if !isSet s Reg.PWR_AVS_STAT F.PWR_AVS_STAT_BUSY then s
  else
    let s := setFld (setFld s Reg.PWR_AVS_STAT F.PWR_AVS_STAT_BUSY 0) Reg.PWR_AVS_STAT F.PWR_AVS_STAT_FAIL 1
    let s := sep (evt s Reg.PWR_EVT F.PWR_EVT_AVS_FAIL) 0x10 0 0 (vcore s * 2 ^ 16)
    (upto 16).foldl (fun s n =>
      match (dom s n).trans with
      | some (.raise _) => transDone s n 4
      | _ => s) s

/-- A sector LDO settles (R454). -/
def ldoSettled (s : State) (n : Nat) : State :=
  match (dom s n).trans with
  | some (.ldo op faster) => if faster then transDone (setPoint s n op) n 0 else avsLower (transDone s n 0)
  | _ => s

/-! ## IDLE (R449) and residency (R466) -/

/-- Has a domain no activity? -/
def quiet (s : State) (n : Nat) : Bool :=
  if n < 16 then
    (upto 64).all (fun i => decide (engSt s (n * 64 + i) ≠ 3 ∧ engSt s (n * 64 + i) ≠ 4)) &&
      !((upto 8).any fun t => !(tileQueue s (n * 8 + t)).isEmpty)
  else
    let q := n - 16
    !(s.job.list.any fun j => decide (j.q = q)) && !stripDmaBusy s q && !((upto 8).any fun i => cxuRun s (q * 8 + i))

/-- A domain without activity for long enough gates its clock. -/
def idleEntry (s : State) (n : Nat) : State :=
  if isSet s Reg.PWR_CTL F.PWR_CTL_IDLE_EN && decide (domSt s n = 0) && (dom s n).trans.isNone && quiet s n then setDom s n 1 else s

/-- The residency state of a domain: 0 ACT, 1 IDLE, 2 RET, 3 OFF. (DEDUCED, unsafe: log 39) -/
def resState (s : State) (n : Nat) : Nat :=
  match domSt s n with
  | 4 => (dom s n).left
  | 5 => (dom s n).left
  | 6 => 3
  | st => if n = 23 && lnkMinimal s then 2 else st

/-- The residency counters count, once in each Tc with TIM_RAW[10:0] = 0. -/
def residencyTick (s : State) : State :=
  if raw s % 2048 ≠ 0 || !s.tim.counting || s.pwr.resAt = some (rawTotal s) then s
  else
    let s := { s with pwr := { s.pwr with resAt := some (rawTotal s) } }
    (upto 25).foldl (fun s n =>
      let a := Reg.PWR_RES_LO n (resState s n)
      wr64 s a (rd64 s a + 1)) s

/-! ## Retirement and return of a domain -/

/-- A domain is retired: it goes OFF behind its fence, as RETIRED. -/
def retireDomain (s : State) (n : Nat) : State :=
  if domSt s n = 2 ∨ domSt s n = 3 then setDom (setReason s n 4) n 6
  else domRequest s n { st := 3, drain := false, reason := 4, reset := false }

/-- READY for the domain itself (R461, R502): every unit has had its handshake. (DESIGN CHOICE, unsafe: log 43) -/
def domHandshake (s : State) (n : Nat) (gen shadow : Bool) : State :=
  match (dom s n).trans with
  | some (.returning _) =>
    if (domUnits n).any fun u => decide (unitSt s u = 2) then s
    else if !gen || (unit s (uDom n)).gen ≠ (unit s (uDom n)).shadowGen then
      let s := genFail s (uDom n)
      if unitSt s (uDom n) = 3 then transDone (setDom (setReason s n 4) n 6) n 0 else s
    else if !shadow then fatal s 2
    else
      let s := handshakeDone s (uDom n)
      if (dom s n).native then wakeDone s n
      else updDom s n fun x => { x with trans := some .compat }
  | _ => s

/-- A unit of a waking domain has its handshake (R461, R502); a failed clear is a fault of the unit (R464).
(DESIGN CHOICE, unsafe: log 43) -/
def wakeHandshake (s : State) (u : Nat) (gen shadow again : Bool) : State :=
  match unitDom u with
  | none => s
  | some n =>
    match (dom s n).trans with
    | some (.returning fromOff) =>
      if unitSt s u ≠ 2 then s
      else if !gen || (unit s u).gen ≠ (unit s u).shadowGen then genFail (fenceRequest s u) u
      else if !shadow then fatal s 2
      else if again then unitFault s u 1 0 0
      else
        let s := if u / 4096 = 1 ∧ fromOff = false then updEng s (u % 4096) fun x => { x with st := 2, image := none } else clearUnit s u
        handshakeDone s u
    | _ => s

/-- READY_HANDSHAKE (R502) of a unit, a unit of a waking domain, or the domain itself. -/
def handshake (s : State) (u : Nat) (gen shadow again : Bool) : State :=
  if u / 4096 = 13 then domHandshake s (u % 4096) gen shadow
  else if unitSt s u = 2 then wakeHandshake s u gen shadow again
  else
    let was := unitSt s u
    let s := readyHandshake s u gen shadow again
    if was = 1 ∧ unitSt s u = 0 then answerWaiting s u 0 else s

end Sys2Proof.Machine
end

