-- ==== Sys2Proof/Machine/TlnCmds.lean ====
section
/-! DEFINITION. Meanings of the commands of the timeline unit, the supervisors and the recoat mechanism. A command that names a
palette or a task the device does not hold, or whose condition does not hold, changes nothing. -/

namespace Sys2Proof.Machine

/-- With the palette a reference names. (DEDUCED, safe: log 144) -/
def withPal (s : State) (p : PalRef) (g : Pal → State) : State :=
  match palAt s p.tl p.slot.toNat with
  | some x => g x
  | none => s

/-- With the key of the task a reference names. -/
def withTask (s : State) (k : TaskRef) (g : Nat → State) : State :=
  match palAt s k.tl k.slot.toNat with
  | some x => g (taskKey x.key k.id)
  | none => s

/-- TL_BOUNDARY (R49, R50). -/
def execTlBoundary (t : Fin 64) (s : State) : Res := done (boundary s t)

/-- TL_PREPARE_POINT (R56). -/
def execTlPreparePoint (t : Fin 64) (s : State) : Res := done (if prepareDue s t then releaseSettle (prepare s t) else s)

/-- PALETTE_BIND (R57). -/
def execPaletteBind (t : Fin 64) (s : State) : Res := done (releaseSettle (bindPalette s t))

/-- RECORD_DELIVERY (R68). -/
def execRecordDelivery (s : State) : Res := done (recordDelivery s)

/-- QFULL_RELEASE (R69). -/
def execQfullRelease (p : PalRef) (s : State) : Res := done (withPal s p fun x => if x.held then qfullRelease s x else s)

/-- PARKED_TASK_DELIVERY (R70). -/
def execParkedTaskDelivery (k : TaskRef) (s : State) : Res := done (withTask s k (parkedDelivery s))

/-- TASK_START_TIME (R71). -/
def execTaskStartTime (k : TaskRef) (s : State) : Res := done (withTask s k (startTime s))

/-- INGRESS_CLOSE (R64). -/
def execIngressClose (p : PalRef) (i : Fin 16384) (s : State) : Res := done (withPal s p fun x => ingressClose s x i)

/-- TASK_DISPATCH (R72 to R75). -/
def execTaskDispatch (t : Fin 128) (e : Fin 8) (s : State) : Res := done (taskDispatch s t e)

/-- PROGRAM_LOAD_DONE (R76). -/
def execProgramLoadDone (e : Fin 1024) (s : State) : Res := done (programLoadDone s e)

/-- DMA_TASK_DISPATCH (R342). -/
def execDmaTaskDispatch (t : Fin 128) (s : State) : Res := done (dmaTaskDispatch s t)

/-- PARAM_ENTRY_READ (R343). -/
def execParamEntryRead (k : TaskRef) (j : Fin 4) (out lost : Bool) (s : State) : Res :=
  done (withTask s k fun x => paramRead s x j out lost)

/-- STEAL (R81). -/
def execSteal (thief : Fin 128) (cls : Fin 4) (s : State) : Res := done (steal s thief cls)

/-- TASK_COMPLETION (R77). -/
def execTaskCompletion (e : Fin 1024) (s : State) : Res := done (taskCompletion s e)

/-- HARQ_COMMIT_RESPONSE (R254). (DEDUCED, unsafe: log 143) -/
def execHarqCommitResponse (k : TaskRef) (lost performed : Bool) (s : State) : Res :=
  done (withTask s k fun x => harqCommitResponse s x lost performed)

/-- TASK_DEADLINE (R83). -/
def execTaskDeadline (k : TaskRef) (s : State) : Res := done (withTask s k (taskDeadline s))

/-- TSK_LIMIT_EXPIRY (R78). -/
def execTskLimitExpiry (e : Fin 1024) (s : State) : Res := done (tskLimitExpiry s e)

/-- ENGINE_HALTED (R127). -/
def execEngineHalted (e : Fin 1024) (s : State) : Res := done (engineHalted s e)

/-- SLOT_DONE (R89). -/
def execSlotDone (p : PalRef) (s : State) : Res := done (releaseSettle (withPal s p (slotDone s)))

/-- ENGINE_FAULT (R491). -/
def execEngineFault (e : Fin 1024) (parity : Bool) (site : Fin 16) (addr : Word) (s : State) : Res :=
  done (engineFaultReport s e parity site addr.toNat)

/-- HALT_TIMEOUT (R491). -/
def execHaltTimeout (e : Fin 1024) (s : State) : Res := done (haltTimeout s e)

/-- RECOAT_DISPATCH (R491). -/
def execRecoatDispatch (k : TaskRef) (s : State) : Res := done (withTask s k (recoatDispatch s))

/-- TILE_LOST (R496). -/
def execTileLost (t : Fin 128) (kind : TileFault) (s : State) : Res := done (tileLost s t kind.code)

end Sys2Proof.Machine
end

