-- ==== Sys2Proof/Machine/Queue.lean ====
section
/-! DEFINITION. The queue engines (R421 to R433): doorbells, fetching, the start of commands, and LOAD_PALETTE with its validation
(R66, R67, R564), SLOT_SUBMIT, DMA and RESULT. -/

namespace Sys2Proof.Machine

/-! ## Queue pairs (R421, R423) -/

/-- Queue pairs that a function may enable. -/
def ownPairs (s : State) (f : Nat) : Nat :=
  let n := if accepted s f 0 then 64 else 16
  if f = 0 then n else min n (fld s (Reg.VF_CTL f) F.VF_CTL_NQP)

/-- QP_STAT.ERR: 1 DB_RANGE, 2 FETCH, 4 REFUSED. -/
def setQpErr (s : State) (f q e : Nat) : State := setFld s (qp f q Reg.QP_STAT) F.QP_STAT_ERR e

/-- QP_CTL.EN goes from 0 to 1. -/
def qpEnable (s : State) (f q : Nat) : State :=
  if !swAccepted s f || decide (ownPairs s f ≤ q) then setQpErr s f q 4
  else
    let s := setQpErr (setFld s (qp f q Reg.QP_CTL) F.QP_CTL_EN 1) f q 0
    let s := wr (wr (wr s (qp f q Reg.QP_SQ_HEAD) 0) (qp f q Reg.QP_SQ_TAIL) 0) (qp f q Reg.QP_CQ_HEAD) 0
    setCoal (wr s (qp f q Reg.QP_CQ_TAIL) (putF 0 F.QP_CQ_TAIL_PHASE 1)) f q {}

/-- A doorbell is ignored. -/
def dbError (s : State) (f q : Nat) : State :=
  hifEvt (inc (setQpErr s f q 1) (fnKey f Reg.HIF_DB_ERR_CNT)) f F.HIF_EVT_DB_ERR

/-- SQ_TAIL_DB. -/
def sqTailDb (s : State) (f q x : Nat) : State :=
  if !isSet s (qp f q Reg.QP_CTL) F.QP_CTL_EN || resetting s f then s
  else if sqSize s f q ≤ x then dbError s f q
  else setFld s (qp f q Reg.QP_SQ_TAIL) F.QP_SQ_TAIL_INDEX x

/-- CQ_HEAD_DB. -/
def cqHeadDb (s : State) (f q x : Nat) : State :=
  if !isSet s (qp f q Reg.QP_CTL) F.QP_CTL_EN || resetting s f then s
  else
    let n := cqSize s f q
    let h := fld s (qp f q Reg.QP_CQ_HEAD) F.QP_CQ_HEAD_INDEX
    let t := fld s (qp f q Reg.QP_CQ_TAIL) F.QP_CQ_TAIL_INDEX
    if n ≤ x ∨ (t + n - h) % n < (x + n - h) % n then dbError s f q
    else flushCq n (setFld s (qp f q Reg.QP_CQ_HEAD) F.QP_CQ_HEAD_INDEX x) f q

/-! ## Fetching (R424, R425) -/

/-- Are all bytes of a range of an entry 0? -/
def zeroAt (b : List Byte) (o n : Nat) : Bool := decide (leAt b o n = 0)

/-- The command of an SQ entry, and whether a reserved bit of it is set or a field out of range. (DEDUCED, unsafe: log 53, 57) -/
def decodeCmd (b : List Byte) : HCmd × Bool :=
  let w := leAt b 8 4
  match leAt b 0 1 with
  | 0 => (.nop, false)
  | 1 => (.load (bitAt w 0) (leAt b 0x10 6),
      !(decide (w / 2 = 0) && zeroAt b 0x0C 4 && decide (leAt b 0x10 1 % 64 = 0) && zeroAt b 0x16 2 && zeroAt b 0x18 40))
  | 2 => (.submit (w % 64) ((b.drop 0x10).take 32), !(decide (w / 64 = 0) && zeroAt b 0x0C 4 && zeroAt b 0x30 16))
  | 3 =>
    let c := leAt b 0x0C 4
    let n := leAt b 0x20 4
    (.dma (w % 128) (c % 2 ^ 12) (bitAt c 12) (leAt b 0x10 8) (leAt b 0x18 8) n (leAt b 0x28 8),
      !(decide (w / 128 = 0 ∧ c / 2 ^ 13 = 0 ∧ n ≤ 16777216) && zeroAt b 0x24 4 && (bitAt c 12 || zeroAt b 0x28 8) && zeroAt b 0x30 16))
  | 4 =>
    let n := leAt b 0x20 4
    (.result (w % 64) (leAt b 0x0C 4) (leAt b 0x10 2) (leAt b 0x18 8) n,
      !(decide (w / 64 = 0) && zeroAt b 0x12 2 && zeroAt b 0x14 4 && decide (leAt b 0x18 1 % 4 = 0) && decide (1 ≤ n ∧ n ≤ 16777216) &&
        zeroAt b 0x24 28))
  | 5 => (.mgmt (w % 2 ^ 16) ((b.drop 0x0C).take 52), decide (w / 2 ^ 16 ≠ 0))
  | op => (.bad op, false)

/-- Commands of a function in flight. -/
def inFlight (s : State) (f : Nat) : Nat := (s.hif.cmds.filter fun c => decide (c.f = f)).length

/-- Entries an SQ holds. -/
def sqEntries (s : State) (f q : Nat) : Nat :=
  (fld s (qp f q Reg.QP_SQ_TAIL) F.QP_SQ_TAIL_INDEX + sqSize s f q - fld s (qp f q Reg.QP_SQ_HEAD) F.QP_SQ_HEAD_INDEX) % sqSize s f q

/-- May an SQ be served (R424, R427)? -/
def fetchable (s : State) (f q : Nat) : Bool :=
  isSet s (fnKey f Reg.HIF_CTL) F.HIF_CTL_EN && isSet s (qp f q Reg.QP_CTL) F.QP_CTL_EN && !resetting s f
    && decide (sqEntries s f q ≠ 0) && decide (inFlight s f < 256) && !cqFull s f q && !waits s f q

/-- A fetched entry joins the commands in flight. -/
def takeEntry (s : State) (f q : Nat) : State :=
  let h := fld s (qp f q Reg.QP_SQ_HEAD) F.QP_SQ_HEAD_INDEX
  let b := hostLoad s (rd64 s (qp f q Reg.QP_SQ_BASE_LO) + h * 64) 64
  let (c, bad) := decodeCmd b
  let w := leAt b 0 2
  let x : InFlight := { f := f, q := q, cid := leAt b 2 2, imm := bitAt w 9, fence := bitAt w 8, seq := s.hif.seq,
                        badParam := bad || decide (bits w 10 6 ≠ 0) || !zeroAt b 4 4, started := false, cmd := c }
  let s := setFld s (qp f q Reg.QP_SQ_HEAD) F.QP_SQ_HEAD_INDEX ((h + 1) % sqSize s f q)
  { s with hif := { s.hif with seq := s.hif.seq + 1, cmds := s.hif.cmds ++ [x] } }

/-- A fetch fails: the pair stops. (DEDUCED, unsafe: log 57) -/
def fetchFail (s : State) (f q : Nat) : State :=
  hifEvt (setQpErr (setFld s (qp f q Reg.QP_CTL) F.QP_CTL_EN 0) f q 2) f F.HIF_EVT_FETCH_ERR

/-- One turn of the round robin: up to 8 entries of the next SQ that may be served. -/
def fetchTurn (s : State) (fail : Bool) : State :=
  match firstFrom (fun i => fetchable s ((s.hif.rrNext + i) % 2048 / 64) ((s.hif.rrNext + i) % 64)) 2048 0 with
  | none => s
  | some i =>
    let k := (s.hif.rrNext + i) % 2048
    let (f, q) := (k / 64, k % 64)
    let s := { s with hif := { s.hif with rrNext := (k + 1) % 2048 } }
    if fail || !s.hif.linkTrained then fetchFail s f q
    else (upto (min 8 (min (sqEntries s f q) (256 - inFlight s f)))).foldl (fun s _ => takeEntry s f q) s

/-! ## Starting commands (R424) -/

/-- The command that a pair starts next: its oldest that has not started, which with FENCE awaits every earlier one. -/
def nextCmd (s : State) (f q : Nat) : Option InFlight :=
  match s.hif.cmds.find? fun c => decide (c.f = f ∧ c.q = q ∧ c.started = false) with
  | none => none
  | some c => if c.fence && (s.hif.cmds.any fun x => decide (x.f = f ∧ x.q = q) && x.started) then none else some c

/-- A command starts. -/
def markStarted (s : State) (n : Nat) : State :=
  { s with hif := { s.hif with cmds := s.hif.cmds.map fun c => if c.seq = n then { c with started := true } else c } }

/-- A request enters the mailbox, or finds it full (R433). -/
def mailIn (s : State) (c : InFlight) (m : Nat) (args : List Byte) : State :=
  if 64 ≤ s.hif.mail.length then completeCmd s c.seq stBUSY []
  else { s with hif := { s.hif with mail := s.hif.mail ++ [{ seq := c.seq, f := c.f, mcode := m, args := args }] } }

/-- Commands that need nothing but the queue engines start as soon as they may: those that end with BAD_PARAM or BAD_OPCODE, and
MGMT, which enters the mailbox. `fuel` bounds them. (DEDUCED, unsafe: log 57; DESIGN CHOICE, safe: log 94) -/
def autoStart : Nat → State → Nat → Nat → State
  | 0, s, _, _ => s
  | n + 1, s, f, q =>
    match nextCmd s f q with
    | none => s
    | some c =>
      let s' := markStarted s c.seq
      if c.badParam then autoStart n (completeCmd s' c.seq stBADPARAM []) f q
      else match c.cmd with
        | .bad _ => autoStart n (completeCmd s' c.seq stBADOP []) f q
        | .mgmt m args => autoStart n (mailIn s' c m args) f q
        | _ => s

/-- Every pair starts what it may. (DESIGN CHOICE, safe: log 94) -/
def autoStarts (s : State) : State :=
  (s.hif.cmds.map fun c => (c.f, c.q)).eraseDups.foldl (fun s k => autoStart 256 s k.1 k.2) s

/-- The next command of a pair starts if it is of a kind; `g` is its effect. -/
def startKind (s : State) (f q : Nat) (g : State → InFlight → Option State) : State :=
  let s := autoStart 256 s f q
  match nextCmd s f q with
  | none => s
  | some c =>
    match g (markStarted s c.seq) c with
    | some s => autoStart 256 s f q
    | none => s

/-! ## Validation (R66, R564) -/

/-- Part, index and code of a validation failure. -/
abbrev VFail := Nat × Nat × Nat

/-- The failure of a palette header: the lowest code. -/
def hdrFault (s : State) (f a : Nat) (b : List Byte) (h : PalHdr) : Option VFail :=
  if leAt b 0 4 ≠ 0x504C5431 ∨ leAt b 4 1 ≠ 1 ∨ bits (leAt b 4 4) 10 6 ≠ 0 ∨ leAt b 4 4 / 2 ^ 21 ≠ 0 ∨ leAt b 0x28 88 ≠ 0 then some (0, 0, 1)
  else if h.tasks < 1 ∨ 8192 < h.tasks ∨ 16384 < h.bufs ∨ h.horizon = 0 ∨ leAt b 8 4 / 2 ^ 14 ≠ 0 ∨ leAt b 0x0C 4 / 2 ^ 15 ≠ 0
      ∨ leAt b 0x13 1 ≠ 0 ∨ h.taskOff % 64 ≠ 0 ∨ h.bufOff % 32 ≠ 0
      ∨ rangeIn s f a 128 = false ∨ rangeIn s f (a + h.taskOff) (h.tasks * 64) = false
      ∨ (h.bufs ≠ 0 ∧ rangeIn s f (a + h.bufOff) (h.bufs * 32) = false) then some (0, 0, 3)
  else if h.func ≠ f then some (0, 0, 4)
  else none

/-- The failure of a program table entry. (DEDUCED, unsafe: log 58) -/
def progFault (s : State) (f : Nat) (b : List Byte) : Bool :=
  let img := leAt b 0 6
  let size := leAt b 8 2
  let entry := leAt b 10 2
  decide (leAt b 6 2 ≠ 0 ∨ img % 64 ≠ 0 ∨ size % 8 ≠ 0 ∨ size < 8 ∨ 32768 < size ∨ entry % 8 ≠ 0 ∨ size ≤ entry) || !rangeIn s f img size

/-- The failure of a buffer entry. -/
def bufFault (s : State) (f bufs : Nat) (b : List Byte) : Bool :=
  let e := decodeBuf b
  let link := decide (e.kind = kINGRESS ∨ e.kind = kEGRESS)
  let rsv := decide (7 ≤ e.kind) || !zeroAt b 7 1 || !zeroAt b 0x0B 1 || !zeroAt b 0x0E 2 || decide (leAt b 0x10 4 / 2 ^ 19 ≠ 0) ||
    !zeroAt b 0x17 1 || !zeroAt b 0x1A 2
  let other := (!link && (decide (leAt b 0x10 4 ≠ 0) || decide (e.time ≠ 0))) || (decide (e.kind ≠ kINGRESS) && decide (e.expect ≠ 0)) ||
    (decide (e.kind ≠ kHARQ) && decide (e.handle ≠ 0))
  let size := decide (e.size = 0 ∨ e.size % 64 ≠ 0 ∨ e.base % (if e.kind = kPARAM then 8 else 64) ≠ 0)
  let depth := decide ((e.kind = kCONST ∨ e.kind = kHARQ ∨ e.kind = kPARAM) ∧ e.depth ≠ 1)
  let n := e.depth * e.size
  let range := decide (e.kind ≠ kPARAM) && (!rangeIn s f e.base n || decide (e.base / 2 ^ 24 ≠ (e.base + n - 1) / 2 ^ 24))
  let subst := match e.subst with
    | some x => decide (bufs ≤ x) || decide (e.kind = kEGRESS)
    | none => false
  rsv || other || size || depth || range || (link && !streamsOk s f e) || subst

/-- The first failure of task records from `i` on, in record order; `named`: buffers of kinds EGRESS, HOST and HARQ that an earlier
record names as an output. -/
def recsFault (s : State) (p : Pal) : Nat → Nat → List Nat → Option VFail
  | 0, _, _ => none
  | n + 1, i, named =>
    let b := recBytes s p i
    let outs := ((decodeRec b).outs.filterMap id).filter fun x =>
      decide (x < p.hdr.bufs) && [kEGRESS, kHOST, kHARQ].contains (bufEnt s p x).kind
    let twice := outs.any named.contains
    let code := match recFault s p i b with
      | some c => if twice then some (min c 10) else some c
      | none => if twice then some 10 else none
    match code with
    | some c => some (3, i, c)
    | none => recsFault s p n (i + 1) (outs ++ named)

/-- What the validation of a palette at `a` for function `f` finds (R564). -/
def validateImage (s : State) (f a : Nat) : Option VFail × State :=
  let iss := hostIssuer f
  let bad : Option VFail := some (0, 0, 2)
  if 1024 ≤ s.hif.valid.length then (some (0, 0, 13), s)
  else match fabReads 2 s iss a 128 with
    | (c, b, s) =>
      if c ≠ OKAY then (bad, s)
      else
        let h := readHdr s a
        match hdrFault s f a b h with
        | some x => (some x, s)
        | none =>
          match fabReads 2050 s iss (a + h.taskOff) (h.tasks * 64) with
          | (c, ts, s) =>
            if c ≠ OKAY then (bad, s)
            else match fabReads 2050 s iss (a + h.bufOff) (h.bufs * 32) with
              | (c, es, s) =>
                if c ≠ OKAY then (bad, s)
                else if crcOf 6 (b.take 0x24 ++ List.replicate 4 0 ++ b.drop 0x28 ++ ts ++ es) ≠ leAt b 0x24 4 then (bad, s)
                else programs s h b
where
  /-- The program table, then the buffer entries and the task records. -/
  programs (s : State) (h : PalHdr) (_b : List Byte) : Option VFail × State :=
    if h.progs = 0 then (entries s h, s)
    else if h.prog % 16 ≠ 0 || !rangeIn s f h.prog (h.progs * 16) then (some (1, 0xFFFF, 12), s)
    else match fabReads 4098 s (hostIssuer f) h.prog (h.progs * 16) with
      | (c, ps, s) =>
        if c ≠ OKAY then (some (0, 0, 2), s)
        else match firstFrom (fun i => progFault s f ((ps.drop (i * 16)).take 16)) h.progs 0 with
          | some i => (some (1, i, 12), s)
          | none => (entries s h, s)
  /-- The buffer entries and the task records. -/
  entries (s : State) (h : PalHdr) : Option VFail :=
    let p : Pal := { key := 0, tl := 0, slot := 0, start := 0, addr := a, param := 0, stat := 0, adv := 0, period := 0, hdr := h }
    match firstFrom (fun i => bufFault s f h.bufs (loadN s (a + h.bufOff + i * 32) 32)) h.bufs 0 with
    | some i => some (2, i, 11)
    | none => recsFault s p h.tasks 0 []

/-- A function's validation of the palette at an address. -/
def validOf (s : State) (f a : Nat) : Option Validated := s.hif.valid.find? fun v => decide (v.func = f ∧ v.addr = a)

/-- VALIDATE starts: a palette already validated completes at once. -/
def validateStart (s : State) (c : InFlight) (a : Nat) : State :=
  match validOf s c.f a with
  | some v => loadOk s c.seq v.handle
  | none => s

/-- The validations that run: at most four. (DEDUCED, unsafe: log 61) -/
def validations (s : State) : List InFlight :=
  (s.hif.cmds.filter fun c => c.started && (match c.cmd with | .load false _ => true | _ => false)).take 4

/-- A validation ends; the palette takes a free slot of the table. (DESIGN CHOICE, safe: log 59) -/
def validationDone (s : State) (i : Nat) : State :=
  match (validations s)[i]? with
  | none => s
  | some c =>
    match c.cmd with
    | .load false a =>
      match validOf s c.f a with
      | some v => loadOk s c.seq v.handle
      | none =>
        match validateImage s c.f a with
        | (some (part, index, code), s) => completeCmd s c.seq stVALIDATION [code, index + part * 2 ^ 16, 0]
        | (none, s) =>
          let open_ := (upto 1024).filter fun h => !(s.hif.valid.any fun v => decide (v.handle = h))
          let (j, s) := freeBelow open_.length s
          let h := open_.getD j 0
          let s := { s with hif := { s.hif with valid := s.hif.valid ++ [{ handle := h, addr := a, func := c.f, releasing := false }] } }
          loadOk s c.seq h
    | _ => s

/-! ## Release (R67) -/

/-- RELEASE starts. -/
def releaseStart (s : State) (c : InFlight) (a : Nat) : State :=
  if (validOf s c.f a).isNone then completeCmd s c.seq stDENIED []
  else releaseSettle { s with hif := { s.hif with
    valid := s.hif.valid.map fun v => if v.func = c.f ∧ v.addr = a then { v with releasing := true } else v } }

/-! ## SLOT_SUBMIT (R430) -/

/-- A ring entry is published. (DEDUCED, unsafe: log 61) -/
def slotSubmit (s : State) (c : InFlight) (n : Nat) (entry : List Byte) : State :=
  if tlOwner s n ≠ c.f then completeCmd s c.seq stDENIED []
  else if tlDirect s n then completeCmd s c.seq stBADPARAM []
  else if (tlTail s n + 1) % ringSize s n = tlHead s n then completeCmd s c.seq stRINGFULL []
  else
    let s := (fabWrites 2 s (hostIssuer c.f) (ringBase s n + tlTail s n * 32) entry).2
    let s := setFld s (Reg.TL_TAIL n) F.TL_TAIL_INDEX ((tlTail s n + 1) % ringSize s n)
    completeCmd s c.seq stOK [tlTail s n, tlSlot s n]

/-! ## DMA (R431) -/

/-- A channel has left DRAIN: the DMA command on it completes. -/
def dmaCmdSettle (s : State) (k : Nat) : State :=
  if chBusy s k then s
  else (s.hif.cmds.filter fun c => c.started && (match c.cmd with | .dma x _ _ _ _ _ _ => decide (x = k) | _ => false)).foldl (fun s c =>
    completeCmd s c.seq (if chState s k = 0 then stOK else stDMAERR)
      [chErr s k, (rd s (chReg k Reg.CH_CRC_RESULT)).toNat, (rd s (chReg k Reg.CH_DONE_BYTES)).toNat, (rd s (chReg k Reg.CH_DESC_CNT)).toNat,
       (rd s (chReg k Reg.CH_ERR_ADDR_LO)).toNat]) s

/-- What follows when a channel's state may have changed: its pair of a DMA-class task, pairs that wait for a channel, its DMA
command. -/
def chAfter (s : State) (k : Nat) : State := dmaCmdSettle (retryPairs (pairSettle s k)) k

/-- A DMA command programs and starts its channel. (DEDUCED, unsafe: log 61) -/
def dmaCommand (s : State) (c : InFlight) (k ctrl : Nat) (chain : Bool) (src dst count desc : Nat) : State :=
  if decide (bits ctrl 3 3 = 6) && !accepted s c.f 7 then
    completeCmd s c.seq stBADPARAM []
  else if chFunc s k ≠ c.f ∨ chDisp s k = true then completeCmd s c.seq stDENIED []
  else if !startable s k || !domLive s (16 + k / 32) then completeCmd s c.seq stBUSY []
  else
    let s := wr64 (wr64 s (chReg k Reg.CH_SRC_LO) src) (chReg k Reg.CH_DST_LO) dst
    let s := wr64 (wr s (chReg k Reg.CH_COUNT) (w32 count)) (chReg k Reg.CH_DESC_LO) desc
    chAfter (ctlWrite s k (w32 (ctrl + chain.toNat * 2 ^ 29 + 2 ^ 30)) false) k

/-! ## RESULT (R432) -/

/-- A RESULT is armed, or completes at once. (DESIGN CHOICE, unsafe: log 54) -/
def resultStart (s : State) (c : InFlight) (t slot b haddr maxlen : Nat) : State :=
  if !accepted s c.f 3 then completeCmd s c.seq stUNSUPPORTED []
  else if tlOwner s t ≠ c.f then completeCmd s c.seq stDENIED []
  else if 1024 ≤ (s.hif.armed.filter fun a => decide (a.f = c.f)).length then completeCmd s c.seq stBUSY []
  else if s.hif.reported.contains (t, slot) then completeCmd s c.seq stGONE []
  else { s with hif := { s.hif with armed := s.hif.armed ++ [{ seq := c.seq, f := c.f, tl := t, slot := slot, buf := b, haddr := haddr, maxlen := maxlen }] } }

/-- Copies a buffer to host memory, 256 bytes a read: the bytes written, and whether no read failed. `fuel` bounds the
reads. (DESIGN CHOICE, unsafe: log 62) -/
def copyOut : Nat → State → Nat → Nat → Nat → Nat → Nat → Nat × Bool × State
  | 0, s, _, _, _, _, done => (done, true, s)
  | k + 1, s, f, a, h, n, done =>
    if n = 0 then (done, true, s)
    else
      let m := chunk a n
      match fabRead s (hostIssuer f) a m with
      | (c, bs, s) =>
        if c ≠ OKAY then (done, false, s)
        else copyOut k (if s.hif.linkTrained then hostStore s h bs else s) f (a + m) (h + m) (n - m) (done + m)

/-- A RESULT copy ends: of those whose slot has been reported, the first armed. -/
def resultCopy (s : State) : State :=
  match s.hif.armed.find? fun a => a.copy.isSome with
  | none => s
  | some a =>
    let (addr, n) := a.copy.getD (0, 0)
    let s := { s with hif := { s.hif with armed := s.hif.armed.filter fun x => decide (x.seq ≠ a.seq) } }
    match copyOut 65540 s a.f addr a.haddr n 0 with
    | (len, ok, s) => completeCmd s a.seq (if ok then stOK else stCOPYERR) [len]

end Sys2Proof.Machine
end

