-- ==== Sys2Proof/Machine/Access.lean ====
section
/-! DEFINITION. Requests to every place of the device address space (R37 to R41): memories, job ports (R232), input windows (R265),
request words (R339), the recorder and the image of the register shadow (R41). -/

namespace Sys2Proof.Machine

/-- The domain of the block at a BAR0 offset (R43): sectors 0 to 15, strips 16 to 19, 20 FAB, 21 MEM, 22 HST, 23 LNK, 24 AON. -/
def blockDomain (a : Nat) : Nat :=
  if a < 0x10000 then 22
  else if a < 0x20000 then 20
  else if a < 0x100000 then 24
  else if a < 0x200000 then 20
  else if a < 0x300000 then 21
  else if a < 0x400000 then 16 + (a - 0x300000) / 0x4000 / 2
  else if a < 0x800000 then 23
  else if a < 0xA00000 then 16 + (a - 0x800000) / 0x10000
  else if a < 0xC00000 then 16 + (a - 0xA00000) / 0x4000 / 8
  else if a < 0x1000000 then 16 + (a - 0xC00000) / 0x1000 / 4
  else if a < 0x1100000 then 24
  else (a - 0x1100000) / 0x10000 / 8

/-- Is a domain's block there for the agent: ACT or IDLE, the lanes not minimal? -/
def blockLive (s : State) (d : Nat) : Bool := domLive s d && !(decide (d = 23) && lnkMinimal s)

/-- Is a register a status register: a field of it is RO, RC or W1C (R516)? -/
def isStatus (d : RegDesc) : Bool := d.fields.any fun f => decide (f.acc = .ro ∨ f.acc = .rc ∨ f.acc = .w1c)

/-- The answer that stands for a value that cannot be had (R519). -/
abbrev NOTAVAIL : Word := 0xFFFF0A0A

/-- Requester code of a read that no requester makes: it has no captures. -/
abbrev noOne : Nat := 255

/-- The write that waits for a sleeping domain at a register (R517). -/
def lateOf (s : State) (a : Nat) : Option Word := (s.mgt.late.find? fun e => decide (e.1 = a)).map (·.2)

/-- What a sleeping domain's configuration register shows: the shadow's value. -/
def shadowPeek (s : State) (who f a : Nat) : Word := (lateOf s (canonOff a)).getD (peek s who f a)

/-- A word of the shadow's image (R41). (DEDUCED, unsafe: log 63) -/
def shadowWord (s : State) (a : Nat) : Word :=
  match findReg a with
  | none => 0
  | some (d, _) => if isStatus d && !blockLive s (blockDomain a) then NOTAVAIL else shadowPeek s noOne 0 a

/-- Bytes of the shadow's image. -/
def shadowBytes (s : State) (off n : Nat) : List Byte :=
  (upto n).map fun i => BitVec.ofNat 8 ((shadowWord s ((off + i) / 4 * 4)).toNat / 2 ^ ((off + i) % 4 * 8))

/-- Bytes of the recorder's buffer (R503). -/
def sepiaBytes (s : State) (off n : Nat) : List Byte :=
  (upto n).map fun i => (entryBytes (sepEntry s ((off + i) / 16))).getD ((off + i) % 16) 0

/-- The channel of a request word, if an offset in a strip window and a length name one. -/
def requestWord (q off n : Nat) : Option Nat :=
  let o := off - 0x60000000
  if 0x60000000 ≤ off ∧ o / 0x10000 < 2 ∧ o % 0x40 = 0 ∧ o % 0x10000 < 0x400 ∧ n = 4 then
    some (q * 32 + o / 0x10000 * 16 + o % 0x10000 / 0x40)
  else none

/-- The unit that a 64-byte write to a strip window reaches: a job port by its kind, or a CXU's input window (8 and its
number). -/
def portAt (q off n : Nat) : Option (Nat × Nat) :=
  if off % 64 ≠ 0 ∨ n ≠ 64 then none
  else match portKind off with
    | some k => some (k, 0)
    | none =>
      if off / 0x10000000 = 4 ∧ off % 0x2000000 < 0x10000 then some (8, q * 8 + off % 0x10000000 / 0x2000000) else none

/-- A read request: code and bytes. (DEDUCED, unsafe: log 63) -/
def accRead (s : State) (iss : Issuer) (a n : Nat) : Nat × List Byte × State :=
  let (c, out) := precheck s iss a n false
  let s := if out then rasDenied s else s
  let fail (c : Nat) (s : State) : Nat × List Byte × State := (c, [], nocFail s iss a c)
  if c ≠ OKAY then fail c s
  else match target a with
    | .strip q off =>
      let s := wakeIdle s (16 + q)
      match requestWord q off n with
      | some k => (OKAY, leBytes 4 (requestRead s k), s)
      | none => fail DECERR s
    | .sepia off =>
      if (upto (n / 16 + 2)).any fun i => decide ((off / 16 + i) * 16 < off + n) && Tab.get (fun _ => false) s.ras.badEntries (off / 16 + i)
      then fail PARERR s else (OKAY, sepiaBytes s off n, s)
    | .image off => (OKAY, shadowBytes s off n, s)
    | _ => if isMemory a then memRead s a n else fail DECERR s

/-- A write that has passed its checks: its code. -/
def writeAt (s : State) (iss : Issuer) (a : Nat) (bs : List Byte) : Nat × State :=
  match target a with
  | .strip q off =>
    let s := wakeIdle s (16 + q)
    match requestWord q off bs.length with
    | some k => (OKAY, requestWrite s k (leNat bs))
    | none =>
      match portAt q off bs.length with
      | some (8, n) => (OKAY, cxuMemWrite s n bs)
      | some (kind, _) => (OKAY, post s q kind iss.eng iss.func (BitVec.ofNat 512 (leNat bs)))
      | none => (DECERR, s)
  | _ => if isMemory a then (OKAY, memWrite s a bs) else (DECERR, s)

/-- A non-posted write request: its code. -/
def accWrite (s : State) (iss : Issuer) (a : Nat) (bs : List Byte) : Nat × State :=
  let (c, out) := precheck s iss a bs.length true
  let s := if out then rasDenied s else s
  let (c, s) := if c = OKAY then writeAt s iss a bs else (c, s)
  if c = OKAY then (c, s) else (c, nocFail s iss a c)

/-- A posted write request: the code that an answer would have carried. -/
def accPost (s : State) (iss : Issuer) (a : Nat) (bs : List Byte) : Nat × State :=
  let (c, out) := precheck s iss a bs.length true
  let s := if out then rasDenied s else s
  let (c, s) := if c = OKAY then writeAt s iss a bs else (c, s)
  if c = OKAY then (c, s) else if c = FENCED then (c, fenceDrop s a) else (c, nocFail s iss a c)

end Sys2Proof.Machine
end

