-- ==== Sys2Proof/Machine/EngAccess.lean ====
section
/-! DEFINITION. Responses to the requests of engines (R77, R106, R128). -/

namespace Sys2Proof.Machine

/-- A request whose answer may be lost (R314): what the issuer receives. A lost request performs nothing. (DEDUCED, safe: log 101) -/
def delivered {α : Type} (d : Delivery) (s : State) (iss : Issuer) (a : Nat) (none_ : α) (perform : State → Nat × α × State) :
    Nat × α × State :=
  match d with
  | .requestLost => (TIMEOUT, none_, nocFail s iss a TIMEOUT)
  | .responseLost => (TIMEOUT, none_, nocFail (perform s).2.2 iss a TIMEOUT)
  | _ => perform s

/-- A read whose answer may be lost. -/
def readVia (d : Delivery) (s : State) (iss : Issuer) (a n : Nat) : Nat × List Byte × State :=
  delivered d s iss a [] fun s => accRead s iss a n

/-- A write whose answer may be lost. -/
def writeVia (d : Delivery) (s : State) (iss : Issuer) (a : Nat) (bs : List Byte) : Nat × State :=
  match delivered d s iss a () fun s => let (c, s) := accWrite s iss a bs; (c, (), s) with
  | (c, _, s) => (c, s)

/-- Does a store of the engine that has not been answered touch the 64-byte units of a load's request? -/
def storesAhead (x : EngS) (dev n : Nat) : Bool :=
  x.stores.any fun w => decide (w.dev / 64 ≤ (dev + n - 1) / 64 ∧ dev / 64 ≤ (w.dev + w.data.length - 1) / 64)

/-- The first request of a frozen load is answered. (DESIGN CHOICE, safe: log 64) -/
def loadResponse (s : State) (e : Nat) (d : Delivery) : State :=
  let x := eng s e
  match x.frozen with
  | none => s
  | some f =>
    match f.reqs with
    | [] => s
    | (la, dev, n, win) :: rest =>
      if storesAhead x dev n then s
      else match (if win then readVia d s (engIssuer e x.func) dev n else memRead s dev n) with
        | (c, bs, s) =>
          if c = PARERR ∨ c = TIMEOUT then engFault (cp3Squash s e) e (if c = PARERR then 1 else 5) (siteOf la) la
          else
            let f := { f with
              reqs := rest
              got := if c = OKAY then f.got ++ ((upto n).map (la + ·)).zip bs else f.got
              bad := if c = OKAY then f.bad else f.bad ++ [(la, n)] }
            if rest.isEmpty then finishLoad s e f else updEng s e fun x => { x with frozen := some f }

/-- What an error response to a store means for its engine: nothing when the task that issued it has left. -/
def storeError (s : State) (e : Nat) (w : EStore) (c : Nat) : State :=
  let x := eng s e
  if w.seq < x.base ∨ x.task = none then s
  else if c = TIMEOUT ∨ c = PARERR then engFault s e (if c = PARERR then 1 else 5) (siteOf w.addr) w.addr
  else if x.ended then setEng s e { x with storeErr := true }
  else if x.badSeq = some w.seq then s
  else setEng s e { x with badSeq := some w.seq, impAcc := x.impAcc.or (some w.addr) }

/-- The first store that awaits its response is performed and answered. (DESIGN CHOICE, safe: log 64; DEDUCED, unsafe: log 113) -/
def storeResponse (s : State) (e : Nat) (d : Delivery) : State :=
  let x := eng s e
  match x.stores with
  | [] => s
  | w :: rest =>
    let s := setEng s e { x with stores := rest }
    match (if w.win then writeVia d s (engIssuer e x.func) w.dev w.data else (OKAY, memWrite s w.dev w.data)) with
    | (c, s) => if c = OKAY then s else storeError s e w c

/-- ENGINE_LOAD_RESPONSE (R106). (DEDUCED, unsafe: log 115) -/
def execEngineLoadResponse (e : Fin 1024) (d : Delivery) (s : State) : Res := done (loadResponse s e d)

/-- ENGINE_STORE_RESPONSE (R106). -/
def execEngineStoreResponse (e : Fin 1024) (d : Delivery) (s : State) : Res := done (storeResponse s e d)

end Sys2Proof.Machine
end

