-- ==== Sys2Proof/Machine/Bar4.lean ====
section
/-! DEFINITION. BAR4, the host's window onto device memory (R415 to R418). -/

namespace Sys2Proof.Machine

/-- A command that names a virtual function shows that it is enabled. (DESIGN CHOICE, unsafe: log 29) -/
def vfSeen (s : State) (f : Nat) : State :=
  if f = 0 ∨ vfOn s f = true then s else { s with hif := { s.hif with vfs := s.hif.vfs ||| 2 ^ f } }

/-- The device address of a BAR4 offset (R416); none where the offset is reserved. -/
def bar4Addr (o : Nat) : Option Nat :=
  if o < 0x800000000 then some o
  else if o < 0x880000000 then some (0x100000000000 + (o - 0x800000000))
  else none

/-- An error of a BAR4 request at an offset (R417). -/
def bar4Error (s : State) (f o : Nat) : State :=
  let s := inc s (fnKey f Reg.HIF_BAR4_ERR_CNT)
  let s := if isSet s (fnKey f Reg.HIF_EVT) F.HIF_EVT_BAR4_ERR then s else wr64 s (fnKey f Reg.HIF_BAR4_ERR_ADDR_LO) o
  hifEvt s f F.HIF_EVT_BAR4_ERR

/-- How a read completes that has a response code: 0 success, 1 poisoned, 2 Unsupported Request, 3 Completer Abort. -/
def bar4Outcome (c : Nat) : Nat :=
  if c = OKAY then 0 else if c = PARERR then 1 else if c = DECERR ∨ c = DENIED then 2 else 3

/-- A read arrives. (DEDUCED, unsafe: log 68, 75) -/
def bar4Read (s : State) (f tag o n : Nat) : State :=
  let s := vfSeen s f
  if !s.hif.linkTrained then s
  else if !s.hif.bar4En then emit s (.pcie f tag 2 [])
  else if (bar4Addr o).isNone then emit (bar4Error s f o) (.pcie f tag 2 [])
  else { s with hif := { s.hif with bar4 := s.hif.bar4 ++
    [{ f := f, tag := tag, write := false, off := o, len := n, data := [], done := 0, outcome := 0 }] } }

/-- A write arrives. (DEDUCED, unsafe: log 75) -/
def bar4Write (s : State) (f o : Nat) (bs : List Byte) : State :=
  let s := vfSeen s f
  if !s.hif.linkTrained || !s.hif.bar4En then s
  else if (bar4Addr o).isNone then bar4Error s f o
  else { s with hif := { s.hif with bar4 := s.hif.bar4 ++
    [{ f := f, tag := 0, write := true, off := o, len := bs.length, data := bs, done := 0, outcome := 0 }] } }

/-- Replaces the first BAR4 request of a function, or takes it out. -/
def bar4Set (f : Nat) (x : Option Bar4Req) : List Bar4Req → List Bar4Req
  | [] => []
  | r :: rs => if r.f = f then x.toList ++ rs else r :: bar4Set f x rs

/-- Free bytes. -/
def freeBytes (n : Nat) (s : State) : List Byte × State := let (v, s) := free (8 * n) s; (leBytes n v, s)

/-- The next part of the first request of a function is performed and answered; a request whose last part it is completes. A part at a
reserved offset, which no PCIe request from a valid one reaches, goes to a reserved device address.
(DESIGN CHOICE, safe: log 2; DEDUCED, safe: log 69) -/
def bar4Part (s : State) (f : Nat) (d : Delivery) : State :=
  match s.hif.bar4.find? fun r => decide (r.f = f) with
  | none => s
  | some r =>
    let o := r.off + r.done
    let a := (bar4Addr o).getD 0x080000000000
    let n := chunk a (r.len - r.done)
    let put (s : State) (x : Option Bar4Req) : State := { s with hif := { s.hif with bar4 := bar4Set f x s.hif.bar4 } }
    let next := { r with done := r.done + n }
    if r.write then
      match writeVia d s (hostIssuer f) a ((r.data.drop r.done).take n) with
      | (c, s) => put (if c = OKAY then s else bar4Error s f o) (if next.done < r.len then some next else none)
    else
      match readVia d s (hostIssuer f) a n with
      | (c, bs, s) =>
        let s := if c = OKAY then s else bar4Error s f o
        let (bs, s) := if c = OKAY then (bs, s) else freeBytes n s
        let next := { next with data := r.data ++ bs, outcome := max r.outcome (bar4Outcome c) }
        if next.done < r.len then put s (some next)
        else if s.hif.linkTrained then emit (put s none) (.pcie f r.tag next.outcome (if next.outcome ≤ 1 then next.data else []))
        else put s none

/-- Requests of a function up to its last write: what a register write of the function waits for (R418). -/
def lastWrite (rs : List Bar4Req) : Nat :=
  rs.length - (rs.reverse.findIdx fun r => r.write)

/-- The BAR4 requests of a function before and with its last write are performed. `fuel` bounds their parts. (DEDUCED, unsafe: log 68) -/
def drainBar4 : Nat → State → Nat → State
  | 0, s, _ => s
  | k + 1, s, f => if lastWrite (s.hif.bar4.filter fun r => decide (r.f = f)) = 0 then s else drainBar4 k (bar4Part s f .delivered) f

/-- BAR4_READ (R416): tag, offset, length. -/
def execBar4Read (f : Fin 32) (tag : BitVec 14) (off : BitVec 36) (n : Fin 4097) (s : State) : Res :=
  done (bar4Read s f tag.toNat off.toNat n)

/-- BAR4_WRITE (R416). -/
def execBar4Write (f : Fin 32) (off : BitVec 36) (bs : List Byte) (s : State) : Res :=
  done (bar4Write s f off.toNat bs)

/-- BAR4_RESPONSE (R417). -/
def execBar4Response (f : Fin 32) (d : Delivery) (s : State) : Res := done (bar4Part s f d)

end Sys2Proof.Machine
end

