-- ==== Sys2Proof/Machine/FnReset.lean ====
section
/-! DEFINITION. Function level reset (R437, R438), the loss and return of the PCIe link (R439), and the reset of the HST
domain (R528, R530). -/

namespace Sys2Proof.Machine

/-- Unit code of a function (R505). -/
abbrev uFn (f : Nat) : Nat := 0xF000 + f

/-- The timelines of a function stop (R53). -/
def stopTimelines (s : State) (f : Nat) : State :=
  (upto 64).foldl (fun s n => if tlOwner s n = f then setFld s (Reg.TL_CTL n) F.TL_CTL_EN 0 else s) s

/-- The DMA channels of a function receive STOP. -/
def stopChannels (s : State) (f : Nat) : State :=
  (upto 128).foldl (fun s k => if chFunc s k = f ∧ chDisp s k = false ∧ chBusy s k = true then chAfter (chStopCmd s k) k else s) s

/-- What of a function's commands is dropped as its reset begins: those that have not started, its armed RESULTs, its mailbox
requests, its completions that wait. (DEDUCED, unsafe: log 78) -/
def dropWork (s : State) (f : Nat) : State :=
  let lost (n : Nat) : Bool := s.hif.armed.any (fun a => decide (a.f = f ∧ a.seq = n)) || s.hif.mail.any fun m => decide (m.f = f ∧ m.seq = n)
  { s with hif := { s.hif with
    cmds := s.hif.cmds.filter fun c => decide (c.f ≠ f) || (c.started && !lost c.seq)
    waiting := s.hif.waiting.filter fun w => decide (w.f ≠ f)
    armed := s.hif.armed.filter fun a => decide (a.f ≠ f)
    mail := s.hif.mail.filter fun m => decide (m.f ≠ f) } }

/-- Steps 1 to 4 of R437 for a function. (DEDUCED, unsafe: log 78) -/
def resetBegin (s : State) (f : Nat) : State :=
  if resetting s f then s
  else
    let s := sep s 0x0E (uFn f) 2 f
    let s := { s with hif := { s.hif with resetting := s.hif.resetting ++ [f] } }
    stopChannels (dropWork (stopTimelines s f) f) f

/-- The enabled virtual functions. -/
def enabledVfs (s : State) : List Nat := (upto 32).filter fun f => decide (f ≠ 0) && vfOn s f

/-- A reset of a function begins; that of the physical function takes every enabled virtual one with it and clears VF Enable
(R438). -/
def flrBegin (s : State) (f : Nat) : State :=
  if f ≠ 0 then resetBegin s f
  else
    let s := (enabledVfs s).foldl resetBegin s
    resetBegin { s with hif := { s.hif with vfs := 0 } } 0

/-- The HIF registers, queue pairs, MSI-X table and swatch registers of a function return to their reset values; VF_CTL
stays. -/
def resetFnRegs (s : State) (f : Nat) : State :=
  let s := resetRange s (fnKey f 0x100) (fnKey f 0x3000)
  let s := if f = 0 then s else resetRange s (fnKey f 0x3000) (fnKey f 0x7000)
  let s := resetRange s (fnKey f 0x7000) (fnKey f 0x10000)
  { s with hif := { s.hif with coal := s.hif.coal.filter fun e => decide (e.1 / 64 ≠ f) } }

/-- Steps 6 and 7 of R437. -/
def resetFinish (s : State) (f : Nat) : State :=
  let s := releaseSettle { s with hif := { s.hif with
    valid := s.hif.valid.map fun v => if v.func = f then { v with releasing := true } else v } }
  let s := { s with hif := { s.hif with cmds := s.hif.cmds.filter fun c => decide (c.f ≠ f) } }
  let s := resetFnRegs s f
  { s with hif := { s.hif with resetting := s.hif.resetting.filter fun x => decide (x ≠ f) } }

/-- Functions whose resets end before that of `f`, then `f`. -/
def resetOrder (s : State) (f : Nat) : List Nat :=
  if f = 0 then (s.hif.resetting.filter fun x => decide (x ≠ 0)) ++ [0] else [f]

/-- A reset ends, once every BAR4 request of its functions has been answered. (DEDUCED, unsafe: log 78) -/
def flrComplete (s : State) (f : Nat) : State :=
  if !resetting s f || s.hif.bar4.any (fun r => (resetOrder s f).contains r.f) then s
  else (resetOrder s f).foldl resetFinish s

/-- The Data Link Layer goes down (R439). -/
def linkDown (s : State) : State :=
  if !s.hif.linkTrained then s
  else hifEvt { s with hif := { s.hif with linkTrained := false } } 0 F.HIF_EVT_LINK_DOWN

/-- It comes up again. -/
def linkUp (s : State) : State := if s.hif.hstReset then s else { s with hif := { s.hif with linkTrained := true } }

/-- The HST domain is reset (R528): the link, and R438 for every function, with no access left to wait for. (DEDUCED, unsafe: log 79) -/
def hostReset (s : State) : State :=
  let s := flrBegin { s with hif := { s.hif with hstReset := true, linkTrained := false, bar4 := [] } } 0
  flrComplete s 0

/-- HST leaves its reset and trains the link (R530). -/
def hostRelease (s : State) : State := { s with hif := { s.hif with hstReset := false } }

/-- A sector is reset through OFF and a wake (R528). (DEDUCED, unsafe: log 78) -/
def sectorReset (s : State) (n : Nat) : State :=
  if domSt s n = 6 then s
  else domRequest (sep s 0x0E (uDom n) 3 n) n { st := 3, drain := false, reason := 0, reset := true }

/-- FUNCTION_LEVEL_RESET (R437, R438); `vfClear`: VF Enable of the function is cleared. (DESIGN CHOICE, unsafe: log 29) -/
def execFunctionLevelReset (f : Fin 32) (vfClear : Bool) (s : State) : Res :=
  let s := flrBegin (vfSeen s f) f
  done (if vfClear = true ∧ f.val ≠ 0 then { s with hif := { s.hif with vfs := s.hif.vfs &&& (2 ^ 32 - 1 - 2 ^ f.val) } } else s)

/-- FLR_COMPLETE (R437). -/
def execFlrComplete (f : Fin 32) (s : State) : Res := done (flrComplete s f)

/-- PCIE_LINK_DOWN (R439). -/
def execPcieLinkDown (s : State) : Res := done (linkDown s)

/-- PCIE_LINK_UP (R439). -/
def execPcieLinkUp (s : State) : Res := done (linkUp s)

end Sys2Proof.Machine
end

