-- ==== Sys2Proof/Machine/Noc.lean ====
section
/-! DEFINITION. Routers, route-arounds and probes (R296 to R312, R322), and the caches of the control region (R316, R317). -/

namespace Sys2Proof.Machine

/-! ## The mesh (R17, R296) -/

/-- The tile at a mesh position. -/
def tileAt (x y : Nat) : Nat := (x / 8 + 2 * (y / 4)) * 32 + (x / 4 % 2 + 2 * (y / 2 % 2)) * 8 + y % 2 * 4 + x % 4

/-- The position of the boundary router that an edge router's primary link reaches. -/
def edgeXY (r : Nat) : Nat × Nat :=
  if r < 144 then (r - 128, 0) else if r < 160 then (r - 144, 7) else if r < 168 then (0, r - 160) else (15, r - 168)

/-- The position that its secondary link reaches. -/
def edgeXY2 (r : Nat) : Nat × Nat :=
  let (x, y) := edgeXY r
  if r < 160 then (x ^^^ 1, y) else (x, y ^^^ 1)

/-- The edge ports of a boundary router, X0 first: the edge router and its port, 0 for its primary link, 1 for its
secondary. (DESIGN CHOICE, unsafe: log 48) -/
def edgePorts (x y : Nat) : List (Nat × Nat) :=
  (if y = 0 then [(128 + x, 0), (128 + (x ^^^ 1), 1)] else []) ++ (if y = 7 then [(144 + x, 0), (144 + (x ^^^ 1), 1)] else []) ++
    (if x = 0 then [(160 + y, 0), (160 + (y ^^^ 1), 1)] else []) ++ (if x = 15 then [(168 + y, 0), (168 + (y ^^^ 1), 1)] else [])

/-- Where an element stands in a list. -/
def placeOf (x : Nat × Nat) : List (Nat × Nat) → Option Nat
  | [] => none
  | y :: ys => if x = y then some 0 else (placeOf x ys).map (· + 1)

/-- The router and port that face a port through its link: 0 N, 1 S, 2 E, 3 W, 4 L, 5 to 8 X0 to X3; an edge router's links
are ports 0 and 1, its sub-ports X0 to X3. -/
def facing (r p : Nat) : Option (Nat × Nat) :=
  if r < 128 then
    let (x, y) := tileXY r
    match p with
    | 0 => if 0 < y then some (tileAt x (y - 1), 1) else none
    | 1 => if y < 7 then some (tileAt x (y + 1), 0) else none
    | 2 => if x < 15 then some (tileAt (x + 1) y, 3) else none
    | 3 => if 0 < x then some (tileAt (x - 1) y, 2) else none
    | 4 => none
    | _ => (edgePorts x y)[p - 5]?
  else if 1 < p then none
  else
    let (x, y) := if p = 0 then edgeXY r else edgeXY2 r
    (placeOf (r, p) (edgePorts x y)).map fun i => (tileAt x y, 5 + i)

/-- The port of the default route, x before y (R302). -/
def xyPort (r tgt dsub : Nat) : Nat :=
  if r = tgt then (if r < 128 then 4 else 5 + dsub % 4)
  else if 128 ≤ r then 0
  else
    let (x, y) := tileXY r
    let (u, v) := if tgt < 128 then tileXY tgt else edgeXY tgt
    if x < u then 2 else if u < x then 3 else if y < v then 1 else if v < y then 0
    else 5 + (placeOf (tgt, 0) (edgePorts x y)).getD 0

/-! ## Headers (R298, R299) -/

abbrev hTGT (h : Nat) : Nat := bits h 0 8
abbrev hDSUB (h : Nat) : Nat := bits h 8 3
abbrev hSRC (h : Nat) : Nat := bits h 11 8
abbrev hVN (h : Nat) : Nat := bits h 22 1
abbrev hEPOCH (h : Nat) : Nat := bits h 23 1
abbrev hLAST (h : Nat) : Bool := bitAt h 26
abbrev hFUNC (h : Nat) : Nat := bits h 28 5
abbrev hTAG (h : Nat) : Nat := bits h 33 7

/-- Sets a bit of a number. -/
def setBit (n i : Nat) : Nat := if bitAt n i then n else n + 2 ^ i

/-- Sets the EPOCH of a header. -/
def putEpoch (h e : Nat) : Nat := h - hEPOCH h * 2 ^ 23 + e * 2 ^ 23

/-- The address that a first flit carries (R299). -/
def flitAddr (cls payload : Nat) : Option Nat :=
  match cls with
  | 0 => some (bits payload 0 48)
  | 1 => some (bits payload 0 48)
  | 3 => some (bits payload 16 48)
  | 4 => some (bits payload 0 48)
  | _ => none

/-- The network of a class: 0 REQ, 1 RSP, 2 SNP, 3 DAT. -/
def netOf (cls : Nat) : Nat := match cls with | 0 => 0 | 1 => 3 | 2 => 3 | 3 => 1 | _ => 2

/-- Payload bytes of a flit of a class. -/
def payBytes (cls : Nat) : Nat := match cls with | 0 => 16 | 1 => 64 | 2 => 64 | 3 => 16 | _ => 8

/-! ## Probes (R322) -/

/-- Does a first flit match the filters of a probe? -/
def probeMatch (s : State) (p cls hdr payload : Nat) : Bool :=
  let f := rd s (Reg.PRB_FILT p)
  let vn := getF f F.PRB_FILT_VN
  let c := getF f F.PRB_FILT_CLASS
  let mask := rd64 s (Reg.PRB_MASK_LO p) % 2 ^ 48
  decide (vn = 0 ∨ vn = hVN hdr + 1) && decide (c = 0 ∨ c = cls + 1)
    && (getF f F.PRB_FILT_FUNC_EN = 0 || decide (getF f F.PRB_FILT_FUNC = hFUNC hdr))
    && (getF f F.PRB_FILT_SRC_EN = 0 || decide (getF f F.PRB_FILT_SRC = hSRC hdr))
    && (getF f F.PRB_FILT_TGT_EN = 0 || decide (getF f F.PRB_FILT_TGT = hTGT hdr))
    && (match flitAddr cls payload with
      | some a => decide (a &&& mask = rd64 s (Reg.PRB_ADDR_LO p) % 2 ^ 48 &&& mask)
      | none => decide (mask = 0))

/-- A trace record is written into the probe's ring, or dropped when 64 records wait. -/
def traceRecord (s : State) (p hdr payload : Nat) (full : Bool) : State :=
  if full then evt (inc s (Reg.PRB_TDROP p)) Reg.NOC_EVT F.NOC_EVT_TRACE_DROP
  else
    let i := fld s (Reg.PRB_TWR p) F.PRB_TWR_INDEX
    let r := leBytes 8 (raw s) ++ leBytes 8 hdr ++ leBytes 16 payload
    let iss : Issuer := { func := 0, src := 136, scopes := [] }
    let (_, s) := fabPost s iss (rd64 s (Reg.PRB_TBASE_LO p) % 2 ^ 48 / 4096 * 4096 + i * 32) r
    setFld s (Reg.PRB_TWR p) F.PRB_TWR_INDEX ((i + 1) % (2 ^ fld s (Reg.PRB_TSIZE p) F.PRB_TSIZE_LOG2 / 32))

/-- A probe sees a flit of its port. (DESIGN CHOICE, safe: log 36) -/
def probe (s : State) (p cls hdr payload : Nat) (first full : Bool) : State :=
  let key := p * 16 + cls * 2 + hVN hdr
  let hit := if first then probeMatch s p cls hdr payload else Tab.get (fun _ => false) s.noc.probing key
  let s := { s with noc := { s.noc with probing := Tab.put (fun _ => false) s.noc.probing key (hit && !hLAST hdr) } }
  if !hit then s
  else match fld s (Reg.PRB_CTL p) F.PRB_CTL_MODE with
    | 0 => if first then wr64 s (Reg.PRB_CNT_LO p) (rd64 s (Reg.PRB_CNT_LO p) + 1) else s
    | 1 => wr64 s (Reg.PRB_CNT_LO p) (rd64 s (Reg.PRB_CNT_LO p) + payBytes cls)
    | _ => if first then traceRecord s p hdr payload full else s

/-- The probes that watch a port see a flit; `full` has the bit of a probe set whose 64 records wait. -/
def probes (s : State) (r port cls hdr payload : Nat) (first : Bool) (full : Nat) : State :=
  (upto 32).foldl (fun s p =>
    let w := rd s (Reg.PRB_POINT p)
    if isSet s (Reg.PRB_CTL p) F.PRB_CTL_EN && decide (getF w F.PRB_POINT_ROUTER = r ∧ getF w F.PRB_POINT_PORT = port ∧
        getF w F.PRB_POINT_NET = netOf cls) then probe s p cls hdr payload first (bitAt full p) else s) s

/-- CLR of a probe. -/
def probeClear (s : State) (p : Nat) : State :=
  setFld (wr64 s (Reg.PRB_CNT_LO p) 0) (Reg.PRB_TWR p) F.PRB_TWR_INDEX 0

/-! ## Route-arounds (R307 to R310) -/

/-- State of the route epochs: 0 STABLE, 1 INSTALL, 2 SWITCH, 3 DRAIN. -/
def epochSt (s : State) : Nat := fld s Reg.NOC_EPOCH F.NOC_EPOCH_STATE
def setEpochSt (s : State) (v : Nat) : State := setFld s Reg.NOC_EPOCH F.NOC_EPOCH_STATE v

/-- A ROUTE event. -/
def routeEvent (s : State) (unit code : Nat) : State := sep s 0x0D unit code (fld s Reg.NOC_EPOCH F.NOC_EPOCH_SWITCHES)

/-- Is a port isolated? -/
def isolated (s : State) (r p : Nat) : Bool := bitAt (fld s (Reg.NOC_RSTAT r) F.NOC_RSTAT_ISOL) p

/-- A port is isolated. -/
def isolateOne (s : State) (r p : Nat) : State :=
  let a := Reg.NOC_RSTAT r
  setFld s a F.NOC_RSTAT_ISOL (setBit (fld s a F.NOC_RSTAT_ISOL) p)

/-- A port and the port that faces it are isolated (R308). -/
def isolate (s : State) (r p : Nat) : State :=
  let s := isolateOne s r p
  let s := match facing r p with
    | some (r', p') => isolateOne s r' p'
    | none => s
  routeEvent (evt s Reg.NOC_EVT F.NOC_EVT_ISOLATE) (uPort r p) 0

/-- A route-around is wanted: it starts, or is held one deep. -/
def routeAround (s : State) : State :=
  if epochSt s = 0 then setEpochSt s 1 else setFld s Reg.NOC_EPOCH F.NOC_EPOCH_HELD 1

/-- A link fails (R310): its ports are isolated, the fault is counted (R498), and a route-around starts. (DEDUCED, unsafe: log 50) -/
def linkFault (s : State) (r p kind : Nat) : State :=
  if isolated s r p then s
  else
    let s := isolate s r p
    let (perm, s) := countFault s (uPort r p) kind 0 0
    routeAround (judgeFault s (uPort r p) perm)

/-- Management firmware asks for isolation. A request that is held isolates its port when it starts. (DEDUCED, unsafe: log 50) -/
def routeAroundRequest (s : State) (r p : Nat) : State :=
  if epochSt s = 0 then routeAround (isolate s r p)
  else routeAround { s with noc := { s.noc with heldReq := s.noc.heldReq ++ [r * 16 + p] } }

/-- The route-around is over; a held one starts. -/
def epochDone (s : State) (forced : Bool) : State :=
  let s := evt (wr s Reg.NOC_OLDEPOCH_CNT 0) Reg.NOC_EVT F.NOC_EVT_EPOCH_DONE
  let s := routeEvent (setEpochSt s 0) 0 (if forced then 2 else 1)
  if !isSet s Reg.NOC_EPOCH F.NOC_EPOCH_HELD then s
  else
    let ps := s.noc.heldReq
    let s := setFld { s with noc := { s.noc with heldReq := [] } } Reg.NOC_EPOCH F.NOC_EPOCH_HELD 0
    setEpochSt (ps.foldl (fun s k => isolate s (k / 16) (k % 16)) s) 1

/-- A write of NOC_RT_DATA (R307). A reserved PORT leaves its field unchanged. -/
def routeWrite (s : State) (v : Word) : State :=
  if fld s Reg.NOC_RT_SEL F.NOC_RT_SEL_BANK = fld s Reg.NOC_EPOCH F.NOC_EPOCH_CUR then evt s Reg.NOC_EVT F.NOC_EVT_RT_REFUSE
  else
    let k := selectedRoute s
    let old := Tab.get (fun _ => 0) s.noc.routes k
    let port := if getF v F.NOC_RT_DATA_PORT ≤ 8 then getF v F.NOC_RT_DATA_PORT else old % 16
    { s with noc := { s.noc with routes := Tab.put (fun _ => 0) s.noc.routes k (port + getF v F.NOC_RT_DATA_MODE * 16) } }

/-! ## A flit at a router (R302, R307, R308, R312, R313) -/

/-- A discarded packet: a REQ or WR is answered FENCED, a PWR dropped and counted. -/
def discard (s : State) (cls hdr payload : Nat) (first : Bool) : State :=
  if !first || decide (1 < cls) then s
  else
    let a := bits payload 0 48
    if cls = 1 ∧ bits payload 56 4 = 9 then fenceDrop s a
    else emit (nocErr s FENCED (hFUNC hdr) (hSRC hdr) (hTGT hdr) a) (.resp (hTAG hdr) FENCED [])

/-- Is a request packet for a fenced scope at its attachment router? -/
def fencedHere (s : State) (r cls hdr payload : Nat) (first : Bool) : Bool :=
  first && decide (hTGT hdr = r ∧ cls ≤ 1) &&
    let a := bits payload 0 48
    (scopesAt a).any (refuses s) || (match target a with | .hbm => !domLive s 21 | _ => false)

/-- Key of a packet in progress at an input. -/
def inKey (r port cls hdr : Nat) : Nat := r * 256 + port * 16 + cls * 2 + hVN hdr

/-- The rest of a packet is dropped, or goes on. -/
def setDropping (s : State) (k : Nat) (b : Bool) : State :=
  { s with noc := { s.noc with dropping := Tab.put (fun _ => false) s.noc.dropping k b } }

/-- The router routes a flit by the bank of its EPOCH. (DESIGN CHOICE, safe: log 146) -/
def routeFlit (s : State) (r port cls : Nat) (first : Bool) (hdr payload : Nat) : State :=
  let e := routeEntry s r (hEPOCH hdr) (hTGT hdr)
  let k := inKey r port cls hdr
  let drop (s : State) : State := setDropping (discard s cls hdr payload first) k (!hLAST hdr)
  if fencedHere s r cls hdr payload first || e / 16 = 3 then drop s
  else
    let out := if e / 16 = 0 then xyPort r (hTGT hdr) (hDSUB hdr) else e % 16
    let hdr := if e / 16 = 2 then setBit hdr 24 else hdr
    if isolated s r out then
      { s with noc := { s.noc with held := s.noc.held ++ [{ router := r, port := port, cls := cls, first := first, hdr := hdr, payload := payload }] } }
    else match facing r out with
      | none => emit s (.flit r out hdr payload)
      | some (r', _) =>
        let lv (x : Nat) : Nat := fld s (Reg.NOC_RSTAT x) F.NOC_RSTAT_LEVEL * 256 + x
        let up := decide (lv r' < lv r)
        if bitAt hdr 24 && bitAt hdr 25 && up then drop (evt (inc s Reg.NOC_ROUTE_ERR_CNT) Reg.NOC_EVT F.NOC_EVT_ROUTE_ERR)
        else emit s (.flit r out (if bitAt hdr 24 && !up then setBit hdr 25 else hdr) payload)

/-- A router receives a flit. `hdrOk`, `payOk`: header and payload parity. (DEDUCED, unsafe: log 147) -/
def flitReceive (s : State) (r port cls : Nat) (first : Bool) (hdr payload : Nat) (hdrOk payOk : Bool) (full : Nat) : State :=
  let k := inKey r port cls hdr
  let err (s : State) : State :=
    let a := Reg.NOC_RSTAT r
    setFld s a F.NOC_RSTAT_ERRNET (setBit (fld s a F.NOC_RSTAT_ERRNET) (netOf cls))
  if !hdrOk then
    let s := setDropping (err (evt (inc s Reg.NOC_HDR_PAR_CNT) Reg.NOC_EVT F.NOC_EVT_HDR_PAR)) k (!hLAST hdr)
    let l := (rawTotal s :: Tab.get (fun _ => []) s.noc.hdrErrs (r * 16 + port)).take 4
    let s := { s with noc := { s.noc with hdrErrs := Tab.put (fun _ => []) s.noc.hdrErrs (r * 16 + port) l } }
    if (l.filter fun t => decide ((rawTotal s - t) * 100 ≤ 196608)).length = 4 then linkFault s r port 6 else s
  else if Tab.get (fun _ => false) s.noc.dropping k && !first then (if hLAST hdr then setDropping s k false else s)
  else
    let s := if payOk then s else err (evt (inc s Reg.NOC_PAY_PAR_CNT) Reg.NOC_EVT F.NOC_EVT_PAY_PAR)
    let hdr := if payOk then hdr else setBit hdr 27
    routeFlit (probes s r port cls hdr payload first full) r port cls first hdr payload

/-- Bank E' is installed (R307, R308): injection ports are told to switch, and held packets are routed by it. -/
def bankInstalled (s : State) : State :=
  if epochSt s ≠ 1 then s
  else
    let e := 1 - fld s Reg.NOC_EPOCH F.NOC_EPOCH_CUR
    let hs := s.noc.held
    let s := setEpochSt { s with noc := { s.noc with held := [] } } 2
    hs.foldl (fun s h => routeFlit s h.router h.port h.cls h.first (putEpoch h.hdr e) h.payload) s

/-- Every injection port has switched; `old` packets of the old epoch are still in the mesh. (DESIGN CHOICE, safe: log 36) -/
def portsSwitched (s : State) (old : Nat) : State :=
  if epochSt s ≠ 2 then s
  else
    let s := setFld s Reg.NOC_EPOCH F.NOC_EPOCH_CUR (1 - fld s Reg.NOC_EPOCH F.NOC_EPOCH_CUR)
    setEpochSt (wr (incFld s Reg.NOC_EPOCH F.NOC_EPOCH_SWITCHES) Reg.NOC_OLDEPOCH_CNT (w32 old)) 3

/-- The old epoch has drained. -/
def oldDrained (s : State) : State := if epochSt s = 3 then epochDone s false else s

/-- NOC_DRAIN_LIMIT expires (R310): the remaining packets are discarded; `posted`: addresses of the PWRs among them.
(DESIGN CHOICE, safe: log 36) -/
def drainExpiry (s : State) (posted : List Nat) : State :=
  if epochSt s ≠ 3 then s
  else epochDone (evt (posted.foldl fenceDrop s) Reg.NOC_EVT F.NOC_EVT_FORCED_DRAIN) true

/-! ## Fences (R313) -/

/-- Has everything been answered that was accepted from a scope or issued by it? -/
def scopeQuiet (s : State) (u : Nat) : Bool :=
  let i := u % 4096
  let engQuiet (e : Nat) : Bool := (eng s e).stores.isEmpty && !(eng s e).halt
  let jobsQuiet (p : JobS → Bool) : Bool := !(s.job.list.any fun j => p j && (!j.reads.isEmpty || !j.writes.isEmpty))
  let chQuiet (k : Nat) : Bool := (chan s k).reads.isEmpty && (chan s k).writes.isEmpty
  match u / 4096 with
  | 1 => engQuiet i
  | 2 => (upto 8).all fun e => engQuiet (i * 8 + e)
  | 10 => (cxu s i).hdrs.isEmpty
  | 12 => (upto 16).all fun c => chQuiet (i * 16 + c)
  | 13 =>
    if i < 16 then (upto 64).all fun e => engQuiet (i * 64 + e)
    else jobsQuiet (fun j => decide (j.q = i - 16)) && ((upto 8).all fun n => (cxu s ((i - 16) * 8 + n)).hdrs.isEmpty) &&
      (upto 32).all fun c => chQuiet ((i - 16) * 32 + c)
  | _ => true

/-- A steward or controller requests the fence of a scope. The fence of a sector or strip is part of its transition. -/
def fenceReq (s : State) (u : Nat) : State := if u / 4096 = 13 then enterFence s (u % 4096) else fenceRequest s u

/-- A lift request: a fence in force opens once its unit has returned. -/
def fenceLiftReq (s : State) (u : Nat) : State :=
  if (fence s u).st = 3 then
    if unitSt s u ≠ 0 ∨ (u / 4096 = 13 ∧ domLive s (u % 4096) = false) then s else setFence s u {}
  else fenceLift s u

/-! ## Caches of the control region (R316, R317) -/

/-- The home evicts a line of its snoop filter: every copy is invalidated. -/
def filterEvict (s : State) (a : Nat) : State := evt (inc (snoopAll s a true none) Reg.MEM_SF_EVICT_CNT) Reg.MEM_EVT F.MEM_EVT_SF_EVICT

/-- The home serves a request of cache `c`: 0 RDS, 1 RDU, 2 EVICT, 3 WB with the line's data. `victim`: the line whose filter
entry gives way. What state a grant gives where several are allowed is free. (DESIGN CHOICE, safe: log 36; DEDUCED, unsafe: log 49) -/
def homeRequest (s : State) (c op a : Nat) (data : List Byte) (victim : Option Nat) : State :=
  let a := a / 64 * 64
  let s := match victim with
    | some v => filterEvict s v
    | none => s
  if !inCoherent s a then s
  else if !hbmUp s then emit s (.resp c FENCED [])
  else match op with
    | 0 =>
      let s := snoopAll s a false (some c)
      match memRead s a 64 with
      | (code, bs, s) =>
        let others := (upto 132).any fun d => decide (d ≠ c ∧ (line s d a).st ≠ 0)
        let (e, s) := if others then (false, s) else freeBool s
        if code ≠ OKAY then emit s (.resp c code []) else emit (setLine s c a { st := if e then 2 else 1, data := bs }) (.resp c OKAY bs)
    | 1 =>
      let s := snoopAll s a true (some c)
      match memRead s a 64 with
      | (code, bs, s) =>
        let (m, s) := freeBool s
        if code ≠ OKAY then emit s (.resp c code []) else emit (setLine s c a { st := if m then 3 else 2, data := bs }) (.resp c OKAY bs)
    | 2 => if (line s c a).st = 1 ∨ (line s c a).st = 2 then setLine s c a {} else s
    | _ => if 2 ≤ (line s c a).st then emit (setLine (storeN s a data) c a {}) (.resp c OKAY []) else s

/-- A cache answers a snoop (R301, R317); `data`: what its core has stored into the line since the grant. -/
def snoopCmd (s : State) (c a : Nat) (inv : Bool) (data : Option (List Byte)) : State :=
  let l := line s c a
  let s := match data with
    | some bs => if 2 ≤ l.st then setLine s c a { st := 3, data := bs } else s
    | none => s
  let l := line s c a
  emit (snoopOne s c a inv) (.resp c OKAY (if l.st = 3 then l.data else []))

end Sys2Proof.Machine
end

