-- ==== Sys2Proof/Machine/Boot.lean ====
section
/-! DEFINITION. Power-on and warm reset (R528 to R530, R549, R550), the boot ROM (R531 to R534) and host boot (R535). -/

namespace Sys2Proof.Machine

/-! ## The boot ROM -/

/-- STAGE of the boot. -/
def stage (s : State) : Nat := fld s Reg.MGT_BOOT_STAT F.MGT_BOOT_STAT_STAGE

/-- SEL as sampled. -/
def bootSel (s : State) : Nat := fld s Reg.MGT_BOOT_STAT F.MGT_BOOT_STAT_SEL

/-- The boot ROM stops with a FAIL code (R532): 1 BAD_SEL, 2 OTP, 3 MAGIC, 4 KEY, 5 REVOKED, 6 SVN, 7 SIG, 8 LOAD, 9 HOST_ERR.
(DEDUCED, unsafe: log 83) -/
def bootFail (s : State) (code : Nat) : State :=
  setFld (setFld s Reg.MGT_BOOT_STAT F.MGT_BOOT_STAT_STAGE 4) Reg.MGT_BOOT_STAT F.MGT_BOOT_STAT_FAIL code

/-- The ROM starts as a reset is released: it samples BOOT_SEL, checks the OTP and SEL, and chooses its first source
(R531, R532). -/
def romStart (s : State) : State :=
  let sel := s.mgt.bootSel % 4
  let s := setFld s Reg.MGT_BOOT_STAT F.MGT_BOOT_STAT_SEL sel
  if !Config.otpGood then bootFail s 2
  else if sel = 3 then bootFail s 1
  else { s with mgt := { s.mgt with bootTry := if sel = 1 then 2 else 0 } }

/-- Configuration requests are answered from now on (step 7). -/
def endRetry (s : State) : State := { s with hif := { s.hif with crs := false } }

/-- HST is configured from the boot configuration of OTP (step 3). In host boot step 7 comes first. -/
def configureHst (s : State) : State :=
  let s := { s with hif := { s.hif with bar4En := Config.bar4, subsys := Config.subsys } }
  if s.mgt.bootTry = 2 then endRetry s else s

/-- The AON PLL locks; while the boot ROM runs, steps 2 and 3 follow. (DEDUCED, unsafe: log 15, 83) -/
def pllLocked (s : State) : State :=
  let boot := !isSet s Reg.TIM_STATUS F.TIM_STATUS_LOCK && !isSet s Reg.TIM_STATUS F.TIM_STATUS_HOLDOVER && decide (stage s = 0)
  let s := aonPllLock s
  if boot then configureHst s else s

/-- A range of the header is 0. -/
def zeroIn (h : List Byte) (o n : Nat) : Bool := ((h.drop o).take n).all fun b => decide (b = 0)

/-- The first check that an image fails, by its FAIL code (R533, R534); none: it passes. A SIZE that is no primer's cannot be
loaded. (DEDUCED, unsafe: log 83) -/
def primerFault (kind : Nat) (img : List Byte) : Option Nat :=
  let h := img.take 0x200
  let w := leAt h 4 4
  let size := leAt h 0x0C 4
  let key := (h.drop 0x40).take 97
  let idx := w / 2 ^ 16 % 4
  if leAt h 0 4 ≠ 0x4B505231 ∨ w % 256 ≠ 1 ∨ w / 256 % 256 ≠ kind ∨ w / 2 ^ 18 ≠ 0 ∨ leAt h 8 4 / 64 ≠ 0 ∨ leAt h 0x18 4 / 2 ≠ 0
      ∨ zeroIn h 0x20 0x20 = false ∨ zeroIn h 0xA1 0x5F = false ∨ zeroIn h 0x160 0xA0 = false then some 3
  else if size % 64 ≠ 0 ∨ (kind = 1 ∧ 786432 < size) ∨ img.length < 0x200 + size then some 8
  else if Config.sha384 key ≠ Config.otpKeyHash idx then some 4
  else if Config.otpRevoked idx then some 5
  else if leAt h 8 1 % 64 < Config.otpSvnMin then some 6
  else if !Config.ecdsaOk key (Config.sha384 (h.take 0x100 ++ List.replicate 96 0 ++ h.drop 0x160 ++ (img.drop 0x200).take size))
      ((h.drop 0x100).take 96) then some 7
  else none

/-- Flash offset of a slot. -/
def slotBase (k : Nat) : Nat := if k = 0 then 0 else 0x800000

/-- The image of the source in turn. -/
def bootImage (s : State) : List Byte :=
  if s.mgt.bootTry = 2 then s.mgt.sram
  else
    let b := slotBase s.mgt.bootTry
    memGetN s.flash b (0x200 + min 786432 (leNat (memGetN s.flash (b + 0x0C) 4)))

/-- The next source is tried, or none is left. -/
def nextSource (s : State) (code : Nat) : State :=
  match s.mgt.bootTry with
  | 0 => { s with mgt := { s.mgt with bootTry := 1 } }
  | 1 => if bootSel s = 2 then endRetry { s with mgt := { s.mgt with bootTry := 2 } } else bootFail s code
  | _ => bootFail s code

/-- The image passes: its boot configuration applies, and the primer runs (steps 6 and 7). -/
def runPrimer (s : State) (img : List Byte) : State :=
  let s := if Config.otpBootCfgLock then s
    else { s with hif := { s.hif with bar4En := bitAt (leAt img 0x18 1) 0, subsys := BitVec.ofNat 32 (leAt img 0x1C 4) } }
  let a := Reg.MGT_BOOT_STAT
  let s := setFld (setFld (setFld s a F.MGT_BOOT_STAT_STAGE 1) a F.MGT_BOOT_STAT_SLOT (decide (s.mgt.bootTry = 1)).toNat)
    a F.MGT_BOOT_STAT_HOST (decide (s.mgt.bootTry = 2)).toNat
  endRetry s

/-- A primer image has been loaded, or could not be (R532). An image from the host is there once its fetch is DONE. -/
def imageLoaded (s : State) (ok : Bool) : State :=
  if stage s ≠ 0 ∨ (s.mgt.bootTry = 2 ∧ isSet s Reg.MGT_HBOOT_CTL F.MGT_HBOOT_CTL_DONE = false) then s
  else if !ok then nextSource s 8
  else match primerFault 1 (bootImage s) with
    | some code => nextSource s code
    | none => runPrimer s (bootImage s)

/-! ## Host boot (R535) -/

/-- GO of MGT_HBOOT_CTL. -/
def hbootGo (s : State) : State :=
  let a := Reg.MGT_HBOOT_CTL
  if stage s ≠ 0 ∨ (bootSel s ≠ 1 ∧ bootSel s ≠ 2) ∨ isSet s a F.MGT_HBOOT_CTL_BUSY = true then s
  else
    let n := (rd s Reg.MGT_HBOOT_LEN).toNat
    let s := setFld (setFld s a F.MGT_HBOOT_CTL_DONE 0) a F.MGT_HBOOT_CTL_ERR 0
    if n < 512 ∨ 1048576 < n then setFld s a F.MGT_HBOOT_CTL_ERR 1 else setFld s a F.MGT_HBOOT_CTL_BUSY 1

/-- The fetch ends. One that fails while the host is the source in turn leaves no image to try. -/
def hbootDone (s : State) (ok : Bool) : State :=
  let a := Reg.MGT_HBOOT_CTL
  if !isSet s a F.MGT_HBOOT_CTL_BUSY then s
  else
    let s := setFld s a F.MGT_HBOOT_CTL_BUSY 0
    if ok && s.hif.linkTrained then
      let img := hostLoad s (rd64 s Reg.MGT_HBOOT_ADDR_LO) (rd s Reg.MGT_HBOOT_LEN).toNat
      setFld { s with mgt := { s.mgt with sram := img } } a F.MGT_HBOOT_CTL_DONE 1
    else
      let s := setFld s a F.MGT_HBOOT_CTL_ERR 1
      if stage s = 0 ∧ s.mgt.bootTry = 2 then bootFail s 9 else s

/-! ## Resets -/

/-- A reset is released: the boot ROM starts, and the device commands 0.80 V in its first AVSBus transaction (R531, R550).
(DEDUCED, unsafe: log 149) -/
def released (s : State) : State := avsCommand (romStart s) 800

/-- Power-on reset: everything but what lies outside the device (R528, R549). `sel`: the level of BOOT_SEL.
(DESIGN CHOICE, safe: log 82) -/
def powerOn (s : State) (sel : Nat) : State :=
  released { State.reset with
    pending := s.pending, fresh := s.fresh, out := s.out, hostMem := s.hostMem, flash := s.flash,
    mgt := { bootSel := sel } }

/-- Registers that a warm reset preserves whole. (DEDUCED, unsafe: log 81) -/
def warmKeeps (a : Nat) : Bool :=
  [Reg.TIM_WRAP_CNT, Reg.TIM_OFFSET_LO, Reg.TIM_OFFSET_HI, Reg.TIM_RATE, Reg.TIM_RAW_BASE_LO, Reg.TIM_RAW_BASE_HI, Reg.SEP_COUNT,
    Reg.SEP_DROP_CNT, Reg.SEP_FREEZE_LO, Reg.SEP_FREEZE_HI].contains a || decide (Reg.PWR_RES_LO 0 0 ≤ a ∧ a ≤ Reg.PWR_RES_HI 24 3)

/-- Fields that a warm reset preserves. (DEDUCED, unsafe: log 81) -/
def warmFields : List (Nat × Fld) :=
  [(Reg.TIM_STATUS, F.TIM_STATUS_SET), (Reg.SEP_STAT, F.SEP_STAT_FROZEN), (Reg.SEP_STAT, F.SEP_STAT_CAUSE),
    (Reg.THM_STAT, F.THM_STAT_TRIP), (Reg.MGT_CTL, F.MGT_CTL_PERST_SCOPE)]

/-- A retired unit shows as such after a warm reset (R499). -/
def stayRetired (s : State) (u : Nat) : State :=
  match u / 4096 with
  | 4 => isolateOne s (u % 4096 / 16) (u % 16)
  | 5 => setLn s (u % 4096) 10
  | 13 => setFld s (Reg.PWR_DOMAIN_STATE (u % 4096)) F.PWR_DOMAIN_STATE_STATE 6
  | _ => s

/-- Unit records after a warm reset: history, retirements and generations stay. (DEDUCED, unsafe: log 81) -/
def warmUnits (us : Tab UnitS) : Tab UnitS :=
  (us.map fun e => (e.1, { e.2 with st := if e.2.st = 3 then 3 else 0, mute := 0 })).filter fun e => e.2 ≠ ({} : UnitS)

/-- What the reset registers are after a warm reset of `s`: the preserved ones, and the cause. -/
def warmRegs (s r : State) (cause : Nat) : State :=
  let r := { r with regs := s.regs.filter fun e => warmKeeps e.1 }
  let r := warmFields.foldl (fun r e => setFld r e.1 e.2 (fld s e.1 e.2)) r
  let r := wr r Reg.MGT_RST_CAUSE (w32 cause)
  (r.ras.units.filter fun e => decide (e.2.st = 3)).foldl (fun r e => stayRetired r e.1) r

/-- Warm reset (R528, R529); `cause`: MGT_RST_CAUSE. A dump in progress stops. HBM keeps its contents. (DEDUCED, unsafe: log 81) -/
def warmReset (s : State) (cause : Nat) : State :=
  let s := sep s 0x0E 0 1 0
  let s := if s.tim.ppsEnd.isSome then emit s (.pps false) else s
  let r : State := { State.reset with
    pending := s.pending, fresh := s.fresh, out := s.out, hostMem := s.hostMem, flash := s.flash,
    mem := s.mem.filter fun e => decide (e.1 < 0x800000000)
    damaged := s.damaged.filter fun e => decide (e.1 < 0x800000000)
    tim := { raw := s.tim.raw, counting := s.tim.counting, copies := s.tim.copies }
    pwr := { clocksStopped := isSet s Reg.THM_STAT F.THM_STAT_TRIP, resAt := s.pwr.resAt }
    ras := { units := warmUnits s.ras.units, queue := s.ras.queue, entries := s.ras.entries,
             badEntries := s.ras.badEntries, dropSince := s.ras.dropSince }
    mgt := { bootSel := s.mgt.bootSel, alertLow := s.mgt.alertLow, gpioIn := s.mgt.gpioIn, perstLow := s.mgt.perstLow,
             jtagIr := s.mgt.jtagIr } }
  released (warmRegs s r cause)

/-- PERST_N goes low (R528, R530). -/
def perst (s : State) : State :=
  if s.mgt.perstLow then s
  else
    let s := { s with mgt := { s.mgt with perstLow := true } }
    if isSet s Reg.MGT_CTL F.MGT_CTL_PERST_SCOPE then hostReset s else warmReset s 4

/-- PERST_N goes high. -/
def perstRelease (s : State) : State :=
  let s := { s with mgt := { s.mgt with perstLow := false } }
  if s.hif.hstReset then hostRelease s else s

/-- The warm reset that a MGMT request asked for comes 1 ms after its answer (R538). (DESIGN CHOICE, safe: log 84) -/
def warmDue (s : State) : State :=
  match s.mgt.warmAt with
  | some t => if t ≤ rawTotal s then warmReset s 8 else s
  | none => s

/-! ## Meanings -/

/-- POWER_ON_RESET (R549), with the level of BOOT_SEL at its release. -/
def execPowerOnReset (sel : Fin 4) (s : State) : Res := done (powerOn s sel)

/-- RESET_N (R528), with the level of BOOT_SEL at its release. (DESIGN CHOICE, safe: log 82) -/
def execResetN (sel : Fin 4) (s : State) : Res := done (warmReset { s with mgt := { s.mgt with bootSel := sel } } 2)

/-- PERST_N (R530). -/
def execPerstN (s : State) : Res := done (perst s)

/-- PERST_RELEASE (R530). -/
def execPerstRelease (s : State) : Res := done (perstRelease s)

/-- AON_PLL_LOCK (R35, R532). -/
def execAonPllLock (s : State) : Res := done (pllLocked s)

/-- BOOT_IMAGE_LOADED (R532). -/
def execBootImageLoaded (ok : Bool) (s : State) : Res := done (imageLoaded s ok)

/-- HBOOT_FETCH_DONE (R535). -/
def execHbootFetchDone (ok : Bool) (s : State) : Res := done (hbootDone s ok)

end Sys2Proof.Machine
end

