-- ==== Sys2Proof/Machine/Float.lean ====
section
/-! DEFINITION. IEEE 754 arithmetic of binary32 and binary16 (R137 to R139), to nearest, ties to even. Results are exact
fractions rounded once. -/

namespace Sys2Proof.Machine

/-- A format: exponent bits, fraction bits. -/
structure Fmt where
  eb : Nat
  mb : Nat

/-- binary32, or binary16 for `p`. -/
def fmtOf (p : Bool) : Fmt := if p then ⟨5, 10⟩ else ⟨8, 23⟩

/-- Width of a format. -/
def Fmt.width (f : Fmt) : Nat := 1 + f.eb + f.mb
/-- Exponent bias. -/
def Fmt.bias (f : Fmt) : Int := 2 ^ (f.eb - 1) - 1
/-- Exponent of the least normal number. -/
def Fmt.emin (f : Fmt) : Int := 1 - f.bias
/-- Infinity without its sign. -/
def Fmt.inf (f : Fmt) : Nat := (2 ^ f.eb - 1) * 2 ^ f.mb
/-- The canonical quiet NaN (R138). -/
def Fmt.nan (f : Fmt) : Nat := f.inf + 2 ^ (f.mb - 1)
/-- A sign in its place. -/
def Fmt.sign (f : Fmt) (neg : Bool) : Nat := if neg then 2 ^ (f.eb + f.mb) else 0

/-- A floating-point value: finite ones are ± m · 2^e. -/
inductive FVal where
  | nan (signalling : Bool)
  | inf (neg : Bool)
  | fin (neg : Bool) (m : Nat) (e : Int)
deriving DecidableEq, Repr

/-- The value of a bit pattern. -/
def Fmt.decode (f : Fmt) (v : Nat) : FVal :=
  let neg := bitAt v (f.eb + f.mb)
  let e := bits v f.mb f.eb
  let m := bits v 0 f.mb
  if e = 2 ^ f.eb - 1 then (if m = 0 then .inf neg else .nan (!bitAt m (f.mb - 1)))
  else if e = 0 then .fin neg m (f.emin - f.mb)
  else .fin neg (m + 2 ^ f.mb) (f.emin - f.mb + (e - 1))

/-- Flags of FST. -/
abbrev flNX : Nat := 1
abbrev flUF : Nat := 2
abbrev flOF : Nat := 4
abbrev flDZ : Nat := 8
abbrev flNV : Nat := 16

/-- A result: bits, flags, and flags that IEEE 754 leaves to the implementation. -/
structure FRes where
  v : Nat
  fl : Nat := 0
  open' : Nat := 0

/-- num/den rounded to an integer, ties to even, and whether it was inexact. -/
def roundEven (num den : Nat) : Nat × Bool :=
  let q := num / den
  let r := num % den
  (if 2 * r < den ∨ (2 * r = den ∧ q % 2 = 0) then q else q + 1, decide (r ≠ 0))

/-- num/den · 2^e as a fraction of natural numbers. -/
def scaleUp (num den : Nat) (e : Int) : Nat × Nat :=
  if 0 ≤ e then (num * 2 ^ e.toNat, den) else (num, den * 2 ^ (-e).toNat)

/-- Rounds ± num/den · 2^e into a format. Whether a result that rounds up to the least normal number is tiny is left
open by IEEE 754, and so is its underflow flag. (DESIGN CHOICE, safe: log 111) -/
def Fmt.round (f : Fmt) (neg : Bool) (num den : Nat) (e : Int) : FRes :=
  if num = 0 then { v := f.sign neg }
  else
    let d : Int := (bitLen num : Int) - bitLen den
    let nd := scaleUp num den (-d)
    let ex := e + if nd.2 ≤ nd.1 then d else d - 1
    let q := (max ex f.emin) - f.mb
    let sc := scaleUp num den (e - q)
    let r := roundEven sc.1 sc.2
    let b := ((q - (f.emin - f.mb)).toNat) * 2 ^ f.mb + r.1
    if f.inf ≤ b then { v := f.sign neg + f.inf, fl := flOF + flNX }
    else
      let nx := if r.2 then flNX else 0
      if ex < f.emin ∧ r.2 then
        if b = 2 ^ f.mb then { v := f.sign neg + b, fl := nx, open' := flUF }
        else { v := f.sign neg + b, fl := nx + flUF }
      else { v := f.sign neg + b, fl := nx }

/-- The canonical NaN; NV when an operand was signalling or the operation invalid. -/
def Fmt.mkNan (f : Fmt) (nv : Bool) : FRes := { v := f.nan, fl := if nv then flNV else 0 }

/-- Is a value a signalling NaN? -/
def FVal.isS : FVal → Bool
  | .nan s => s
  | _ => false

/-- Is a value a NaN? -/
def FVal.isNan : FVal → Bool
  | .nan _ => true
  | _ => false

/-- The integer ± m · 2^(e − e0), for e0 ≤ e. -/
def scaledInt (neg : Bool) (m : Nat) (e e0 : Int) : Int :=
  let v : Int := m * 2 ^ (e - e0).toNat
  if neg then -v else v

/-- The exact sum of two finite values, rounded. A zero sum is +0 unless both are −0. -/
def Fmt.addFin (f : Fmt) (n1 : Bool) (m1 : Nat) (e1 : Int) (n2 : Bool) (m2 : Nat) (e2 : Int) : FRes :=
  let e0 := min e1 e2
  let v := scaledInt n1 m1 e1 e0 + scaledInt n2 m2 e2 e0
  if v = 0 then { v := f.sign (n1 && n2 && decide (m1 = 0 ∧ m2 = 0)) }
  else f.round (decide (v < 0)) v.natAbs 1 e0

/-- Addition; `neg2` negates the second operand. -/
def Fmt.add (f : Fmt) (a b : FVal) : FRes :=
  match a, b with
  | .nan s, b => f.mkNan (s || b.isS)
  | a, .nan s => f.mkNan (s || a.isS)
  | .inf n1, .inf n2 => if n1 = n2 then { v := f.sign n1 + f.inf } else f.mkNan true
  | .inf n, .fin _ _ _ => { v := f.sign n + f.inf }
  | .fin _ _ _, .inf n => { v := f.sign n + f.inf }
  | .fin n1 m1 e1, .fin n2 m2 e2 => f.addFin n1 m1 e1 n2 m2 e2

/-- A value with its sign inverted. -/
def FVal.neg : FVal → FVal
  | .nan s => .nan s
  | .inf n => .inf (!n)
  | .fin n m e => .fin (!n) m e

/-- Sign of a value. -/
def FVal.sgn : FVal → Bool
  | .nan _ => false
  | .inf n => n
  | .fin n _ _ => n

/-- Is a value zero? -/
def FVal.isZero : FVal → Bool
  | .fin _ m _ => decide (m = 0)
  | _ => false

/-- Multiplication. -/
def Fmt.mul (f : Fmt) (a b : FVal) : FRes :=
  match a, b with
  | .nan s, b => f.mkNan (s || b.isS)
  | a, .nan s => f.mkNan (s || a.isS)
  | .fin n1 m1 e1, .fin n2 m2 e2 => f.round (n1 != n2) (m1 * m2) 1 (e1 + e2)
  | a, b => if a.isZero || b.isZero then f.mkNan true else { v := f.sign (a.sgn != b.sgn) + f.inf }

/-- a × b + c, rounded once. Infinity times zero plus a quiet NaN is invalid or not as IEEE 754 leaves it.
(DESIGN CHOICE, safe: log 111) -/
def Fmt.fma (f : Fmt) (a b c : FVal) : FRes :=
  let badProd := (a.isZero && decide (b = .inf b.sgn)) || (b.isZero && decide (a = .inf a.sgn))
  if a.isNan || b.isNan || c.isNan then
    let r := f.mkNan (a.isS || b.isS || c.isS)
    if badProd then { r with open' := flNV } else r
  else if badProd then f.mkNan true
  else match a, b, c with
    | .fin n1 m1 e1, .fin n2 m2 e2, .fin n3 m3 e3 => f.addFin (n1 != n2) (m1 * m2) (e1 + e2) n3 m3 e3
    | .fin _ _ _, .fin _ _ _, c => { v := f.sign c.sgn + f.inf }
    | a, b, .inf n => if (a.sgn != b.sgn) = n then { v := f.sign n + f.inf } else f.mkNan true
    | a, b, _ => { v := f.sign (a.sgn != b.sgn) + f.inf }

/-- Division. -/
def Fmt.div (f : Fmt) (a b : FVal) : FRes :=
  match a, b with
  | .nan s, b => f.mkNan (s || b.isS)
  | a, .nan s => f.mkNan (s || a.isS)
  | .inf _, .inf _ => f.mkNan true
  | .inf n, .fin n2 _ _ => { v := f.sign (n != n2) + f.inf }
  | .fin n _ _, .inf n2 => { v := f.sign (n != n2) }
  | .fin n1 m1 e1, .fin n2 m2 e2 =>
    if m2 = 0 then
      (if m1 = 0 then f.mkNan true else { v := f.sign (n1 != n2) + f.inf, fl := flDZ })
    else f.round (n1 != n2) m1 m2 (e1 - e2)

/-- Integer square root of a number below 2^(2n). -/
def isqrt (n v : Nat) : Nat := (upto n).foldr (fun b r => if (r + 2 ^ b) * (r + 2 ^ b) ≤ v then r + 2 ^ b else r) 0

/-- Square root. -/
def Fmt.sqrt (f : Fmt) (a : FVal) : FRes :=
  match a with
  | .nan s => f.mkNan s
  | .inf n => if n then f.mkNan true else { v := f.inf }
  | .fin n m e =>
    if m = 0 then { v := f.sign n }
    else if n then f.mkNan true
    else
      let m' := (if e % 2 = 0 then m else 2 * m) * 2 ^ 60
      let r := isqrt 64 m'
      f.round false (2 * r + if r * r = m' then 0 else 1) 1 ((if e % 2 = 0 then e else e - 1) / 2 - 31)

/-- Is a below b; neither is a NaN. -/
def FVal.lt (a b : FVal) : Bool :=
  match a, b with
  | .inf n1, .inf n2 => n1 && !n2
  | .inf n, _ => n
  | _, .inf n => !n
  | .fin n1 m1 e1, .fin n2 m2 e2 =>
    let e0 := min e1 e2
    decide (scaledInt n1 m1 e1 e0 < scaledInt n2 m2 e2 e0)
  | _, _ => false

/-- Are two values equal; neither is a NaN. -/
def FVal.eqv (a b : FVal) : Bool := !a.lt b && !b.lt a

/-- The value times 2^frac as a signed number of `n` bits, to nearest, ties to even; out of range saturates (R139). -/
def FVal.toFixed (a : FVal) (frac n : Nat) : Int × Nat :=
  match a with
  | .nan _ => (0, flNV)
  | .inf s => (if s then minOf n else maxOf n, flNV)
  | .fin s m e =>
    let sc := scaleUp m 1 (e + frac)
    let r := roundEven sc.1 sc.2
    let v : Int := if s then -(r.1 : Int) else r.1
    let q := satN n v
    (q.1, if q.2 then flNV else if r.2 then flNX else 0)

/-- A signed number times 2^(−frac) in a format. -/
def Fmt.ofFixed (f : Fmt) (v : Int) (frac : Nat) : FRes := f.round (decide (v < 0)) v.natAbs 1 (-frac)

end Sys2Proof.Machine
end

