-- ==== Sys2Proof/Machine/EngFloat.lean ====
section
/-! DEFINITION. Slot B: scalar floating point (R137 to R139, R198). -/

namespace Sys2Proof.Machine

/-- Flags a result leaves open are set freely. -/
def openFlags (s : State) (r : FRes) : Nat × State :=
  if r.open' = 0 then (r.fl, s)
  else
    let (b, s) := freeBool s
    (if b then r.fl ||| r.open' else r.fl, s)

/-- The operand of a precision in the bits of an F register. -/
def fOperand (p : Bool) (v : Nat) : Nat := v % 2 ^ (fmtOf p).width

/-- A result written to Fd with its flags (R137). -/
def fres (x : EngS) (fd lat : Nat) (v fl : Nat) : SlotB := { fl := toF x fd lat v :: toFlag Sr.FST lat fl }

/-- An instruction of two F sources with an F result. -/
def fp2 (s : State) (e : Nat) (p : Bool) (fd fa fb lat : Nat) (bad : Bool) (f : Fmt → FVal → FVal → FRes) : State :=
  vexec s e bad fun x s =>
    let (a, s) := rdF s e fa
    let (b, s) := rdF s e fb
    let m := fmtOf p
    let r := f m (m.decode (fOperand p a)) (m.decode (fOperand p b))
    let (fl, s) := openFlags s r
    (fres x fd lat r.v fl, s)

/-- `op` 0 FADD, 1 FSUB, 2 FMUL. -/
def execFaddFsubFmul (e : Fin 1024) (bad p : Bool) (op : Fin 3) (fd fa fb : Fin 32) (s : State) : Res :=
  done (fp2 s e p fd fa fb 4 bad fun m a b =>
    match op with
    | 0 => m.add a b
    | 1 => m.add a b.neg
    | 2 => m.mul a b)

/-- FMA, R198: Fused multiply-add. -/
def execFma (e : Fin 1024) (p : Bool) (fd fa fb fc : Fin 32) (s : State) : Res :=
  done (vexec s e false fun x s =>
    let (a, s) := rdF s e fa
    let (b, s) := rdF s e fb
    let (c, s) := rdF s e fc
    let m := fmtOf p
    let r := m.fma (m.decode (fOperand p a)) (m.decode (fOperand p b)) (m.decode (fOperand p c))
    let (fl, s) := openFlags s r
    (fres x fd 4 r.v fl, s))

/-- FDIV, R198: Floating-point divide. -/
def execFdiv (e : Fin 1024) (bad p : Bool) (fd fa fb : Fin 32) (s : State) : Res :=
  done (fp2 s e p fd fa fb 14 bad fun m a b => m.div a b)

/-- FSQRT, R198: Floating-point square root. -/
def execFsqrt (e : Fin 1024) (bad p : Bool) (fd fa : Fin 32) (s : State) : Res :=
  done (fp2 s e p fd fa fa 14 bad fun m a _ => m.sqrt a)

/-- FMIN and FMAX (R198): a quiet NaN yields the other operand, two NaNs the canonical NaN. A single signalling NaN sets NV, and
the spec does not say whether the other operand or the canonical NaN results; nor which of two zeros of opposite sign does.
Both are chosen freely (log). (DESIGN CHOICE, safe: log 111) -/
def minMaxF (s : State) (m : Fmt) (mx : Bool) (a b : Nat) : Nat × Nat × State :=
  let va := m.decode a
  let vb := m.decode b
  let nv := if va.isS || vb.isS then flNV else 0
  if va.isNan && vb.isNan then (m.nan, nv, s)
  else if va.isNan || vb.isNan then
    let other := if va.isNan then b else a
    if nv = 0 then (other, 0, s)
    else
      let (c, s) := freeBool s
      (if c then other else m.nan, nv, s)
  else if va.eqv vb && decide (a ≠ b) then
    let (c, s) := freeBool s
    (if c then a else b, nv, s)
  else (if va.lt vb != mx then a else b, nv, s)

/-- FMIN_FMAX, R198: Floating-point minimum or maximum. -/
def execFminFmax (e : Fin 1024) (bad p mx : Bool) (fd fa fb : Fin 32) (s : State) : Res :=
  done (vexec s e bad fun x s =>
    let (a, s) := rdF s e fa
    let (b, s) := rdF s e fb
    let (v, fl, s) := minMaxF s (fmtOf p) mx (fOperand p a) (fOperand p b)
    (fres x fd 2 v fl, s))

/-- A copy of Fa at its precision, changed by `f`. -/
def fp1 (s : State) (e : Nat) (p : Bool) (fd fa : Nat) (bad : Bool) (f : Fmt → Nat → Nat) : State :=
  vexec s e bad fun x s =>
    let (a, s) := rdF s e fa
    (fres x fd 2 (f (fmtOf p) (fOperand p a)) 0, s)

/-- FABS_FNEG, R198: Floating-point absolute value or negation. -/
def execFabsFneg (e : Fin 1024) (bad p neg : Bool) (fd fa : Fin 32) (s : State) : Res :=
  done (fp1 s e p fd fa bad fun m a => if neg then a ^^^ m.sign true else a % m.sign true)

/-- FMOV, R198: Floating-point copy. -/
def execFmov (e : Fin 1024) (bad p : Bool) (fd fa : Fin 32) (s : State) : Res :=
  done (fp1 s e p fd fa bad fun _ a => a)

/-- A compare's result and flags: `cond` 0 EQ, 1 LT, 2 LE, 3 UN. -/
def fcmp (cond : Nat) (a b : FVal) : Bool × Nat :=
  let un := a.isNan || b.isNan
  let nv := if a.isS || b.isS || (un && decide (cond = 1 ∨ cond = 2)) then flNV else 0
  (match cond with
   | 0 => !un && a.eqv b
   | 1 => !un && a.lt b
   | 2 => !un && !b.lt a
   | _ => un, nv)

/-- FCMP, R198: Floating-point compare into a G register. -/
def execFcmp (e : Fin 1024) (bad p : Bool) (cond : Fin 8) (gd fa fb : Fin 32) (s : State) : Res :=
  done (vexec s e (bad || decide (4 ≤ cond.val)) fun _ s =>
    let (a, s) := rdF s e fa
    let (b, s) := rdF s e fb
    let m := fmtOf p
    let r := fcmp cond (m.decode (fOperand p a)) (m.decode (fOperand p b))
    ({ fl := toS gd 2 (if r.1 then 1 else 0) :: toFlag Sr.FST 2 r.2 }, s))

/-- A conversion between the two formats: from `p`. OF and UF are not among the flags that the table names for FCVT, and IEEE 754
raises them: they are set freely (log). (DESIGN CHOICE, safe: log 111) -/
def fcvtF (p : Bool) (v : Nat) : FRes :=
  let m := fmtOf (!p)
  match (fmtOf p).decode (fOperand p v) with
  | .nan s => m.mkNan s
  | .inf n => { v := m.sign n + m.inf }
  | .fin n k ex =>
    let r := m.round n k 1 ex
    { r with fl := r.fl &&& (flNX + flNV), open' := (r.fl ||| r.open') &&& (flOF + flUF) }

/-- FCVT (R198): codes 0 to 6; the others are reserved. `d` and `a` name F or G registers as the code says. -/
def execFcvt (e : Fin 1024) (bad p : Bool) (code d a : Fin 32) (s : State) : Res :=
  let m := fmtOf p
  done (vexec s e (bad || decide (7 ≤ code.val)) fun x s =>
    if code.val = 0 then
      let (v, s) := rdF s e a
      let r := fcvtF p v
      let (fl, s) := openFlags s r
      (fres x d 3 r.v fl, s)
    else if code.val ≤ 3 then
      let (v, s) := rdF s e a
      let r := (m.decode (fOperand p v)).toFixed (if code = 1 then 15 else if code = 2 then 31 else 0)
        (if code = 1 then 16 else 32)
      ({ fl := toS d 3 (wrapN 32 r.1) :: toFlag Sr.FST 3 r.2 }, s)
    else
      let (v, s) := rdS s e a
      let r := if code = 4 then m.ofFixed (sgn 16 v) 15 else if code = 5 then m.ofFixed (sgn 32 v) 31
        else m.ofFixed (sgn 32 v) 0
      (fres x d 3 r.v (r.fl &&& flNX), s))

/-- FMVGF, R198: Moves a G register into an F register. (DEDUCED, unsafe: log 112) -/
def execFmvgf (e : Fin 1024) (bad : Bool) (fd gs : Fin 32) (s : State) : Res :=
  done (vexec s e bad fun x s =>
    let (v, s) := rdS s e gs
    (fres x fd 2 v 0, s))

/-- FMVFG, R198: Moves an F register into a G register. (DEDUCED, unsafe: log 112) -/
def execFmvfg (e : Fin 1024) (bad : Bool) (gd fa : Fin 32) (s : State) : Res :=
  done (vexec s e bad fun _ s =>
    let (v, s) := rdF s e fa
    ({ fl := [toS gd 2 v] }, s))

end Sys2Proof.Machine
end

