-- ==== Sys2Proof/Machine/JobCmds.lean ====
section
/-! DEFINITION. Meanings of the commands of the coding and FFT units (R231 to R262, R289 to R293). -/

namespace Sys2Proof.Machine

/-- Address of the job port of a kind in a strip (R232, R289). -/
def portAddr (q : Nat) (k : JobKind) : Nat :=
  0x200000000000 + q * 0x100000000 + (match k with | .ldpcDec => 0 | .ldpcEnc => 1 | .polar => 2 | .turbo => 3 | .fft => 5) * 0x10000000

/-- Issuer of a post. -/
def posterIssuer (s : State) : Poster → Issuer
  | .eng e => engIssuer e (eng s e).func
  | .dma c => dmaIssuer s c

/-- A descriptor is written to a job port. -/
def postAt (s : State) (q : Nat) (k : JobKind) (p : Poster) (d : BitVec 512) : State :=
  (accWrite s (posterIssuer s p) (portAddr q k) (leBytes 64 d.toNat)).2

/-- LDPC_DECODE (R232 to R234, R241). -/
def execLdpcDecode (q : Fin 4) (p : Poster) (d : BitVec 512) (s : State) : Res := done (postAt s q .ldpcDec p d)

/-- LDPC_ENCODE (R244). -/
def execLdpcEncode (q : Fin 4) (p : Poster) (d : BitVec 512) (s : State) : Res := done (postAt s q .ldpcEnc p d)

/-- POLAR_DECODE (R245). -/
def execPolarDecode (q : Fin 4) (p : Poster) (d : BitVec 512) (s : State) : Res := done (postAt s q .polar p d)

/-- TURBO_DECODE (R246). -/
def execTurboDecode (q : Fin 4) (p : Poster) (d : BitVec 512) (s : State) : Res := done (postAt s q .turbo p d)

/-- CARRY (R253): a descriptor with MODE = CARRY at the port of the LDPC or turbo decoders. (DEDUCED, unsafe: log 65) -/
def execCarry (q : Fin 4) (turbo : Bool) (p : Poster) (d : BitVec 512) (s : State) : Res :=
  done (postAt s q (if turbo then .turbo else .ldpcDec) p ((d &&& ~~~0xC0#512) ||| 0x40#512))

/-- FFT_JOB (R289). -/
def execFftJob (q : Fin 4) (p : Poster) (d : BitVec 512) (s : State) : Res := done (postAt s q .fft p d)

/-- JOB_START (R235, R236). (DESIGN CHOICE, safe: log 119) -/
def execJobStart (q : Fin 4) (k : JobKind) (s : State) : Res := done (jobStart s q k.code)

/-- A job that has ended may stop its task: a damaged input (R256), or a unit fault without replay (R258). -/
def jobEnds (s : State) (e : Option Nat) (status : Nat) : State :=
  match e with
  | some e => if status = jPARERR then jobStopsTask s e 7 else if status = jFAULT then jobStopsTask s e 9 else s
  | none => s

/-- The first outstanding request of a job is answered. -/
def jobAccess (s : State) (id : Nat) (d : Delivery) : State :=
  let e := (job? s id).bind (·.eng)
  match jobResponse s id (readVia d) (writeVia d) with
  | (st, s) => jobEnds s e st

/-- The job at a place of the list of accepted jobs. -/
def jobAt (s : State) (i : Nat) : Nat := ((s.job.list[i]?).map (·.id)).getD s.job.next

/-- JOB_ACCESS_RESPONSE (R237, R240) to the `i`-th job in order of acceptance. (DESIGN CHOICE, safe: log 119; DEDUCED, unsafe: log 120) -/
def execJobAccessResponse (i : Fin 16384) (d : Delivery) (s : State) : Res := done (jobAccess s (jobAt s i) d)

/-- JOB_FINISH (R237): the work of the `i`-th job ends. -/
def execJobFinish (i : Fin 16384) (s : State) : Res := done (jobFinish s (jobAt s i))

/-- JOB_CANCEL_COMPLETE (R239): the last writes of an engine's cancelled jobs have been answered. (DEDUCED, unsafe: log 65) -/
def execJobCancelComplete (e : Fin 1024) (s : State) : Res :=
  done ((s.job.list.filter fun j => decide (j.eng = some e.val) && j.cancelled).foldl (fun s j => jobAccess s j.id .delivered) s)

/-- A unit of a kind faults. -/
def jobFault (s : State) (q : Nat) (k : JobKind) (u fkind : Nat) : State :=
  if unitsOf k.code ≤ u then s
  else match jobUnitFault s q k.code u fkind accWrite with
    | (some e, s) => jobStopsTask s e 9
    | (none, s) => s

/-- FEC_UNIT_FAULT (R257, R258, R293): a parity error, or an illegal state. -/
def execFecUnitFault (q : Fin 4) (k : JobKind) (u : Fin 8) (illegal : Bool) (s : State) : Res :=
  done (jobFault s q k u (if illegal then 3 else 1))

/-- JOB_WATCHDOG (R257): the job on a unit has run past its limit. -/
def execJobWatchdog (q : Fin 4) (k : JobKind) (u : Fin 8) (s : State) : Res :=
  done (if (runsOn s q k.code u).isSome then jobFault s q k u 9 else s)

end Sys2Proof.Machine
end

