-- ==== Sys2Proof/Machine/StripCmds.lean ====
section
/-! DEFINITION. Meanings of the events of the CXUs and DMA channels (R264 to R285, R326 to R348), and of received sections
(R369). -/

namespace Sys2Proof.Machine

/-! ## Carrier extraction units -/

/-- CXU_MEM_WRITE (R265). -/
def execCxuMemWrite (n : Fin 32) (p : Poster) (d : BitVec 512) (s : State) : Res :=
  done (accWrite s (posterIssuer s p) (0x200040000000 + n / 8 * 0x100000000 + n % 8 * 0x2000000) (leBytes 64 d.toNat)).2

/-- CXU_SAMPLE (R264). -/
def execCxuSample (n : Fin 32) (s : State) : Res := done (cxuSample s n)

/-- CXU_BLOCK_HEADER (R272). -/
def execCxuBlockHeader (n : Fin 32) (s : State) : Res := done (headerWrite s n)

/-- CXU_UNIT_FAULT (R285): a parity error, or an illegal state. -/
def execCxuUnitFault (n : Fin 32) (illegal : Bool) (s : State) : Res := done (cxuFault s n (if illegal then 3 else 1))

/-! ## DMA channels -/

/-- A read of host memory for a channel or a queue engine (R337, R341, R439): code and bytes. -/
def hostReadVia (d : Delivery) (s : State) (a n : Nat) : Nat × List Byte :=
  if !s.hif.linkTrained then (TIMEOUT, [])
  else match d with
    | .delivered => (OKAY, hostLoad s a n)
    | .hostErr => (eHOST, [])
    | _ => (TIMEOUT, [])

/-- A write of host memory: discarded while the link is down (R439). -/
def hostWrite (s : State) (a : Nat) (bs : List Byte) : State := if s.hif.linkTrained then hostStore s a bs else s

/-- A read that a channel has issued. -/
def chRead (d : Delivery) (s : State) (k : Nat) (host : Bool) (a n : Nat) : Nat × List Byte × State :=
  if host then let (c, bs) := hostReadVia d s a n; (c, bs, s) else readVia d s (dmaIssuer s k) (a % 2 ^ 48) n

/-- The descriptor of a chain has been read. -/
def descFetched (s : State) (k : Nat) (d : Delivery) : State :=
  if !(chan s k).fetch then s
  else match chRead d s k (chCtl s k F.CH_CTRL_NEXT_HOST = 1) (rd64 s (chReg k Reg.CH_DESC_LO)) 64 with
    | (c, bs, s) => descLoaded s k c bs

/-- A channel's oldest read is answered. -/
def chReadResponse (s : State) (k : Nat) (d : Delivery) : State :=
  match (chan s k).reads with
  | [] => s
  | (off, n) :: _ =>
    match chRead d s k (chCtl s k F.CH_CTRL_SRC_HOST = 1) (chSrc s k + off) n with
    | (c, bs, s) => chReadDone s k off n c bs

/-- A channel's oldest write is answered: of its data, or of a descriptor's write-back. -/
def chWriteResponse (s : State) (k : Nat) (d : Delivery) : State :=
  let x := chan s k
  match x.writes with
  | [] => s
  | (off, bs) :: _ =>
    let host := if x.wb then x.descHost else decide (chCtl s k F.CH_CTRL_DST_HOST = 1)
    let a := (if x.wb then rd64 s (chReg k Reg.CH_DESC_LO) else chDst s k) + off
    match (if host then (OKAY, hostWrite s (a % 2 ^ 64) bs) else writeVia d s (dmaIssuer s k) (a % 2 ^ 48) bs) with
    | (c, s) => chWriteDone s k off bs.length c

/-- DMA_DESCRIPTOR_FETCHED (R334, R335). -/
def execDmaDescriptorFetched (c : Fin 128) (d : Delivery) (s : State) : Res := done (chAfter (descFetched s c d) c)

/-- DMA_ACCESS_RESPONSE (R337). -/
def execDmaAccessResponse (c : Fin 128) (write : Bool) (d : Delivery) (s : State) : Res :=
  done (chAfter (if write then chWriteResponse s c d else chReadResponse s c d) c)

/-- DMA_DRAIN_DONE (R336). -/
def execDmaDrainDone (c : Fin 128) (s : State) : Res := done (chAfter (drainDone s c) c)

/-- DMA_REQUEST_WORD_WRITE (R339). -/
def execDmaRequestWordWrite (c : Fin 128) (p : Poster) (v : Word) (s : State) : Res :=
  done (accWrite s (posterIssuer s p) (0x200000000000 + c / 32 * 0x100000000 + 0x60000000 + c / 16 % 2 * 0x10000 + c % 16 * 0x40)
    (leBytes 4 v.toNat)).2

/-- DMA_WAITREQ_RESUME (R340). -/
def execDmaWaitreqResume (c : Fin 128) (s : State) : Res := done (chAfter (waitreqResume s c) c)

/-- DMA_STOP_TIMEOUT (R347). -/
def execDmaStopTimeout (c : Fin 128) (s : State) : Res := done (chAfter (dmaStopTimeout s c) c)

/-- What follows for the channels of a DMA engine. -/
def dmaAfter (s : State) (d : Nat) : State := (upto 16).foldl (fun s c => chAfter s (d * 16 + c)) s

/-- DMA_UNIT_FAULT (R348): a parity error, or an illegal state. -/
def execDmaUnitFault (d : Fin 8) (illegal : Bool) (s : State) : Res :=
  done (dmaAfter (dmaFault s d (if illegal then 3 else 1)) d)

/-- PCIE_COMPLETION_TIMEOUT (R337, R413): a host read of a channel, or of the queue engines in their next turn (R424), ends as TIMEOUT. -/
def execPcieCompletionTimeout (c : Option (Fin 128)) (s : State) : Res :=
  done (match c with
    | none => autoStarts (fetchTurn s true)
    | some c =>
      if (chan s c).fetch && decide (chCtl s c F.CH_CTRL_NEXT_HOST = 1) then chAfter (descFetched s c .requestLost) c
      else if chCtl s c F.CH_CTRL_SRC_HOST = 1 then chAfter (chReadResponse s c .requestLost) c
      else s)

/-! ## Sections (R369 to R371) -/

/-- Is a section a good TD16 section of an enabled stream on its lane? -/
def tdGood (s : State) (l : Nat) (x : RxItem) : Bool :=
  let h0 := leAt x.bytes 0 4
  let cfg := rd s (Reg.RXS_CFG (l / 8) (bits h0 0 8))
  decide (bits h0 16 4 = 1 ∧ x.type = 2 ∧ x.nsec = 1 ∧ getF cfg F.RXS_CFG_EN = 1 ∧ getF cfg F.RXS_CFG_FMT = 1) &&
    (decide (l % 8 = getF cfg F.RXS_CFG_LANE) || (prot s (l / 8) && decide (l % 8 = 7))) &&
    lenOk h0 (leAt x.bytes 4 4) (leAt x.bytes 8 4) && decide (16 + bits (leAt x.bytes 4 4) 16 11 ≤ x.bytes.length)

/-- The oldest section that a lane has received is handled. -/
def handleSection (s : State) (l : Nat) : State :=
  match takeSection s l with
  | (none, s) => s
  | (some x, s) =>
    let i := bits (leAt x.bytes 0 4) 0 8
    let s := if tdGood s l x then
        tdSection s (l / 8 * 256 + i) (rd s (Reg.RXS_CFG (l / 8) i)) (rd s (Reg.RXS_TDOFF (l / 8) i)) x
      else s
    sectionReceive s (l / 8) l x

/-- SECTION_RECEIVE (R369). -/
def execSectionReceive (l : Fin 96) (s : State) : Res := done (handleSection s l)

end Sys2Proof.Machine
end

