-- ==== Sys2Proof/Machine/Thermal.lean ====
section
/-! DEFINITION. The skim round and the thermal thresholds (R467 to R475). -/

namespace Sys2Proof.Machine

/-- A diode. -/
def sens (s : State) (i : Nat) : SensS := Tab.get (fun _ => {}) s.pwr.sens i

/-- Sets a diode's reading. -/
def updSens (s : State) (i : Nat) (g : SensS → SensS) : State :=
  { s with pwr := { s.pwr with sens := Tab.upd (fun _ => {}) s.pwr.sens i g } }

/-- A signed temperature of 16 bits. -/
def temp16 (v : Nat) : Int := sgn 16 v

/-- The housekeeping converter samples a channel (R467, R469): a diode's reading waits for the end of the round; a monitor is
held against its limits. -/
def skimSample (s : State) (c : Nat) (v : BitVec 16) (isOpen isShort : Bool) : State :=
  if c < 24 then updSens s c fun x => { x with raw := v, isOpen := isOpen, isShort := isShort }
  else
    let k := c - 24
    let s := setFld s (Reg.THM_MON_VAL k) F.THM_MON_VAL_VALUE v.toNat
    if c = 63 || (decide (fld s (Reg.THM_MON_LO k) F.THM_MON_LO_VALUE ≤ v.toNat) &&
        decide (v.toNat ≤ fld s (Reg.THM_MON_HI k) F.THM_MON_HI_VALUE)) then s
    else
      let s := sep (evt s Reg.THM_EVT F.THM_EVT_MON) 0x10 0 1 (c + v.toNat * 2 ^ 16)
      if isSet s Reg.SEP_CTL F.SEP_CTL_MON_FATAL then fatal s 6 else s

/-- A diode's corrected temperature in 1/16 °C (R468). -/
def measured (s : State) (i : Nat) : Int :=
  (sens s i).raw.toInt + sgn 8 (fld s (Reg.THM_SCFG i) F.THM_SCFG_TRIM)

/-- Kind of a diode's fault in this round: 0 none, 1 open, 2 short, 3 out of range. -/
def sensKind (s : State) (i : Nat) : Nat :=
  if (sens s i).isOpen then 1 else if (sens s i).isShort then 2
  else if measured s i < -800 ∨ 2800 < measured s i then 3 else 0

/-- Is a sensor retired (R473), and which sensor stands for it? -/
def retiredSens (s : State) (i : Nat) : Bool := isSet s (Reg.THM_SCFG i) F.THM_SCFG_RETIRE
def neighbour (s : State) (i : Nat) : Nat := fld s (Reg.THM_SCFG i) F.THM_SCFG_NEIGH

/-- Is the source of a sensor's temperature in use faulty: the sensor, or the substitute of a retired one? -/
def sourceBad (s : State) (i : Nat) : Bool := decide (sensKind s (if retiredSens s i then neighbour s i else i) ≠ 0)

/-- Temperature in use (R468, R473). -/
def tempInUse (s : State) (i : Nat) : Int :=
  if sourceBad s i then 2400
  else if retiredSens s i then measured s (neighbour s i) + 160 else measured s i

/-- A diode is judged; a sensor that becomes faulty is counted and recorded. (DEDUCED, unsafe: log 51) -/
def judgeSens (s : State) (i : Nat) : State :=
  let a := Reg.THM_SENS i
  let was := isSet s a F.THM_SENS_FAULT
  let k := sensKind s i
  let t := wrapN 16 (tempInUse s i)
  let warm := decide (temp16 (fld s a F.THM_SENS_TEMP) < temp16 (fld s Reg.THM_WARN F.THM_WARN_TEMP))
  let w := putAll 0 [(F.THM_SENS_TEMP, t), (F.THM_SENS_VALID, (decide (k = 0)).toNat), (F.THM_SENS_FAULT, (decide (k ≠ 0)).toNat),
    (F.THM_SENS_KIND, k), (F.THM_SENS_SUBST, (retiredSens s i).toNat)]
  let s := wr s a w
  let s := if k ≠ 0 ∧ was = false then sep (evt (inc s Reg.THM_SFAULT_CNT) Reg.THM_EVT F.THM_EVT_SFAULT) 0x0A (0xE000 + i) 3 t else s
  if temp16 (fld s Reg.THM_WARN F.THM_WARN_TEMP) ≤ temp16 t then
    let s := evt s Reg.THM_EVT F.THM_EVT_WARN
    if warm then sep s 0x0A (0xE000 + i) 0 t else s
  else s

/-- The sensors that cover a region (R467): sectors 0 to 15, strips 16 to 19. -/
def covers (r : Nat) : List Nat :=
  r :: (if r = 3 ∨ r = 6 ∨ r = 9 ∨ r = 12 then [20] else []) ++ (if r = 0 ∨ r = 1 ∨ r = 4 ∨ r = 5 then [21] else [])
    ++ (if r = 10 ∨ r = 11 ∨ r = 14 ∨ r = 15 then [22] else [])

/-- The sensor with the highest temperature in use among some, the first of equals. -/
def hottest (s : State) : List Nat → Option Nat
  | [] => none
  | i :: is =>
    match hottest s is with
    | none => some i
    | some j => if tempInUse s j ≤ tempInUse s i then some i else some j

/-- A region's cap. -/
def capOf (s : State) (r : Nat) : Nat := fld s (Reg.THM_CAP r) F.THM_CAP_CAP

/-- A region's cap changes (R471): a request for a sector's point, a strip's throttle level. -/
def setCap (s : State) (r cap src : Nat) : State :=
  let a := Reg.THM_CAP r
  let s := setFld (setFld s a F.THM_CAP_CAP cap) a F.THM_CAP_SRC src
  let p := Reg.PWR_DOM_OP r
  let s := setFld s p F.PWR_DOM_OP_CAP cap
  if r < 16 then opRequest s r else setFld (setFld s p F.PWR_DOM_OP_TARGET cap) p F.PWR_DOM_OP_CUR cap

/-- The count of rounds below the relax limit. -/
def setRelax (s : State) (r n : Nat) : State := setFld s (Reg.THM_CAP r) F.THM_CAP_RELAXCNT n

/-- A THERMAL event of a region. (DEDUCED, unsafe: log 51) -/
def thermalEvent (s : State) (r code src : Nat) : State := sep s 0x0A (uDom r) code (wrapN 16 (tempInUse s src))

/-- A region at the end of a round (R470, R471, R473). `newBad`: sensors whose source has become faulty in this round. -/
def judgeRegion (s : State) (newBad : List Nat) (r : Nat) : State :=
  let a := Reg.THM_CAP r
  let held (s : State) : Bool := isSet s a F.THM_CAP_ESC && sourceBad s (fld s a F.THM_CAP_SRC)
  match (covers r).find? (fun i => newBad.contains i) with
  | some i =>
    if capOf s r ≠ 0 then
      let s := setFld (setRelax s r 0) a F.THM_CAP_ESC 1
      thermalEvent (evt (setCap s r 3 i) Reg.THM_EVT F.THM_EVT_ESCALATE) r 4 i
    else plain s
  | none => if held s then setRelax s r 0 else plain s
where
  /-- The thresholds. -/
  plain (s : State) : State :=
    let s := setFld s (Reg.THM_CAP r) F.THM_CAP_ESC 0
    match hottest s (covers r) with
    | none => s
    | some i =>
      let t := tempInUse s i
      let thr := temp16 (fld s Reg.THM_THROTTLE F.THM_THROTTLE_TEMP)
      let cap := capOf s r
      if thr ≤ t then
        let s := setRelax s r 0
        let new := min 3 ((if r < 16 then opTarget s r else cap) + 1)
        if new = cap then s else thermalEvent (evt (setCap s r new i) Reg.THM_EVT F.THM_EVT_THROTTLE) r 1 i
      else if t < thr - fld s Reg.THM_CTL F.THM_CTL_HYST * 16 then
        let n := fld s (Reg.THM_CAP r) F.THM_CAP_RELAXCNT + 1
        if n < fld s Reg.THM_CTL F.THM_CTL_RELAX then setRelax s r n
        else
          let s := setRelax s r 0
          if cap = 0 then s else thermalEvent (evt (setCap s r (cap - 1) i) Reg.THM_EVT F.THM_EVT_RELAX) r 2 i
      else setRelax s r 0

/-- A trip (R474). (DEDUCED, unsafe: log 56) -/
def trip (s : State) (i : Nat) : State :=
  if isSet s Reg.THM_STAT F.THM_STAT_TRIP then s
  else
    let s := emit { s with pwr := { s.pwr with clocksStopped := true } } .thermtrip
    let s := evt (setFld s Reg.THM_STAT F.THM_STAT_TRIP 1) Reg.THM_EVT F.THM_EVT_TRIP
    fatal (sep s 0x0A (0xE000 + i) 5 (wrapN 16 (measured s i))) 1

/-- The refresh rate of the stack beside diode `i` after a round: doubled from 85 °C, normal again below 82 °C (R560).
A faulty diode leaves it as it is. (DEDUCED, unsafe: log 149) -/
def refreshAfter (s : State) (i : Nat) : Bool :=
  if sensKind s i ≠ 0 ∨ (i ≠ 21 ∧ i ≠ 22) then (sens s i).refresh2x
  else if 1360 ≤ measured s i then true
  else if measured s i < 1312 then false
  else (sens s i).refresh2x

/-- The end of a skim round (R470, R560). -/
def skimRoundEnd (s : State) : State :=
  let newBad := (upto 24).filter fun i => sourceBad s i && !(sens s i).bad
  let s := (upto 24).foldl judgeSens s
  let s := (upto 24).foldl (fun s i => updSens s i fun x => { x with bad := sourceBad s i, refresh2x := refreshAfter s i }) s
  let s := (upto 20).foldl (fun s r => judgeRegion s newBad r) s
  let s := match hottest s (upto 24) with
    | some i => setFld (setFld s Reg.THM_STAT F.THM_STAT_HOTTEST i) Reg.THM_STAT F.THM_STAT_TEMP (wrapN 16 (tempInUse s i))
    | none => s
  let s := match (upto 24).find? (fun i => decide (sensKind s i = 0) && decide (temp16 (fld s Reg.THM_CRIT F.THM_CRIT_TEMP) ≤ measured s i)) with
    | some i => trip s i
    | none => s
  inc s Reg.THM_ROUND_CNT

end Sys2Proof.Machine
end

