-- ==== Sys2Proof/Machine/Inject.lean ====
section
/-! DEFINITION. Fault injection (R513), and retirement and return of units by management (R499, R511). -/

namespace Sys2Proof.Machine

/-- Index of a job unit within strip and kind: the inverse of `jobUnit`. -/
def jobUnitOf (u : Nat) : Option (Nat × Nat × Nat) :=
  [1, 2, 3, 4, 6].findSome? fun kind =>
    (upto 4).findSome? fun q => (firstFrom (fun i => decide (jobUnit q kind i = u)) (unitsOf kind) 0).map fun i => (q, kind, i)

/-- Says how faults of a unit are taken (`UnitS.mute`). -/
def setMute (s : State) (u m : Nat) : State := updUnit s u fun x => { x with mute := m }

/-! ## Injection (R513) -/

/-- A job unit faults, and the task of the job it ran may be stopped. -/
def jobFaultAt (s : State) (q kind i fkind : Nat) : State :=
  match jobUnitFault s q kind i fkind accWrite with
  | (some e, s) => jobStopsTask s e 9
  | (none, s) => s

/-- A fault of a kind (1 PARITY, 3 ILLEGAL) of a unit, as the unit takes it. (DEDUCED, unsafe: log 70) -/
def injected (s : State) (u kind : Nat) : State :=
  let i := u % 4096
  match u / 4096 with
  | 1 => engineFault s i kind 0 0 true
  | 2 =>
    if kind = 3 then tileLost s i 3
    else
      let (p, s) := countFault (evt s Reg.RAS_EVT F.RAS_EVT_TMEM) u 1 0 0
      if p then judgeFault s u true else s
  | 3 =>
    match (cp3U s i).busy with
    | some e => engineFault s e kind 11 0 true
    | none => unitFault s u kind 0 0
  | 4 => linkFault s (i / 16) (i % 16) 6
  | 5 => lossOfLock s i
  | 10 => cxuFault s i kind
  | 12 => dmaAfter (dmaFault s i kind) i
  | _ =>
    match jobUnitOf u with
    | some (q, k, j) => jobFaultAt s q k j kind
    | none => (countFault s u kind 0 0).2

/-- Units whose counting an injection may suppress: the unit, and the engine that keeps a CP3 busy. -/
def injectedUnits (s : State) (u : Nat) : List Nat :=
  if u / 4096 = 3 then u :: ((cp3U s (u % 4096)).busy.map uEng).toList else [u]

/-- GO of RAS_INJ. (DEDUCED, unsafe: log 70) -/
def rasInject (s : State) : State :=
  let u := fld s Reg.RAS_INJ F.RAS_INJ_UNIT
  let kind := fld s Reg.RAS_INJ F.RAS_INJ_KIND
  if !unitExists u || decide (unitSt s u ≠ 0) || !decide (kind = 1 ∨ kind = 3) then s
  else if isSet s Reg.RAS_INJ F.RAS_INJ_NOCOUNT then
    let us := injectedUnits s u
    us.foldl (fun s v => setMute s v 0) (injected (us.foldl (fun s v => setMute s v 1) s) u kind)
  else injected s u kind

/-! ## Retirement by management (R499, R511) -/

/-- A job unit's work is taken from it before it is retired. -/
def clearJobUnit (s : State) (q kind i : Nat) : State :=
  match runsOn s q kind i with
  | none => s
  | some j =>
    match faultJob (setUnitSt s (jobUnit q kind i) 1) j i accWrite with
    | (some e, s) => jobStopsTask s e 9
    | (none, s) => s

/-- Is a unit one that can be retired (R499)? (DEDUCED, unsafe: log 86) -/
def retirable (u : Nat) : Bool :=
  unitExists u && decide (1 ≤ u / 4096 ∧ u / 4096 ≤ 13) && decide (u / 4096 ≠ 13 ∨ u % 4096 < 20)

/-- A unit is retired by management, uncounted: its work goes elsewhere, and it stays behind its fence. (DEDUCED, unsafe: log 86) -/
def retire (s : State) (u : Nat) : State :=
  let i := u % 4096
  if unitSt s u = 3 then s
  else match u / 4096 with
    | 1 =>
      let s := cancelJobs (updEng (fenceRequest s u) i fun x => { x with halt := true, fault := none }) i
      faultTask (retireUnit s u 1) i 0 false
    | 2 => tileLost (retireUnit s u 1) i 0
    | 4 =>
      let s := if isolated s (i / 16) (i % 16) then s else isolate s (i / 16) (i % 16)
      routeAround (retireUnit s u 1)
    | 5 =>
      let up := decide (lnState s i = 6)
      let s := sep (setLn (retireUnit (fenceRequest s u) u 1) i 10) 0x0B u 10 0
      if up then bundleLoss s (i / 8) (i % 8) else s
    | 10 =>
      let s := updCxu s i fun x => { x with queue := [], blk := {}, hdrs := [] }
      retireUnit (setFld (fenceRequest s u) (Reg.CXU_STAT i) F.CXU_STAT_RUN 0) u 1
    | 12 =>
      let s := setMute (dmaAfter (dmaFault (setMute s u 2) i 0) i) u 0
      retireUnit s u 1
    | 13 => retireDomain (retireUnit s u 1) i
    | _ =>
      match jobUnitOf u with
      | some (q, k, j) => retireUnit (fenceRequest (clearJobUnit s q k j) u) u 1
      | none => retireUnit (fenceRequest s u) u 1

/-- A unit's fault history is cleared (R511). -/
def clearHistory (s : State) (u : Nat) : State := updUnit s u fun x => { x with kind := 0, total := 0, last := 0, stamps := [] }

/-- A unit is restored (R511): it goes back behind its fence and returns through the ready handshake; a lane trains again, a
domain wakes. (DEDUCED, unsafe: log 86) -/
def restore (s : State) (u : Nat) : State :=
  let i := u % 4096
  let was := unitSt s u
  let s := clearHistory s u
  if was = 0 then s
  else
    let s := setUnitSt s u 1
    match u / 4096 with
    | 4 => s
    | 5 => if was = 3 then setLn (setLnF s i F.LN_STAT_ATTEMPTS 0) i (if isSet s (lnReg Reg.LN_CTL i) F.LN_CTL_EN then 1 else 0) else s
    | 13 =>
      let s := if domSt s i = 6 then setDom (setReason s i 4) i 3 else s
      domRequest s i { st := 0, drain := false, reason := 4, reset := false }
    | _ => fenceRequest s u

/-- May a function ask for a unit, or for a domain as a whole: do its partition's registers give it (R315, R476, R511)? -/
def unitOfFn (s : State) (f u : Nat) : Bool :=
  let i := u % 4096
  let tile (t : Nat) : Bool := bitAt (rd s (Reg.PART_TILE f (t / 32))).toNat (t % 32)
  let strip (q : Nat) : Bool := bitAt (rd s (Reg.PART_ACC f)).toNat q
  decide (f = 0) || (match u / 4096 with
    | 1 => tile (i / 8)
    | 2 => tile i
    | 3 => tile i
    | 10 => strip (i / 8)
    | 12 => strip (i / 2)
    | 13 => if i < 16 then (upto 8).all fun t => tile (i * 8 + t) else decide (i < 20) && strip (i - 16)
    | _ =>
      match jobUnitOf u with
      | some (q, _, _) => strip q
      | none => false)

end Sys2Proof.Machine
end

