-- ==== Sys2Proof/Machine/RegHooks.lean ====
section
/-! DEFINITION. What a register write does (R8 to R12): how its fields merge, who may write them, and the registers whose write
has an effect of its own. -/

namespace Sys2Proof.Machine

/-! ## Requesters (R40, R515, R526) -/

/-- Code of a requester: functions 0 to 31, management cores from 32, the SPI port 36, the I3C port 37, supervisors from 64. -/
def whoCode : Requester → Nat
  | .fn f => f
  | .mc i => 32 + i
  | .spi => 36
  | .i3c => 37
  | .sup t => 64 + t

/-- The function whose registers a requester reaches. -/
def whoFn : Requester → Nat
  | .fn f => f
  | _ => 0

/-- Is it a management core? -/
def isMc : Requester → Bool
  | .mc _ => true
  | _ => false

/-- Does it hold the rights of the physical function? (DEDUCED, unsafe: log 30) -/
def pfRights : Requester → Bool
  | .fn f => decide (f = 0)
  | .mc _ => false
  | _ => true

/-- Is it the supervisor of the tile whose registers an offset lies in (R512)? -/
def ownSup (w : Requester) (a : Nat) : Bool :=
  match w with
  | .sup t => decide (0x1100000 ≤ a ∧ (a - 0x1100000) / 0x10000 = t.val)
  | _ => false

/-- Is it the SPI or the I3C port? -/
def isExt : Requester → Bool
  | .spi => true
  | .i3c => true
  | _ => false

/-- May a requester write a register or field at an offset? (DEDUCED, unsafe: log 30) -/
def mayWrite (w : Requester) (a : Nat) : Who → Bool
  | .any => true
  | .mc => isMc w
  | .mcpf => isMc w || pfRights w
  | .mcsup => isMc w || ownSup w a
  | .pf => pfRights w

/-! ## Merging (R9 to R11) -/

/-- Is a value one of a field's encodings? -/
def encOk (ok : List (Nat × Nat)) (v : Nat) : Bool := ok.isEmpty || ok.any fun r => decide (r.1 ≤ v ∧ v ≤ r.2)

/-- A register with one field of a write in it. -/
def mergeField (may : Bool) (old v : Word) (f : RField) : Word :=
  let x : Fld := ⟨f.lo, f.width⟩
  match f.acc with
  | .rw => if may && encOk f.ok (getF v x) then putF old x (getF v x) else old
  | .w1c => if may then old &&& ~~~(putF 0 x (getF v x)) else old
  | _ => old

/-- A register with a write in it. -/
def mergeReg (w : Requester) (a : Nat) (d : RegDesc) (old v : Word) : Word :=
  d.fields.foldl (fun old f => mergeField (mayWrite w a f.who) old v f) old

/-- The bits of a write that a requester may write in WO fields. -/
def woPart (w : Requester) (a : Nat) (d : RegDesc) (v : Word) : Word :=
  d.fields.foldl (fun o f => if f.acc = .wo ∧ mayWrite w a f.who = true then putF o ⟨f.lo, f.width⟩ (getF v ⟨f.lo, f.width⟩) else o) 0

/-! ## Registers with an effect of their own -/

/-- A replicated register whose write has an effect: its first address, stride and count of two indices, and what a write does,
from the requester, the function, the indices, the WO fields written and the register with the write in it. -/
structure WriteReg where
  base : Nat
  s1 : Nat
  n1 : Nat
  s2 : Nat
  n2 : Nat
  run : Requester → Nat → Nat → Nat → Word → Word → State → State

/-- The effect at an offset, if one of a list covers it. -/
def writeAtList : List WriteReg → Nat → Option (Requester → Nat → Word → Word → State → State)
  | [], _ => none
  | r :: rs, a =>
    let o := a - r.base
    if r.base ≤ a ∧ o / r.s1 < r.n1 ∧ o % r.s1 % r.s2 = 0 ∧ o % r.s1 / r.s2 < r.n2
    then some fun w f v m s => r.run w f (o / r.s1) (o % r.s1 / r.s2) v m s
    else writeAtList rs a

/-- One register; its first argument is the WO part, its second the merged value. -/
def hook0 (a : Nat) (g : Word → Word → State → State) : WriteReg := ⟨a, 4, 1, 4, 1, fun _ _ _ _ v m s => g v m s⟩

/-- A register with one index. -/
def hook1 (a stride n : Nat) (g : Nat → Word → Word → State → State) : WriteReg := ⟨a, stride, n, stride, 1, fun _ _ i _ v m s => g i v m s⟩

/-- A register with two indices. -/
def hook2 (a s1 n1 s2 n2 : Nat) (g : Nat → Nat → Word → Word → State → State) : WriteReg :=
  ⟨a, s1, n1, s2, n2, fun _ _ i j v m s => g i j v m s⟩

/-- A register of a function. -/
def hookF (a stride n : Nat) (g : Nat → Nat → Word → Word → State → State) : WriteReg :=
  ⟨a, stride, n, stride, 1, fun _ f i _ v m s => g f i v m s⟩

/-- Is a one-bit field of a word set? -/
def on (v : Word) (f : Fld) : Bool := decide (getF v f ≠ 0)

/-- A word with a field put back to what the register holds. -/
def keep (s : State) (a : Nat) (f : Fld) (m : Word) : Word := putF m f (fld s a f)

/-! ### SWATCH and HIF (R421, R436, R441, R442) -/

/-- The lowest accepted bit that is not offered. -/
def notOffered (s : State) (f : Nat) : Option Nat :=
  firstFrom (fun j => bitAt (rd s (fnKey f (Reg.DRV_SWATCH (j / 32)))).toNat (j % 32) &&
    !bitAt (rd s (fnKey f (Reg.DEV_SWATCH (j / 32)))).toNat (j % 32)) 256 0

/-- ACCEPT. -/
def swatchAccept (s : State) (f : Nat) : State :=
  let a := fnKey f Reg.SWATCH_STAT
  if swAccepted s f then s
  else match notOffered s f with
    | some j => setFld (setFld s a F.SWATCH_STAT_ERR 1) a F.SWATCH_STAT_ERRBIT j
    | none => setFld (setFld s a F.SWATCH_STAT_ERR 0) a F.SWATCH_STAT_ACCEPTED 1

/-- A write of a register that holds a vector number of a function. -/
def vecWrite (s : State) (f a : Nat) (fd : Fld) (m : Word) : State :=
  wr s a (if getF m fd < msixSize s f then m else keep s a fd m)

/-- A write of QP_CTL. -/
def qpCtlWrite (s : State) (f q : Nat) (m : Word) : State :=
  let a := qp f q Reg.QP_CTL
  let was := isSet s a F.QP_CTL_EN
  let s := setFld s a F.QP_CTL_IEN (getF m F.QP_CTL_IEN)
  let s := if !was && on m F.QP_CTL_EN then qpEnable s f q
    else if was && !on m F.QP_CTL_EN then setFld s a F.QP_CTL_EN 0 else s
  coalCheck s f q

/-- A write of a register of a queue pair that changes only while the pair is disabled. -/
def qpWrite (s : State) (f q : Nat) (r : Nat → Nat) (m : Word) : State :=
  if isSet s (qp f q Reg.QP_CTL) F.QP_CTL_EN then s else wr s (qp f q r) m

/-- A write of MSIX_VCTL: a vector that is unmasked sends what waits (R435). -/
def vctlWrite (s : State) (f v : Nat) (m : Word) : State :=
  let p := fnKey f (Reg.MSIX_PBA (v / 32))
  let s := wr s (fnKey f (Reg.MSIX_VCTL v)) m
  if !on m F.MSIX_VCTL_MASK && bitAt (rd s p).toNat (v % 32) then
    msixSend (setFld s p ⟨v % 32, 1⟩ 0) f v else s

/-- What writes of registers do: the host interface. -/
def hooksHif : List WriteReg :=
  [ hookF (Reg.DRV_SWATCH 0) 4 8 fun f k _ m s => if swAccepted s f then s else wr s (fnKey f (Reg.DRV_SWATCH k)) m,
    hookF Reg.SWATCH_CTL 4 1 fun f _ v _ s => if on v F.SWATCH_CTL_ACCEPT then swatchAccept s f else s,
    hookF Reg.HIF_EVT_VEC 4 1 fun f _ _ m s => vecWrite s f (fnKey f Reg.HIF_EVT_VEC) F.HIF_EVT_VEC_VECTOR m,
    hookF Reg.HIF_DEVEVT_VEC 4 1 fun f _ _ m s => vecWrite s f (fnKey f Reg.HIF_DEVEVT_VEC) F.HIF_DEVEVT_VEC_VECTOR m,
    hookF (Reg.QP_CTL 0) 0x40 64 fun f q _ m s => qpCtlWrite s f q m,
    hookF (Reg.QP_SIZE 0) 0x40 64 fun f q _ m s => qpWrite s f q Reg.QP_SIZE m,
    hookF (Reg.QP_SQ_BASE_LO 0) 0x40 64 fun f q _ m s => qpWrite s f q Reg.QP_SQ_BASE_LO m,
    hookF (Reg.QP_SQ_BASE_HI 0) 0x40 64 fun f q _ m s => qpWrite s f q Reg.QP_SQ_BASE_HI m,
    hookF (Reg.QP_CQ_BASE_LO 0) 0x40 64 fun f q _ m s => qpWrite s f q Reg.QP_CQ_BASE_LO m,
    hookF (Reg.QP_CQ_BASE_HI 0) 0x40 64 fun f q _ m s => qpWrite s f q Reg.QP_CQ_BASE_HI m,
    hookF (Reg.QP_VEC 0) 0x40 64 fun f q _ m s =>
      qpWrite s f q Reg.QP_VEC (if getF m F.QP_VEC_VECTOR < msixSize s f then m else keep s (qp f q Reg.QP_VEC) F.QP_VEC_VECTOR m),
    hookF (Reg.QP_COAL 0) 0x40 64 fun f q _ m s => coalCheck (wr s (qp f q Reg.QP_COAL) m) f q,
    hook1 (Reg.VF_CTL 0) 0x40 32 fun v _ m s => if vfOn s v then s else wr s (Reg.VF_CTL v) m,
    hookF (Reg.MSIX_VCTL 0) 0x10 2048 fun f v _ m s => vctlWrite s f v m ]

/-! ### TLN (R52, R54, R90, R566) -/

/-- A write of TL_CTL. (DEDUCED, unsafe: log 87) -/
def tlCtlWrite (s : State) (n : Nat) (m : Word) : State :=
  let a := Reg.TL_CTL n
  let was := isSet s a F.TL_CTL_EN
  let m := if on m F.TL_CTL_DIRECT && !feature s (getF m F.TL_CTL_OWNER) 5 then keep s a F.TL_CTL_DIRECT m else m
  let s := wr s a m
  if !was && on m F.TL_CTL_EN then tlEnable s n else s

/-- A write of TLN_CTL. -/
def tlnCtlWrite (s : State) (m : Word) : State :=
  let was := isSet s Reg.TLN_CTL F.TLN_CTL_EN
  let s := wr s Reg.TLN_CTL m
  if !was && on m F.TLN_CTL_EN then tlnEnable s else s

/-- Is a period one that a timeline with a prepare lead may have (R49)? -/
def periodOk (p prep : Nat) : Bool := decide (61440 ≤ p ∧ prep < p)

/-- What writes of registers do: the timelines. (DEDUCED, unsafe: log 31, 76) -/
def hooksTln : List WriteReg :=
  [ hook0 Reg.TLN_CTL fun _ m s => tlnCtlWrite s m,
    hook1 (Reg.TLN_DMA_CH 0) 4 4 fun k _ m s => retryPairs (wr s (Reg.TLN_DMA_CH k) m),
    hook1 (Reg.TL_CTL 0) 0x40 64 fun n _ m s => tlCtlWrite s n m,
    hook1 (Reg.TL_PERIOD 0) 0x40 64 fun n _ m s =>
      if periodOk (getF m F.TL_PERIOD_VALUE) (fld s (Reg.TL_PREP n) F.TL_PREP_VALUE) then wr s (Reg.TL_PERIOD n) m else s,
    hook1 (Reg.TL_PREP 0) 0x40 64 fun n _ m s =>
      if getF m F.TL_PREP_VALUE < tlPeriod s n then wr s (Reg.TL_PREP n) m else s,
    hook1 (Reg.TL_TAIL 0) 0x40 64 fun n _ m s =>
      if tlDirect s n then setFld s (Reg.TL_TAIL n) F.TL_TAIL_INDEX (getF m F.TL_TAIL_INDEX % ringSize s n) else s,
    hook1 (Reg.TL_SLOTNUM 0) 0x40 64 fun n _ m s => if isSet s (Reg.TL_CTL n) F.TL_CTL_EN then s else wr s (Reg.TL_SLOTNUM n) m ]

/-! ### TIM (R390 to R410) -/

/-- What writes of registers do: the time base. (DEDUCED, unsafe: log 15) -/
def hooksTim : List WriteReg :=
  [ hook0 Reg.TIM_CTL fun _ m s => wr s Reg.TIM_CTL (if feature s 0 12 then m else keep s Reg.TIM_CTL F.TIM_CTL_AUTORESP m),
    hook0 Reg.TIM_OFFSET_HI fun _ m s => timSetOffset s (rd s Reg.TIM_OFFSET_LO) m,
    hook0 Reg.TIM_RATE fun _ m s => timSetRate s m,
    hook0 Reg.TIM_STEP fun v _ s => timStep s v,
    hook0 Reg.TIM_TTX_CTL fun v m s =>
      let s := wr s Reg.TIM_TTX_CTL m
      if on v F.TIM_TTX_CTL_GO then ttxGo s else s,
    hook0 Reg.TIM_TRX_POP fun v _ s => if on v F.TIM_TRX_POP_POP then trxPop s else s,
    hook1 (Reg.TIM_CMP_CTL 0) 0x20 16 fun n _ m s =>
      let a := Reg.TIM_CMP_CTL n
      wr s a (if getF m F.TIM_CMP_CTL_ACT = 2 ∧ n ≠ 15 then keep s a F.TIM_CMP_CTL_ACT m else m),
    hook1 (Reg.TIM_CMP_PERIOD 0) 0x20 16 fun n _ m s =>
      if m.toNat < 64 ∧ isSet s (Reg.TIM_CMP_CTL n) F.TIM_CMP_CTL_PERIODIC = true then s else wr s (Reg.TIM_CMP_PERIOD n) m ]

/-! ### PWR and THM (R451, R452, R460, R462, R465, R475) -/

/-- A write of PWR_DOMn_REQ. -/
def domReqWrite (s : State) (n : Nat) (v m : Word) : State :=
  let s := wr s (Reg.PWR_DOM_REQ n) m
  let s := if on v F.PWR_DOM_REQ_GO then
      domRequest s n { st := getF m F.PWR_DOM_REQ_STATE, drain := on m F.PWR_DOM_REQ_DRAIN, reason := 2, reset := false } else s
  if on v F.PWR_DOM_REQ_RESET && decide (n ≤ 15) then sectorReset s n else s

/-- A write of a temperature limit: none above its default. -/
def limitWrite (s : State) (a dflt : Nat) (m : Word) : State := if sgn 16 m.toNat ≤ dflt then wr s a m else s

/-- What writes of registers do: the power and thermal blocks. (DEDUCED, unsafe: log 87) -/
def hooksPwr : List WriteReg :=
  [ hook0 Reg.PWR_CTL fun _ m s => wr s Reg.PWR_CTL (if feature s 0 10 then m else keep s Reg.PWR_CTL F.PWR_CTL_WAKE_NATIVE m),
    hook0 Reg.PWR_LEVEL_REQ fun v m s =>
      let s := wr s Reg.PWR_LEVEL_REQ m
      if on v F.PWR_LEVEL_REQ_GO then levelCheck (levelRequest s (getF m F.PWR_LEVEL_REQ_LEVEL) 2) else s,
    hook1 (Reg.PWR_DOM_REQ 0) 0x10 20 fun n v m s => domReqWrite s n v m,
    hook1 (Reg.PWR_DOM_OP 0) 0x10 20 fun n _ m s => if n < 16 then opRequest (wr s (Reg.PWR_DOM_OP n) m) n else s,
    hook1 (Reg.PWR_DOM_CLK 0) 0x10 16 fun n _ m s =>
      if on m F.PWR_DOM_CLK_SRC then clockSwitch s n else wr s (Reg.PWR_DOM_CLK n) m,
    hook0 Reg.THM_WARN fun _ m s => limitWrite s Reg.THM_WARN 0x5F0 m,
    hook0 Reg.THM_THROTTLE fun _ m s => limitWrite s Reg.THM_THROTTLE 0x640 m ]

/-! ### RAS, SEP and MGT (R510 to R514, R528, R535, R540) -/

/-- A write of MGT_GPIO_FUNC: code 3 is reserved for each pin. -/
def gpioFunc (old m : Word) : Word :=
  (upto 16).foldl (fun w n => if getF m ⟨2 * n, 2⟩ = 3 then putF w ⟨2 * n, 2⟩ (getF old ⟨2 * n, 2⟩) else w) m

/-- What writes of registers do: the management block. -/
def hooksMgt : List WriteReg :=
  [ hook0 Reg.RAS_INJ fun v m s =>
      let s := wr s Reg.RAS_INJ m
      if on v F.RAS_INJ_GO then rasInject s else s,
    ⟨Reg.RAS_Q_UNIT, 4, 1, 4, 1, fun w _ _ _ _ m s =>
      rasCapture (wr s Reg.RAS_Q_UNIT m) (whoCode w) (getF m F.RAS_Q_UNIT_UNIT)⟩,
    ⟨Reg.SEP_CTL, 4, 1, 4, 1, fun w _ _ _ v m s => sepCtlWrite s (m ||| v) (isMc w)⟩,
    hook0 Reg.SEP_MARK fun v _ s => sepMark s (fld s Reg.SEP_MARK_CODE F.SEP_MARK_CODE_CODE) v,
    ⟨Reg.SEP_RD_SEL, 4, 1, 4, 1, fun w _ _ _ _ m s => sepCapture (wr s Reg.SEP_RD_SEL m) (whoCode w) m.toNat⟩,
    hook0 Reg.MGT_RST_REQ fun v _ s => if on v F.MGT_RST_REQ_WARM then warmReset s 8 else s,
    hook0 Reg.MGT_GPIO_FUNC fun _ m s => wr s Reg.MGT_GPIO_FUNC (gpioFunc (rd s Reg.MGT_GPIO_FUNC) m),
    hook0 Reg.MGT_HBOOT_CTL fun v _ s => if on v F.MGT_HBOOT_CTL_GO then hbootGo s else s ]

/-! ### NOC and MEM (R307, R308, R322, R324) -/

/-- A write of NOC_RSTAT: a port whose isolation is lifted goes back into service, unless it is retired, and the flits that wait
are routed again. (DEDUCED, unsafe: log 74) -/
def rstatWrite (s : State) (r : Nat) (m : Word) : State :=
  let a := Reg.NOC_RSTAT r
  let old := fld s a F.NOC_RSTAT_ISOL
  let off := (upto 9).filter fun p => bitAt old p && !bitAt (getF m F.NOC_RSTAT_ISOL) p
  let stay := off.filter fun p => decide (unitSt s (uPort r p) = 3)
  let s := setFld (wr s a m) a F.NOC_RSTAT_ISOL (stay.foldl setBit (getF m F.NOC_RSTAT_ISOL))
  let s := off.foldl (fun s p => if unitSt s (uPort r p) = 1 then handshakeDone s (uPort r p) else s) s
  if off.isEmpty then s
  else
    let hs := s.noc.held
    hs.foldl (fun s h => routeFlit s h.router h.port h.cls h.first h.hdr h.payload) { s with noc := { s.noc with held := [] } }

/-- A write of MEM_CTL: a change of EN from 0 to 1 puts the control region in force. (DEDUCED, unsafe: log 76) -/
def memCtlWrite (s : State) (m : Word) : State :=
  let was := isSet s Reg.MEM_CTL F.MEM_CTL_EN
  let s := wr s Reg.MEM_CTL m
  if !was && on m F.MEM_CTL_EN then
    { s with noc := { s.noc with coh := (fld s Reg.MEM_COH_BASE F.MEM_COH_BASE_BASE, fld s Reg.MEM_COH_SIZE F.MEM_COH_SIZE_SIZE) } }
  else s

/-- What writes of registers do: the fabric. -/
def hooksNoc : List WriteReg :=
  [ hook0 Reg.NOC_RT_DATA fun _ m s => routeWrite s m,
    hook1 (Reg.NOC_RSTAT 0) 4 176 fun r _ m s => rstatWrite s r m,
    hook1 (Reg.PRB_CTL 0) 0x40 32 fun p v m s =>
      let s := wr s (Reg.PRB_CTL p) m
      if on v F.PRB_CTL_CLR then probeClear s p else s ]

/-- What writes of registers do: the memory controllers. (DEDUCED, unsafe: log 76) -/
def hooksMem : List WriteReg :=
  [ hook0 Reg.MEM_CTL fun _ m s => memCtlWrite s m,
    hook0 Reg.MEM_COH_BASE fun _ m s =>
      if getF m F.MEM_COH_BASE_BASE + fld s Reg.MEM_COH_SIZE F.MEM_COH_SIZE_SIZE ≤ 32768 then wr s Reg.MEM_COH_BASE m else s,
    hook0 Reg.MEM_COH_SIZE fun _ m s =>
      if fld s Reg.MEM_COH_BASE F.MEM_COH_BASE_BASE + getF m F.MEM_COH_SIZE_SIZE ≤ 32768 then wr s Reg.MEM_COH_SIZE m else s ]

/-! ### DMA (R326, R328, R338) -/

/-- A write of CH_CTRL. (DEDUCED, unsafe: log 87) -/
def chCtrlWrite (w : Requester) (d c : Nat) (v m : Word) (s : State) : State :=
  let k := d * 16 + c
  chAfter (ctlWrite s k (m ||| v) (match w with | .sup _ => true | _ => false)) k

/-- A write of a register of a channel that is ignored, with WBUSY, while the channel runs. -/
def chWrite (r : Nat → Nat → Nat) (d c : Nat) (m : Word) (s : State) : State :=
  if chBusy s (d * 16 + c) then chEvt s (d * 16 + c) F.CH_EVT_WBUSY else wr s (r d c) m

/-- A write of CH_CFG: a vector beyond the table of the channel's function is reserved. -/
def chCfgWrite (d c : Nat) (m : Word) (s : State) : State :=
  let m := if getF m F.CH_CFG_VECTOR < msixSize s (getF m F.CH_CFG_FUNC) then m else keep s (Reg.CH_CFG d c) F.CH_CFG_VECTOR m
  chWrite Reg.CH_CFG d c m s

/-- What writes of registers do: the DMA channels. -/
def hooksDma : List WriteReg :=
  ⟨Reg.CH_CTRL 0 0, 0x4000, 8, 0x100, 16, fun w _ d c v m s => chCtrlWrite w d c v m s⟩ ::
  hook2 (Reg.CH_CFG 0 0) 0x4000 8 0x100 16 (fun d c _ m s => chCfgWrite d c m s) ::
  [Reg.CH_SRC_LO, Reg.CH_SRC_HI, Reg.CH_DST_LO, Reg.CH_DST_HI, Reg.CH_COUNT, Reg.CH_DESC_LO, Reg.CH_DESC_HI].map fun r =>
    hook2 (r 0 0) 0x4000 8 0x100 16 fun d c _ m s => chWrite r d c m s

/-! ### LNK (R352, R360, R363, R374, R377 to R381) -/

/-- A write of LNK_SPARE_CTL. -/
def spareCtlWrite (s : State) (b : Nat) (v m : Word) : State :=
  let s := wr s (Reg.LNK_SPARE_CTL b) m
  let s := if on v F.LNK_SPARE_CTL_FORCE then spareForce s b else s
  if on v F.LNK_SPARE_CTL_REVERT then spareRevert s b else s

/-- A write of a stream entry: lane 7 is reserved in a protected bundle. -/
def streamWrite (s : State) (b a : Nat) (m : Word) : State :=
  wr s a (if getF m F.RXS_CFG_LANE = 7 ∧ prot s b = true then keep s a F.RXS_CFG_LANE m else m)

/-- What writes of registers do: the lanes. -/
def hooksLnk : List WriteReg :=
  [ hook1 (Reg.LNK_CTL 0) 0x10000 12 fun b _ m s => lnkCtlWrite s b m,
    hook1 (Reg.LNK_SPARE_CTL 0) 0x10000 12 fun b v m s => spareCtlWrite s b v m,
    hook1 (Reg.LNK_TXTS_REQ 0) 0x10000 12 fun b v m s =>
      let s := wr s (Reg.LNK_TXTS_REQ b) m
      if on v F.LNK_TXTS_REQ_GO then txtsReq s b else s,
    hook1 (Reg.LNK_TXTS_POP 0) 0x10000 12 fun b v _ s => if on v F.LNK_TXTS_POP_POP then txtsPop s b else s,
    hook2 (Reg.LN_CTL 0 0) 0x10000 12 0x80 8 fun b l _ m s => lnCtlWrite s (b * 8 + l) m,
    hook2 (Reg.LN_SLIP 0 0) 0x10000 12 0x80 8 fun b l v _ s => if on v F.LN_SLIP_SLIP then lnSlip s (b * 8 + l) else s,
    hook2 (Reg.LN_PRBS 0 0) 0x10000 12 0x80 8 fun b l _ m s => lnPrbsWrite s (b * 8 + l) m,
    hook2 (Reg.LN_INJ 0 0) 0x10000 12 0x80 8 fun b l v m s =>
      let s := wr s (Reg.LN_INJ b l) m
      if on v F.LN_INJ_GO then lnInjGo s (b * 8 + l) else s,
    hook2 (Reg.RXS_CFG 0 0) 0x10000 12 0x10 256 fun b i _ m s => streamWrite s b (Reg.RXS_CFG b i) m,
    hook2 (Reg.TXS_CFG 0 0) 0x10000 12 0x10 256 fun b i _ m s => streamWrite s b (Reg.TXS_CFG b i) m ]

/-! ### CXU (R276, R278, R279, R284) -/

/-- A write of CXU_CTL. -/
def cxuCtlWrite (s : State) (n : Nat) (m : Word) : State :=
  let a := Reg.CXU_CTL n
  let was := isSet s a F.CXU_CTL_EN
  let s := wr s a m
  if !was && on m F.CXU_CTL_EN then cxuEnable s n else if was && !on m F.CXU_CTL_EN then cxuDisable s n else s

/-- GO of CXU_SYNC. -/
def cxuSyncGo (s : State) (n : Nat) : State := if cxuRun s n then updCxu s n fun x => { x with syncGo := true } else s

/-- A write of CXU_OUT_CFG: a ring holds at least one block (R292). (DEDUCED, unsafe: log 12) -/
def outCfgWrite (s : State) (n : Nat) (m : Word) : State :=
  let a := Reg.CXU_OUT_CFG n
  wr s a (if getF m F.CXU_OUT_CFG_LOG2BLK + 2 ≤ getF m F.CXU_OUT_CFG_LOG2RING then m else keep s a F.CXU_OUT_CFG_LOG2RING m)

/-- What writes of registers do: the strips. (DEDUCED, unsafe: log 73) -/
def hooksAcc : List WriteReg :=
  [ hook1 (Reg.CXU_CTL 0) 0x4000 32 fun n _ m s => cxuCtlWrite s n m,
    hook1 (Reg.CXU_BANK 0) 0x4000 32 fun n v m s =>
      let s := wr s (Reg.CXU_BANK n) m
      if on v F.CXU_BANK_SWITCH then switchRequest s n else s,
    hook1 (Reg.CXU_BANKA_CFG 0) 0x4000 32 fun n _ m s => bankCfgWrite s n 0 m,
    hook1 (Reg.CXU_BANKB_CFG 0) 0x4000 32 fun n _ m s => bankCfgWrite s n 1 m,
    hook1 (Reg.CXU_SYNC 0) 0x4000 32 fun n v m s =>
      let s := wr s (Reg.CXU_SYNC n) m
      if on v F.CXU_SYNC_GO then cxuSyncGo s n else s,
    hook1 (Reg.CXU_OUT_CFG 0) 0x4000 32 fun n _ m s => outCfgWrite s n m,
    hook2 (Reg.CXU_COEFA 0 0) 0x4000 32 4 384 fun n k _ m s => coefWrite s n 0 k m,
    hook2 (Reg.CXU_COEFB 0 0) 0x4000 32 4 384 fun n k _ m s => coefWrite s n 1 k m ]

/-! ### Supervisors and engine control ports (R76, R512) -/

/-- A write of ECP_CTL. -/
def ecpWrite (s : State) (e : Nat) (v : Word) : State :=
  let s := if on v F.ECP_CTL_HALT then ecpHalt s e else s
  let s := if on v F.ECP_CTL_RESET then ecpReset s e else s
  if on v F.ECP_CTL_DOORBELL then ecpDoorbell s e else s

/-- A write of TSU_PCACHE: a region beyond tile memory is refused; a change empties the program cache. (DEDUCED, unsafe: log 73) -/
def pcacheWrite (s : State) (t : Nat) (m : Word) : State :=
  let a := Reg.TSU_PCACHE t
  if 256 < getF m F.TSU_PCACHE_BASE + getF m F.TSU_PCACHE_SIZE ∨ m = rd s a then s
  else setPcache (wr s a m) t []

/-- What writes of registers do: the supervisors. -/
def hooksTsu : List WriteReg :=
  [ hook1 (Reg.TSU_PCACHE 0) 0x10000 128 fun t _ m s => pcacheWrite s t m,
    hook2 (Reg.ECP_CTL 0 0) 0x10000 128 0x20 8 fun t i v _ s => ecpWrite s (t * 8 + i) v ]

/-- The registers with an effect of the block that holds an offset. -/
def hookBlock (a : Nat) : List WriteReg :=
  if a < 0x10000 then hooksHif
  else if a < 0x20000 then hooksTln
  else if a < 0x30000 then hooksTim
  else if a < 0x50000 then hooksPwr
  else if a < 0x100000 then hooksMgt
  else if a < 0x200000 then hooksNoc
  else if a < 0x300000 then hooksMem
  else if a < 0x400000 then hooksDma
  else if a < 0x800000 then hooksLnk
  else if a < 0x1100000 then hooksAcc
  else hooksTsu

/-- A write reaches a register of function `f`. -/
def applyWrite (s : State) (w : Requester) (f a : Nat) (d : RegDesc) (v : Word) : State :=
  let k := if d.perFn then fnKey f a else a
  let m := mergeReg w a d (rd s k) v
  match writeAtList (hookBlock a) a with
  | some g => g w f (woPart w a d v) m s
  | none => wr s k m

end Sys2Proof.Machine
end

