-- ==== Sys2Proof/Machine/RegAccess.lean ====
section
/-! DEFINITION. Register accesses (R8 to R16, R420, R515 to R526): the register agent, the view of a virtual function, holding
copies, and writes that wait for a sleeping domain. -/

namespace Sys2Proof.Machine

/-! ## What a virtual function sees (R420) -/

/-- How a register shows: not at all, for reading, or for reading and writing. -/
inductive View where
  | hidden | ro | rw
deriving DecidableEq, Repr

/-- A register as the shadow holds it: the write that waits, or the register. -/
def shadowRd (s : State) (a : Nat) : Word := (lateOf s a).getD (rd s a)

/-- Visible to function `f` when its owner field says so. -/
def ownedBy (s : State) (f a : Nat) (fd : Fld) : View := if getF (shadowRd s a) fd = f then .rw else .hidden

/-- The HIF registers in a virtual function's view. (DEDUCED, unsafe: log 33) -/
def hifView (s : State) (f a : Nat) : View :=
  if a = Reg.HIF_VF_BLOCKED_CNT ∨ a = Reg.HIF_DEVEVT_SUM ∨ a = Reg.HIF_DEVEVT_VEC then .hidden
  else if a = Reg.HIF_MGMT_TIMEOUT then .ro
  else if a < 0x2000 then .rw
  else if a < 0x3000 then (if (a - 0x2000) / 0x40 < fld s (Reg.VF_CTL f) F.VF_CTL_NQP then .rw else .hidden)
  else if a < 0x7000 then .hidden
  else if a < 0x8000 then (if a < 0x7008 then .rw else .hidden)
  else if a < 0x8400 then .rw else .hidden

/-- The view that virtual function `f` has of a BAR0 offset. -/
def vfView (s : State) (f a : Nat) : View :=
  if a < 0x10000 then hifView s f a
  else if a < 0x11000 then .hidden
  else if a < 0x12000 then ownedBy s f (Reg.TL_CTL ((a - 0x11000) / 0x40)) F.TL_CTL_OWNER
  else if a < 0x12800 then ownedBy s f (Reg.TL_CTL ((a - 0x12000) / 0x20)) F.TL_CTL_OWNER
  else if [Reg.TIM_STATUS, Reg.TIM_RAW_LO, Reg.TIM_RAW_HI, Reg.TIM_NOW_LO, Reg.TIM_NOW_HI, Reg.TIM_SNAP_RAW_LO,
      Reg.TIM_SNAP_RAW_HI, Reg.TIM_PARAM_GEN].contains a then .ro
  else if 0x300000 ≤ a ∧ a < 0x320000 ∧ 0x100 ≤ a % 0x4000 ∧ a % 0x4000 < 0x1100 then
    let (d, c) := ((a - 0x300000) / 0x4000, (a % 0x4000 - 0x100) / 0x100)
    if chDisp s (d * 16 + c) then .hidden
    else match ownedBy s f (Reg.CH_CFG d c) F.CH_CFG_FUNC with
      | .rw => if a = Reg.CH_CFG d c then .ro else .rw
      | v => v
  else if 0x400000 ≤ a ∧ a < 0x4C0000 ∧ 0x1000 ≤ a % 0x10000 ∧ a % 0x10000 < 0x3000 then
    ownedBy s f (a / 0x10 * 0x10) F.RXS_CFG_OWNER
  else .hidden

/-- The view of a requester. -/
def viewOf (s : State) (w : Requester) (a : Nat) : View :=
  match w with
  | .fn f => if f.val = 0 then .rw else vfView s f a
  | _ => .rw

/-- A write outside its view is counted against the physical function's registers. -/
def vfBlocked (s : State) : State := hifEvt (inc s (fnKey 0 Reg.HIF_VF_BLOCKED_CNT)) 0 F.HIF_EVT_VF_BLOCKED

/-! ## Writes -/

/-- Key of a requester's holding copy. (DEDUCED, unsafe: log 13) -/
def holdKey (w : Requester) (a : Nat) : Nat := whoCode w * 0x4000000 + a

/-- Bits of a register that are W1C. -/
def w1cMask (d : RegDesc) : Nat := (d.fields.filter fun f => decide (f.acc = .w1c)).foldl (fun m f => m + (2 ^ f.width - 1) * 2 ^ f.lo) 0

/-- Is a part of a write to a sleeping domain not performed (R517, R518)? -/
def dropsPart (w : Requester) (a : Nat) (d : RegDesc) (v : Word) : Bool :=
  decide (woPart w a d v ≠ 0) || decide (v &&& w32 (w1cMask d) ≠ 0)

/-- A write to a register of a sleeping domain: its actions are dropped, its RW fields wait. (DESIGN CHOICE, unsafe: log 71) -/
def lateWrite (s : State) (w : Requester) (a : Nat) (d : RegDesc) (v : Word) : State :=
  let s := if dropsPart w a d v then inc s Reg.MGT_DROP_CNT else s
  if rwMask d = 0 then s
  else
    let m := mergeReg w a d (shadowRd s a) (v &&& ~~~(w32 (w1cMask d)))
    { s with mgt := { s.mgt with late := (s.mgt.late.filter fun e => decide (e.1 ≠ a)) ++ [(a, m)] } }

/-- A virtual function does not change the LANE of a stream. (DEDUCED, unsafe: log 80) -/
def keepLane (s : State) (w : Requester) (a : Nat) (v : Word) : Word :=
  match w with
  | .fn f =>
    if f.val ≠ 0 ∧ 0x400000 ≤ a ∧ a < 0x4C0000 ∧ 0x1000 ≤ a % 0x10000 ∧ a % 0x10 = 0 then putF v F.RXS_CFG_LANE (getF (shadowRd s a) F.RXS_CFG_LANE) else v
  | _ => v

/-- A write that has passed its checks reaches its register, or waits. -/
def writeReg (s : State) (w : Requester) (a : Nat) (d : RegDesc) (v : Word) : State :=
  let n := blockDomain a
  let v := keepLane s w a v
  if blockLive s n then applyWrite (wakeIdle s n) w (whoFn w) a d v else lateWrite s w a d v

/-- One half of a pair, or a register of its own (R15). (DEDUCED, unsafe: log 13) -/
def writePair (s : State) (w : Requester) (a : Nat) (d : RegDesc) (v : Word) : State :=
  if d.pair = 1 then { s with holdW := Tab.put (fun _ => none) s.holdW (holdKey w a) (some v) }
  else if d.pair = 2 then
    let k := holdKey w (a - 4)
    match Tab.get (fun _ => none) s.holdW k, findReg (a - 4) with
    | some lo, some (dl, _) =>
      let s := { s with holdW := Tab.put (fun _ => none) s.holdW k none }
      writeReg (writeReg s w (a - 4) dl lo) w a d v
    | _, _ => writeReg s w a d v
  else writeReg s w a d v

/-- Does EXT_LOCK refuse an external write to an offset (R526)? -/
def extLocked (s : State) (w : Requester) (a : Nat) : Bool :=
  isExt w && isSet s Reg.MGT_CTL F.MGT_CTL_EXT_LOCK && !([Reg.MGT_ALERT_EN, Reg.SEP_MARK, Reg.SEP_MARK_CODE, Reg.SEP_RD_SEL].contains a)

/-- What MGT_EXT_STAT says of an external write. (DEDUCED, unsafe: log 76) -/
def extStat (s : State) (w : Requester) (locked dropped : Bool) : State :=
  if isExt w then
    setFld (setFld s Reg.MGT_EXT_STAT F.MGT_EXT_STAT_LOCKED locked.toNat) Reg.MGT_EXT_STAT F.MGT_EXT_STAT_DROPPED dropped.toNat
  else s

/-- A write at the register agent. (DEDUCED, unsafe: log 34) -/
def agentWrite (s : State) (w : Requester) (a : Nat) (v : Word) : State :=
  let a := canonOff a
  match viewOf s w a with
  | .hidden => vfBlocked s
  | .ro => s
  | .rw =>
    if extLocked s w a then extStat s w true false
    else match findReg a with
      | none => extStat (match w with | .fn f => if f.val = 0 then s else vfBlocked s | _ => s) w false false
      | some (d, _) =>
        if !mayWrite w a d.who then extStat s w false false
        else
          let dropped := !blockLive s (blockDomain a) && dropsPart w a d v
          writePair (extStat s w false dropped) w a d v

/-- Writes that wait reach the blocks whose domain is there again (R502 step 3, R517). (DESIGN CHOICE, unsafe: log 71) -/
def deliverLate (s : State) : State :=
  s.mgt.late.foldl (fun s e =>
    if !blockLive s (blockDomain e.1) then s
    else
      let s := { s with mgt := { s.mgt with late := s.mgt.late.filter fun x => decide (x.1 ≠ e.1) } }
      match findReg e.1 with
      | some (d, _) => applyWrite s (.fn 0) 0 e.1 d (e.2 &&& w32 (rwMask d))
      | none => s) s

/-- Can a requester reach the agent: a function only while the PCIe link is up? (DEDUCED, unsafe: log 77) -/
def reaches (s : State) (w : Requester) : Bool :=
  match w with
  | .fn _ => s.hif.linkTrained
  | _ => true

/-- Parts of the BAR4 requests that wait. -/
def bar4Fuel (s : State) : Nat := (s.hif.bar4.map fun r => r.len + 1).foldl (· + ·) 0

/-- A function's write comes after its earlier BAR4 writes (R418). (DEDUCED, unsafe: log 68) -/
def arrives (s : State) (w : Requester) : State :=
  match w with
  | .fn f => drainBar4 (bar4Fuel s) (vfSeen s f) f
  | _ => s

/-- A register write of a requester (R8, R517). -/
def regWrite (s : State) (w : Requester) (sz : AccSize) (a : Nat) (v : Word) : State :=
  if !reaches s w then s
  else
    let s := arrives s w
    if sz ≠ .word ∨ a % 4 ≠ 0 then s else deliverLate (agentWrite s w a v)

/-! ## Reads -/

/-- The live or shadow value of a register (R519). -/
def shownValue (s : State) (w : Requester) (a : Nat) (d : RegDesc) : Word :=
  if blockLive s (blockDomain a) then peek s (whoCode w) (whoFn w) a
  else if isStatus d then NOTAVAIL else shadowPeek s (whoCode w) (whoFn w) a

/-- What a read does beside its answer (R15, R393, R401): it captures the upper half of a pair, or clears VALID.
(DEDUCED, unsafe: log 13; DEDUCED, safe: log 96) -/
def readEffect (s : State) (w : Requester) (a : Nat) (d : RegDesc) : State :=
  let s := if d.pair = 1 then
      match findReg (a + 4) with
      | some (dh, _) => { s with holdR := Tab.put (fun _ => none) s.holdR (holdKey w (a + 4)) (some (shownValue s w (a + 4) dh)) }
      | none => s
    else s
  if a = Reg.TIM_NOW_LO then
    { s with tim := { s.tim with snap := Tab.put (fun _ => (0, false)) s.tim.snap (whoCode w) (raw s, isSet s Reg.TIM_STATUS F.TIM_STATUS_SET) } }
  else if a = Reg.TIM_PPSIN_LO ∧ isExt w = false then setFld s Reg.TIM_PPSIN_STAT F.TIM_PPSIN_STAT_VALID 0
  else s

/-- A value that cannot be had (R520). -/
def notAvail (s : State) : Word × State := (NOTAVAIL, inc s Reg.MGT_NA_CNT)

/-- The levels of the GPIO pins are inputs: a read of them finds any. (DESIGN CHOICE, safe: log 85) -/
def samplePins (s : State) : State := let (v, s) := free 16 s; { s with mgt := { s.mgt with gpioIn := v } }

/-- A read of a register; `bad`: its shadow word has a parity error, or its transfer over MNET fails twice (R520).
(DESIGN CHOICE, unsafe: log 32; DEDUCED, unsafe: log 72) -/
def readReg (s : State) (w : Requester) (a : Nat) (d : RegDesc) (bad : Bool) : Word × State :=
  let k := holdKey w a
  match (if d.pair = 2 then Tab.get (fun _ => none) s.holdR k else none) with
  | some v => (v, { s with holdR := Tab.put (fun _ => none) s.holdR k none })
  | none =>
    let n := blockDomain a
    if bad && decide (n ≠ 24) then let (v, s) := notAvail s; (v, fatal s 2)
    else if !blockLive s n && isStatus d then notAvail s
    else
      let s := wakeIdle s n
      let s := if a = Reg.MGT_GPIO_IN then samplePins s else s
      (shownValue s w a d, readEffect s w a d)

/-- A register read of a requester: its answer (R8, R44, R420, R519). -/
def regRead (s : State) (w : Requester) (sz : AccSize) (a : Nat) (bad : Bool) : Word × State :=
  let a := canonOff a
  if sz ≠ .word ∨ a % 4 ≠ 0 ∨ viewOf s w a = .hidden then (0, s)
  else match findReg a with
    | none => (0, s)
    | some (d, _) => readReg s w a d bad

/-- A read that is answered. -/
def answerRead (s : State) (w : Requester) (a : Nat) (bad : Bool) : State :=
  if !reaches s w then s
  else
    let s := match w with | .fn f => vfSeen s f | _ => s
    let (v, s) := regRead s w .word a bad
    emit s (.read w a v)

/-- The answer of a meaning that may have brought a domain back. -/
def doneLate (s : State) : Res := done (deliverLate s)

end Sys2Proof.Machine
end

