-- ==== Sys2Proof/Machine/ExtCmds.lean ====
section
/-! DEFINITION. The SPI and I3C ports (R522 to R526) and the test access port (R537). -/

namespace Sys2Proof.Machine

/-! ## Accesses of an external port -/

/-- Is an address one of a register word (R523)? -/
def extAddr (a : Nat) : Bool := decide (a ≤ 0x1FFFFFC ∧ a % 4 = 0)

/-- A word read by an external port; `bad`: its shadow word has a parity error (R520). -/
def extRead (s : State) (w : Requester) (a : Nat) (bad : Bool) : Word × State :=
  if extAddr a then regRead s w .word a bad else (0, s)

/-- A word written by an external port. -/
def extWrite (s : State) (w : Requester) (a : Nat) (v : Word) : State :=
  if extAddr a then regWrite s w .word a v else s

/-! ## SPI -/

/-- Words read in ascending address while CS stays low, one for each entry of `bads`. -/
def readInc (s : State) : Nat → List Bool → State
  | _, [] => s
  | a, b :: bs =>
    let (v, s) := extRead s .spi a b
    readInc (emit s (.spi v.toNat 32)) (a + 4) bs

/-- SPI_READ (R522). -/
def execSpiRead (a : Word) (bad : Bool) (s : State) : Res := done (readInc s a.toNat [bad])

/-- SPI_READ_INC (R522). -/
def execSpiReadInc (a : Word) (bads : List Bool) (s : State) : Res := done (readInc s a.toNat bads)

/-- SPI_WRITE (R523); `cut`: CS rises before data bit 0 has been sampled. -/
def execSpiWrite (a v : Word) (cut : Bool) (s : State) : Res := done (if cut then s else extWrite s .spi a.toNat v)

/-- SPI_STATUS (R522). -/
def execSpiStatus (s : State) : Res :=
  let v := (rd s Reg.MGT_EXT_STAT).toNat % 256
  done (setFld (emit s (.spi v 8)) Reg.MGT_EXT_STAT F.MGT_EXT_STAT_SPI_ERR 0)

/-- SPI_RESERVED_COMMAND (R522). -/
def execSpiReservedCommand (s : State) : Res := done (setFld s Reg.MGT_EXT_STAT F.MGT_EXT_STAT_SPI_ERR 1)

/-! ## I3C -/

/-- A valid private write clears I3C_ERR; any other sets it. -/
def i3cErr (s : State) (e : Nat) : State := setFld s Reg.MGT_EXT_STAT F.MGT_EXT_STAT_I3C_ERR e

/-- I3C_REGISTER_WRITE (R525). -/
def execI3cRegisterWrite (a v : Word) (s : State) : Res := done (extWrite (i3cErr s 0) .i3c a.toNat v)

/-- A private write of an address. -/
def i3cAddress (s : State) (a : Option Word) : State :=
  match a with
  | some a => i3cErr { s with mgt := { s.mgt with i3cAddr := a.toNat } } 0
  | none => s

/-- I3C_REGISTER_READ (R525): with a new address, or of the next word. -/
def execI3cRegisterRead (a : Option Word) (bad : Bool) (s : State) : Res :=
  let s := i3cAddress s a
  let (v, t) := extRead s .i3c s.mgt.i3cAddr bad
  done (emit { t with mgt := { t.mgt with i3cAddr := s.mgt.i3cAddr + 4 } } (.i3c (leBytes 4 v.toNat)))

/-- I3C_PRIVATE_WRITE_ERROR (R525): a private write of another length. -/
def execI3cPrivateWriteError (s : State) : Res := done (i3cErr s 1)

/-- Has the target a dynamic address? -/
def i3cDynamic (s : State) : Bool := isSet s Reg.MGT_I3C_CFG F.MGT_I3C_CFG_DVALID

/-- Sets the dynamic address. (PRESUMED, unsafe: log 90) -/
def setDynamic (s : State) (a valid : Nat) : State :=
  setFld (setFld s Reg.MGT_I3C_CFG F.MGT_I3C_CFG_DADDR a) Reg.MGT_I3C_CFG F.MGT_I3C_CFG_DVALID valid

/-- The provisional ID as it is sent, most significant byte first. (PRESUMED, unsafe: log 90) -/
def pidBytes : List Byte := (leBytes 6 Config.i3cPid.toNat).reverse

/-- BCR and DCR (R524). -/
def bcr : Byte := 0x06
def dcr : Byte := 0x00

/-- ENTDAA (R524): a target without a dynamic address identifies itself and takes the one assigned. (PRESUMED, unsafe: log 90) -/
def execEntdaa (a : BitVec 7) (s : State) : Res :=
  done (if i3cDynamic s then s else setDynamic (emit s (.i3c (pidBytes ++ [bcr, dcr]))) a.toNat 1)

/-- SETDASA (R524), sent to the static address. -/
def execSetdasa (a : BitVec 7) (s : State) : Res := done (if i3cDynamic s then s else setDynamic s a.toNat 1)

/-- RSTDAA (R524). -/
def execRstdaa (s : State) : Res := done (setDynamic s 0 0)

/-- ENEC and DISEC (R524): bit 0 of the event byte names the interrupt. (PRESUMED, unsafe: log 90) -/
def execEnec (ev : Byte) (s : State) : Res := done (if bitAt ev.toNat 0 then { s with mgt := { s.mgt with i3cEvents := true } } else s)
/-- DISEC, R524: CCC that disables events. -/
def execDisec (ev : Byte) (s : State) : Res := done (if bitAt ev.toNat 0 then { s with mgt := { s.mgt with i3cEvents := false } } else s)

/-- GETPID (R524). -/
def execGetpid (s : State) : Res := done (emit s (.i3c pidBytes))

/-- GETBCR (R524). -/
def execGetbcr (s : State) : Res := done (emit s (.i3c [bcr]))

/-- GETDCR (R524). -/
def execGetdcr (s : State) : Res := done (emit s (.i3c [dcr]))

/-- GETSTATUS (R524): two bytes, whose contents the spec does not state. -/
def execGetstatus (s : State) : Res :=
  let (v, s) := free 16 s
  done (emit s (.i3c (leBytes 2 v)))

/-- GETMWL (R524). -/
def execGetmwl (s : State) : Res := done (emit s (.i3c Config.i3cMwl))

/-- GETMRL (R524). -/
def execGetmrl (s : State) : Res := done (emit s (.i3c Config.i3cMrl))

/-! ## JTAG (R537) -/

/-- An instruction takes effect: its number, the register it selects, what that register captures. -/
def jtag (s : State) (ir reg value : Nat) : State := emit { s with mgt := { s.mgt with jtagIr := ir } } (.jtag reg value)

/-- An instruction that selects the boundary-scan register, which captures the pins. (DESIGN CHOICE, safe: log 85) -/
def jtagScan (s : State) (ir : Nat) : State := let (v, s) := free 1 s; jtag s ir 2 v

/-- IDCODE. -/
def execIdcode (s : State) : Res := done (jtag s 0 1 0x0A102E75)

/-- BYPASS. -/
def execBypass (s : State) : Res := done (jtag s 1 0 0)

/-- SAMPLE_PRELOAD. -/
def execSamplePreload (s : State) : Res := done (jtagScan s 2)

/-- EXTEST. -/
def execExtest (s : State) : Res := done (jtagScan s 3)

/-- HIGHZ. -/
def execHighz (s : State) : Res := done (jtag s 4 0 0)

/-- CLAMP. -/
def execClamp (s : State) : Res := done (jtag s 5 0 0)

/-- EXTEST_PULSE. -/
def execExtestPulse (s : State) : Res := done (jtagScan s 6)

/-- EXTEST_TRAIN. -/
def execExtestTrain (s : State) : Res := done (jtagScan s 7)

end Sys2Proof.Machine
end

