-- ==== Sys2Proof/Machine/HifCmds.lean ====
section
/-! DEFINITION. Commands of the host interface (R421 to R435): doorbells, fetching, the start and end of queue commands,
coalescing, and the register writes that enable, disable and unmask. -/

namespace Sys2Proof.Machine

/-- A doorbell write of function `f` through BAR2 (R423): it comes after the function's earlier BAR4 writes (R418). -/
def doorbell (s : State) (f : Nat) (g : State → State) : State :=
  if !s.hif.linkTrained then s else
  let s := vfSeen s f
  autoStarts (g (drainBar4 (bar4Fuel s) s f))

/-- A register's shadow value with one field replaced: what a read, modify and write of that field by a requester writes. -/
def fieldWord (s : State) (w : Requester) (a : Nat) (fd : Fld) (v : Nat) : Word :=
  let k := match findReg a with
    | some (d, _) => if d.perFn then fnKey (whoFn w) a else a
    | none => a
  putF (shadowRd s k) fd v

/-- A write of a register that sets one field and leaves the others. (DESIGN CHOICE, safe: log 93) -/
def writeField (s : State) (w : Requester) (a : Nat) (fd : Fld) (v : Nat) : State :=
  regWrite s w .word a (fieldWord s w a fd v)

/-- SQ_TAIL_DB (R423). -/
def execSqTailDb (f : Fin 32) (q : Fin 64) (v : Word) (s : State) : Res :=
  done (doorbell s f fun s => sqTailDb s f q (v.toNat % 4096))

/-- CQ_HEAD_DB (R423). -/
def execCqHeadDb (f : Fin 32) (q : Fin 64) (v : Word) (s : State) : Res :=
  done (doorbell s f fun s => cqHeadDb s f q (v.toNat % 4096))

/-- SQ_FETCH (R424): a turn of the round robin; `fail`: its host read fails. -/
def execSqFetch (fail : Bool) (s : State) : Res := done (autoStarts (fetchTurn s fail))

/-- NOP_COMMAND (R429): the next command of the pair starts, if it is a NOP. -/
def execNopCommand (f : Fin 32) (q : Fin 64) (s : State) : Res :=
  done (startKind s f q fun s c => match c.cmd with
    | .nop => some (completeCmd s c.seq stOK [])
    | _ => none)

/-- LOAD_PALETTE_VALIDATE (R429). -/
def execLoadPaletteValidate (f : Fin 32) (q : Fin 64) (s : State) : Res :=
  done (startKind s f q fun s c => match c.cmd with
    | .load false a => some (validateStart s c a)
    | _ => none)

/-- VALIDATION_DONE (R66): validation `i` of those that run ends. -/
def execValidationDone (i : Fin 4) (s : State) : Res := done (autoStarts (validationDone s i))

/-- LOAD_PALETTE_RELEASE (R67, R429). -/
def execLoadPaletteRelease (f : Fin 32) (q : Fin 64) (s : State) : Res :=
  done (startKind s f q fun s c => match c.cmd with
    | .load true a => some (releaseStart s c a)
    | _ => none)

/-- SLOT_SUBMIT (R430). -/
def execSlotSubmit (f : Fin 32) (q : Fin 64) (s : State) : Res :=
  done (startKind s f q fun s c => match c.cmd with
    | .submit n e => some (slotSubmit s c n e)
    | _ => none)

/-- DMA_COMMAND (R431). -/
def execDmaCommand (f : Fin 32) (q : Fin 64) (s : State) : Res :=
  done (startKind s f q fun s c => match c.cmd with
    | .dma k ctrl chain src dst n desc => some (dmaCommand s c k ctrl chain src dst n desc)
    | _ => none)

/-- RESULT (R432). -/
def execResult (f : Fin 32) (q : Fin 64) (s : State) : Res :=
  done (startKind s f q fun s c => match c.cmd with
    | .result t slot b h n => some (resultStart s c t slot b h n)
    | _ => none)

/-- RESULT_COPY_DONE (R432). -/
def execResultCopyDone (s : State) : Res := done (autoStarts (resultCopy s))

/-- COALESCE_TIMER (R435): TIME of a CQ elapses. -/
def execCoalesceTimer (f : Fin 32) (q : Fin 64) (s : State) : Res := done (coalCheck s f q)

/-- QP_ENABLE (R421): a write of 1 to QP_CTL.EN. -/
def execQpEnable (w : Requester) (q : Fin 64) (s : State) : Res := done (writeField s w (Reg.QP_CTL q) F.QP_CTL_EN 1)

/-- QP_DISABLE (R422): a write of 0 to QP_CTL.EN. -/
def execQpDisable (w : Requester) (q : Fin 64) (s : State) : Res := done (writeField s w (Reg.QP_CTL q) F.QP_CTL_EN 0)

/-- MSIX_UNMASK (R435): a write of 0 to a vector's mask bit. -/
def execMsixUnmask (w : Requester) (v : Fin 2048) (s : State) : Res :=
  done (writeField s w (Reg.MSIX_VCTL v) F.MSIX_VCTL_MASK 0)

end Sys2Proof.Machine
end

