-- ==== Sys2Proof/Machine/LinkCmds.lean ====
section
/-! DEFINITION. Meanings of the events of the Ochre link. -/

namespace Sys2Proof.Machine

/-- SIGNAL_PRESENT (R363). -/
def execSignalPresent (l : Fin 96) (s : State) : Res := done (signalPresent s l)

/-- SIGNAL_LOST (R363). -/
def execSignalLost (l : Fin 96) (s : State) : Res := done (signalLost s l)

/-- BLOCK_RECEIVE (R359). -/
def execBlockReceive (l : Fin 96) (hdr : BitVec 2) (payload : BitVec 64) (s : State) : Res :=
  done (blockReceive s l hdr.toNat payload.toNat)

/-- BLOCK_LOCK (R360). -/
def execBlockLock (l : Fin 96) (s : State) : Res := done (blockLock s l)

/-- BLOCK_LOCK_LOST (R360). -/
def execBlockLockLost (l : Fin 96) (s : State) : Res := done (blockLockLost s l)

/-- CAPS (R362). -/
def execCaps (l : Fin 96) (s : State) : Res := done (lnCaps s l)

/-- ACK (R363). -/
def execAck (l : Fin 96) (s : State) : Res := done (lnAck s l)

/-- NAK (R363). (DESIGN CHOICE, safe: log 22) -/
def execNak (l : Fin 96) (s : State) : Res := done (lnNak s l)

/-- HANDOVER (R363). (DESIGN CHOICE, safe: log 22) -/
def execHandover (l : Fin 96) (s : State) : Res := done (lnHandover s l)

/-- CHECK_PASS (R363). -/
def execCheckPass (l : Fin 96) (s : State) : Res := done (checkPass s l)

/-- ATTEMPT_TIMEOUT (R363). -/
def execAttemptTimeout (l : Fin 96) (s : State) : Res := done (attemptTimeout s l)

/-- BACKOFF_END (R363). -/
def execBackoffEnd (l : Fin 96) (s : State) : Res := done (backoffEnd s l)

/-- ABSENT_RETRY (R363). -/
def execAbsentRetry (l : Fin 96) (s : State) : Res := done (absentRetry s l)

/-- FRAME_RECEIVE (R358). -/
def execFrameReceive (l : Fin 96) (sub : Fin 64) (line : List Bool) (s : State) : Res :=
  done (frameReceive s l sub line)

/-- FRAME_TRANSMIT (R354). -/
def execFrameTransmit (l : Fin 96) (sub : Fin 64) (s : State) : Res := done (frameTransmit s l sub)

/-- EGRESS_TRANSMIT_TIME (R372): the transmit time of the EGRESS buffer `buf` bound for a palette. -/
def execEgressTransmitTime (p : PalRef) (buf : Fin 4096) (s : State) : Res :=
  match s.lnk.tx.find? fun d => decide (d.tl = p.tl.val ∧ d.slot = p.slot.toNat ∧ d.buf = buf.val) with
  | some d => if reached (raw s) d.t then done (egressTime s d) else done s
  | none => done s

/-- EGRESS_READ_RESPONSE (R372). -/
def execEgressReadResponse (lost : Bool) (s : State) : Res := done (egressRead s lost)

/-- EGRESS_LATE_LIMIT (R372). -/
def execEgressLateLimit (l : Fin 96) (s : State) : Res := done (egressLate s l)

/-- LOSS_OF_LOCK (R376). -/
def execLossOfLock (l : Fin 96) (s : State) : Res := done (lossOfLock s l)

/-- SWITCH (R377). -/
def execSwitch (l : Fin 96) (s : State) : Res := done (lnSwitch s l)

/-- SWITCH_ACK (R377). -/
def execSwitchAck (l : Fin 96) (s : State) : Res := done (lnSwitchAck s l)

/-- REVERT (R377). -/
def execRevert (l : Fin 96) (s : State) : Res := done (lnRevert s l)

/-- REVERT_ACK (R377). -/
def execRevertAck (l : Fin 96) (s : State) : Res := done (lnRevertAck s l)

/-- SWITCH_RESEND (R377). -/
def execSwitchResend (b : Fin 12) (s : State) : Res := done (switchResend s b)

/-- SWITCH_ACK_TIMEOUT (R377). -/
def execSwitchAckTimeout (b : Fin 12) (s : State) : Res := done (switchAckTimeout s b)

/-- LNKALIGN_LOST (R388). -/
def execLnkalignLost (s : State) : Res := done (lnkAlignLost s)

/-- TIME_REQ (R408). -/
def execTimeReq (l : Fin 96) (s : State) : Res := done (lnTime s l fun t => decide (t = 0x10))

/-- TIME_MESSAGE_RECEIVE (R407). -/
def execTimeMessageReceive (l : Fin 96) (s : State) : Res :=
  done (lnTime s l fun t => decide (t = 0x11) || decide (t = 0x12))

/-- TIME_RESP (R408). -/
def execTimeResp (l : Fin 96) (s : State) : Res := done (timeResp s l)

/-- TIME_FOLLOW (R408). -/
def execTimeFollow (l : Fin 96) (s : State) : Res := done (timeFollow s l)

/-- PRBS_CHECKER_LOCK (R380). -/
def execPrbsCheckerLock (l : Fin 96) (s : State) : Res :=
  if lnState s l = 9 ∧ isSet s (lnReg Reg.LN_PRBS l) F.LN_PRBS_CHK = true then
    done (setFld s (lnReg Reg.LN_PRBS_STAT l) F.LN_PRBS_STAT_LOCK 1)
  else done s

/-- PRBS_CHECKER_LOCK_LOST (R380): the checker has seen `errs` bit errors while locked, at least the 64 that lose lock.
(DESIGN CHOICE, safe: log 27) -/
def execPrbsCheckerLockLost (l : Fin 96) (errs : BitVec 32) (s : State) : Res :=
  if lnState s l = 9 ∧ isSet s (lnReg Reg.LN_PRBS_STAT l) F.LN_PRBS_STAT_LOCK = true ∧ 64 ≤ errs.toNat then
    let a := lnReg Reg.LN_PRBS_ERR l
    let s := wr s a (BitVec.ofNat 32 (min (2 ^ 32 - 1) ((rd s a).toNat + errs.toNat)))
    done (setFld s (lnReg Reg.LN_PRBS_STAT l) F.LN_PRBS_STAT_LOCK 0)
  else done s

/-- FAR_END_BUFFER_SLIP (R380). -/
def execFarEndBufferSlip (l : Fin 96) (s : State) : Res :=
  if lnState s l = 9 ∧ fld s (lnReg Reg.LN_CTL l) F.LN_CTL_LOOP = 3 then done (lnEvt s l F.LN_EVT_FE_OVF) else done s

end Sys2Proof.Machine
end

