-- ==== Sys2Proof/Machine/Mgmt.lean ====
section
/-! DEFINITION. Requests to management firmware (R433): the mailbox, and the answers of firmware to power (R476), fault (R511)
and management requests (R538). -/

namespace Sys2Proof.Machine

/-- Answer codes. -/
abbrev acOK : Nat := 0
abbrev acDENIED : Nat := 1
abbrev acREFUSED : Nat := 2
abbrev acBADARG : Nat := 3
abbrev acGONE : Nat := 5

/-- Firmware takes the first request of a code that it has not taken yet. (DESIGN CHOICE, safe: log 55; DESIGN CHOICE, unsafe: log 88) -/
def serve (s : State) (m : Nat) (g : State → Mail → State) : State :=
  match s.hif.mail.find? fun x => decide (x.mcode = m ∧ x.wait = none) with
  | none => s
  | some x => autoStarts (g s x)

/-- The answer of a request waits for a unit (0: the device level, 1: the dump). -/
def setWait (s : State) (m : Mail) (u : Nat) : State :=
  { s with hif := { s.hif with mail := s.hif.mail.map fun x => if x.seq = m.seq then { x with wait := some u } else x } }

/-- An answer that waits for unit `u` while `busy`, and is posted at once otherwise. -/
def answerWhen (s : State) (m : Mail) (busy : Bool) (u : Nat) : State :=
  if busy then setWait s m u else answerMail s m acOK (mailBytes s m)

/-- An answer without bytes. -/
def refuse (s : State) (m : Mail) (code : Nat) : State := answerMail s m code []

/-- Bits given by a condition on their numbers. -/
def bitsOf (n : Nat) (p : Nat → Bool) : Nat := (upto n).foldl (fun v i => if p i then v + 2 ^ i else v) 0

/-- Two bits for each sector. -/
def sectors2 (g : Nat → Nat) : Nat := (upto 16).foldl (fun v i => v + g i % 4 * 4 ^ i) 0

/-! ## Power requests (R476) -/

/-- Answer bytes of GET_POWER. -/
def powerBytes (s : State) : List Byte :=
  leBytes 4 (peek s 0 0 Reg.PWR_LEVEL).toNat ++ leBytes 4 (bitsOf 25 (domLive s)) ++
    leBytes 4 (sectors2 fun n => fld s (Reg.PWR_DOM_OP n) F.PWR_DOM_OP_CUR) ++
    leBytes 4 (sectors2 fun n => fld s (Reg.PWR_DOM_OP n) F.PWR_DOM_OP_CAP)

/-- GET_POWER. -/
def execGetPower (s : State) : Res := done (serve s 0x0001 fun s m => answerMail s m acOK (powerBytes s))

/-- A state request of MGMT. (DESIGN CHOICE, unsafe: log 88) -/
def setState (no : Bool) (s : State) (m : Mail) : State :=
  let n := leAt m.args 0 1
  let st := leAt m.args 1 1
  let drain := leAt m.args 2 1
  if 20 ≤ n ∨ ¬(st = 0 ∨ st = 2 ∨ st = 3) ∨ 1 < drain then refuse s m acBADARG
  else if !unitOfFn s m.f (uDom n) then refuse s m acDENIED
  else if no || decide (domSt s n = 6) then refuse s m acREFUSED
  else
    let s := domRequest s n { st := st, drain := decide (drain = 1), reason := 1, reset := false }
    answerWhen s m (dom s n).trans.isSome (uDom n)

/-- SET_STATE; `no`: firmware policy refuses it. -/
def execSetState (no : Bool) (s : State) : Res := done (serve s 0x0002 (setState no))

/-- A request for an operating point. (DESIGN CHOICE, unsafe: log 88) -/
def setOp (no : Bool) (s : State) (m : Mail) : State :=
  let n := leAt m.args 0 1
  let op := leAt m.args 1 1
  if 16 ≤ n ∨ 4 ≤ op then refuse s m acBADARG
  else if !unitOfFn s m.f (uDom n) then refuse s m acDENIED
  else if no then refuse s m acREFUSED
  else
    let s := opRequest (setFld s (Reg.PWR_DOM_OP n) F.PWR_DOM_OP_REQ_OP op) n
    answerWhen s m (dom s n).trans.isSome (uDom n)

/-- SET_OP. -/
def execSetOp (no : Bool) (s : State) : Res := done (serve s 0x0003 (setOp no))

/-- A request for a device level. (DESIGN CHOICE, unsafe: log 88) -/
def setLevel (no : Bool) (s : State) (m : Mail) : State :=
  let l := leAt m.args 0 1
  if m.f ≠ 0 then refuse s m acDENIED
  else if ¬(l = 0 ∨ l = 2) then refuse s m acBADARG
  else if no then refuse s m acREFUSED
  else levelCheck (levelRequest (setWait s m 0) l 1)

/-- SET_LEVEL. -/
def execSetLevel (no : Bool) (s : State) : Res := done (doneLevel (serve s 0x0004 (setLevel no)))
where
  /-- Writes that wait for a domain reach it when the level has brought it back. -/
  doneLevel (s : State) : State := deliverLate s

/-- Byte 3 of the answer of GET_THERMAL: WARN, a cap active, a sensor faulty. -/
def thermalFlags (s : State) : Nat :=
  (decide (temp16 (fld s Reg.THM_WARN F.THM_WARN_TEMP) ≤ temp16 (fld s Reg.THM_STAT F.THM_STAT_TEMP))).toNat +
    2 * ((upto 20).any fun r => decide (capOf s r ≠ 0)).toNat + 4 * ((upto 24).any fun i => isSet s (Reg.THM_SENS i) F.THM_SENS_FAULT).toNat

/-- GET_THERMAL. -/
def execGetThermal (s : State) : Res :=
  done (serve s 0x0005 fun s m => answerMail s m acOK
    (leBytes 2 (fld s Reg.THM_STAT F.THM_STAT_TEMP) ++ leBytes 1 (fld s Reg.THM_STAT F.THM_STAT_HOTTEST) ++ leBytes 1 (thermalFlags s)))

/-! ## Fault requests (R511) -/

/-- Answer bytes of GET_UNIT. -/
def unitBytes (s : State) (u : Nat) : List Byte :=
  leBytes 4 (unitStat s u).toNat ++ leBytes 4 (unit s u).total ++ leBytes 6 (unit s u).last

/-- GET_UNIT. -/
def execGetUnit (s : State) : Res :=
  done (serve s 0x0101 fun s m =>
    let u := leAt m.args 0 2
    if unitOfFn s m.f u then answerMail s m acOK (unitBytes s u) else refuse s m acDENIED)

/-- A request that only the physical function may make. (DESIGN CHOICE, unsafe: log 88) -/
def pfOnly (s : State) (m : Mail) (g : State) : State := if m.f ≠ 0 then refuse s m acDENIED else g

/-- RETIRE. -/
def execRetire (no : Bool) (s : State) : Res :=
  done (serve s 0x0102 fun s m =>
    let u := leAt m.args 0 2
    pfOnly s m (
      if !retirable u then refuse s m acBADARG
      else if no then refuse s m acREFUSED
      else
        let s := retire s u
        answerMail s m acOK (leBytes 4 (unitStat s u).toNat)))

/-- Does a restored unit still have its ready handshake before it? (DEDUCED, unsafe: log 86) -/
def returnsLater (s : State) (u : Nat) : Bool :=
  match u / 4096 with
  | 4 => false
  | 5 => false
  | 13 => (dom s (u % 4096)).trans.isSome
  | _ => decide (unitSt s u ≠ 0)

/-- RESTORE. -/
def execRestore (no : Bool) (s : State) : Res :=
  done (serve s 0x0103 fun s m =>
    let u := leAt m.args 0 2
    pfOnly s m (
      if !retirable u then refuse s m acBADARG
      else if no then refuse s m acREFUSED
      else
        let s := restore s u
        answerWhen s m (returnsLater s u) u))

/-- SET_SPARE. -/
def execSetSpare (no : Bool) (s : State) : Res :=
  done (serve s 0x0104 fun s m =>
    let t := leAt m.args 0 1
    pfOnly s m (
      if 128 ≤ t then refuse s m acBADARG
      else if no then refuse s m acREFUSED
      else
        let s := setFld s (Reg.TILE_SPARE t) F.TILE_SPARE_MASK (leAt m.args 1 1)
        answerMail s m acOK (leBytes 4 (rd s (Reg.TILE_SPARE t)).toNat)))

/-- SEP_READ. -/
def execSepRead (s : State) : Res :=
  done (serve s 0x0105 fun s m =>
    let n := leAt m.args 0 4
    pfOnly s m (if sepHeld s n then answerMail s m acOK (entryBytes (sepEntry s (n % 8192))) else refuse s m acGONE))

/-- Serial that the event last put into the recorder's queue will have. -/
def queuedSerial (s : State) : Nat := ((rd s Reg.SEP_COUNT).toNat + s.ras.queue.length - 1) % 2 ^ 32

/-- SEP_MARK: a MARK that is dropped has no serial, and the answer is any. (DEDUCED, safe: log 89) -/
def execSepMark (s : State) : Res :=
  done (serve s 0x0106 fun s m =>
    let t := sepMark s (leAt m.args 0 1) (BitVec.ofNat 32 (leAt m.args 4 4))
    if s.ras.queue.length < t.ras.queue.length then answerMail t m acOK (leBytes 4 (queuedSerial t))
    else
      let (v, t) := free 32 t
      answerMail t m acOK (leBytes 4 v))

/-- SEP_DUMP. -/
def execSepDump (no : Bool) (s : State) : Res :=
  done (serve s 0x0107 fun s m =>
    pfOnly s m (
      if no then refuse s m acREFUSED
      else setWait (sepDumpStart s (fld s Reg.SEP_STAT F.SEP_STAT_CAUSE) (raw s)) m 1))

/-- SEPIA_DUMP_DONE (R509, R511): a dump ends, and the requests that asked for it are answered. -/
def execSepiaDumpDone (ok : Bool) (s : State) : Res :=
  done (if fld s Reg.SEP_STAT F.SEP_STAT_DUMP ≠ 1 then s else autoStarts (answerWaiting (sepDumpDone s ok) 1 acOK))

/-! ## Management requests (R538) -/

/-- GET_VERSION. -/
def execGetVersion (s : State) : Res :=
  done (serve s 0x0201 fun s m => answerMail s m acOK
    (leBytes 4 (rd s Reg.MGT_FW_VER).toNat ++ leBytes 4 (peek s 0 0 Reg.MGT_BOOT_STAT).toNat ++ leBytes 4 (peek s 0 0 Reg.ID_ROM).toNat))

/-- GET_PON. -/
def execGetPon (s : State) : Res :=
  done (serve s 0x0202 fun s m => answerMail s m acOK
    (leBytes 8 (ponSec s) ++ leBytes 6 (raw s) ++ leBytes 2 ((rd s Reg.TIM_WRAP_CNT).toNat % 2 ^ 16)))

/-- RESET_UNIT. -/
def execResetUnit (s : State) : Res :=
  done (serve s 0x0203 fun s m =>
    let u := leAt m.args 0 2
    let i := u % 4096
    pfOnly s m (
      if u / 4096 = 1 ∧ i < 1024 then
        let s := ecpReset s i
        answerWhen s m (decide (unitSt s u = 1 ∨ unitSt s u = 2)) u
      else if u / 4096 = 13 ∧ i < 16 then
        let s := sectorReset s i
        answerWhen s m (dom s i).trans.isSome u
      else refuse s m acBADARG))

/-- WARM_RESET: the reset follows 1 ms, 1,966,080 Tc, later. (DESIGN CHOICE, safe: log 84) -/
def execWarmReset (s : State) : Res :=
  done (serve s 0x0204 fun s m =>
    pfOnly s m (
      let s := answerMail s m acOK []
      { s with mgt := { s.mgt with warmAt := some (rawTotal s + 1966080) } }))

/-! ## Other requests (R433) -/

/-- The codes that firmware answers by a command of its own. -/
def ownCodes : List Nat :=
  [0x0001, 0x0002, 0x0003, 0x0004, 0x0005, 0x0101, 0x0102, 0x0103, 0x0104, 0x0105, 0x0106, 0x0107, 0x0201, 0x0202, 0x0203, 0x0204]

/-- MGMT_ANSWER: firmware answers request `i` of the mailbox. The codes up to 0x7FFF that are not assigned are answered with
0xFFFF; the assigned ones have commands of their own. -/
def execMgmtAnswer (i : Fin 64) (acode : BitVec 16) (answer : BitVec 128) (s : State) : Res :=
  done (match s.hif.mail[i.val]? with
    | none => s
    | some m =>
      if ownCodes.contains m.mcode then s
      else autoStarts (answerMail s m (if m.mcode < 0x8000 then 0xFFFF else acode.toNat) (leBytes 16 answer.toNat)))

/-- MGMT_TIMEOUT: HIF_MGMT_TIMEOUT passes for request `i` of the mailbox. -/
def execMgmtTimeout (i : Fin 64) (s : State) : Res :=
  done (match s.hif.mail[i.val]? with
    | none => s
    | some m =>
      let s := { s with hif := { s.hif with mail := s.hif.mail.filter fun x => decide (x.seq ≠ m.seq) } }
      autoStarts (hifEvt (completeCmd s m.seq stMGMTTIMEOUT []) m.f F.HIF_EVT_MGMT_TIMEOUT))

end Sys2Proof.Machine
end

