-- ==== Sys2Proof/Machine/NocCmds.lean ====
section
/-! DEFINITION. Request packets at their targets (R299, R305, R311, R312) and the response timeout (R314). -/

namespace Sys2Proof.Machine

/-- Source port of a packet. -/
def sourcePort (src ssub : Nat) : Nat := src * 8 + ssub

/-- The issuer of a packet, by its RCLASS, FUNC, SRC and SSUB (R298, R299): 0 engine, 1 supervisor, 7 timeline unit; a unit of a strip
lies in the strip's scope. -/
def packetIssuer (rclass f src ssub : Nat) : Issuer :=
  if rclass = 0 ∧ src < 128 then engIssuer (src * 8 + ssub) f
  else if rclass = 1 ∧ src < 128 then supIssuer src f
  else { func := f, src := src
         scopes := if 160 ≤ src ∧ (rclass = 3 ∨ rclass = 4) then [uDom (16 + (src - 160) % 8 / 4 * 2 + (src - 160) / 8)] else [] }

/-- The register offset that a supervisor's request to configuration space names (R40). -/
def configAt (s : State) (iss : Issuer) (a n : Nat) (write : Bool) : Option Nat :=
  match target a with
  | .config off => if iss.sup = true ∧ (precheck s iss a n write).1 = OKAY then some off else none
  | _ => none

/-- The requester that a supervisor is for the register agent. -/
def supRequester (src : Fin 176) : Requester := if h : src.val < 128 then .sup ⟨src.val, h⟩ else .fn 0

/-- Size of an access for the register agent: anything but four bytes is no word. -/
def accSize (n : Nat) : AccSize := if n = 4 then .word else if n = 2 then .half else .byte

/-- A read at its target; `bad`: the register's shadow word has a parity error (R520). -/
def packetRead (s : State) (iss : Issuer) (w : Requester) (a n : Nat) (bad : Bool) : Nat × List Byte × State :=
  match configAt s iss a n false with
  | some off =>
    let (v, s) := regRead s w (accSize n) off bad
    (OKAY, (leBytes 4 v.toNat ++ leBytes n 0).take n, s)
  | none => accRead s iss a n

/-- A write whose byte enables leave bytes out: only memory takes it (R299). (DESIGN CHOICE, unsafe: log 92) -/
def maskedWrite (s : State) (iss : Issuer) (a : Nat) (bs : List (Byte × Bool)) : Nat × State :=
  if bs.all (·.2) then writeAt s iss a (bs.map (·.1))
  else if isMemory a then
    (OKAY, (upto bs.length).foldl (fun s i =>
      match bs[i]? with
      | some (b, true) => memWrite s (a + i) [b]
      | _ => s) s)
  else (DECERR, s)

/-- A write at its target: its code. A poisoned one is not performed (R312). (DEDUCED, unsafe: log 66; DESIGN CHOICE, unsafe: log 92) -/
def packetWrite (s : State) (iss : Issuer) (w : Requester) (a : Nat) (bs : List (Byte × Bool)) (poison posted : Bool) : Nat × State :=
  match configAt s iss a bs.length true with
  | some off =>
    if poison then (PARERR, s)
    else (OKAY, regWrite s w (if bs.all (·.2) then accSize bs.length else .byte) off (BitVec.ofNat 32 (leNat (bs.map (·.1)))))
  | none =>
    let (c, out) := precheck s iss a bs.length true
    let s := if out then rasDenied s else s
    let (c, s) := if c ≠ OKAY then (c, s) else if poison then (PARERR, s) else maskedWrite s iss a bs
    if c = OKAY then (c, s)
    else if posted && decide (c = FENCED ∨ c = PARERR) then (c, fenceDrop s a)
    else if c = PARERR then (c, s) else (c, nocFail s iss a c)

/-- An answer arrives at the port that issued the request, unless that port has answered TIMEOUT itself (R314). (DEDUCED, safe: log 91) -/
def respond (s : State) (port tag code : Nat) (bs : List Byte) : State :=
  if s.noc.late.contains (port, tag) then
    inc { s with noc := { s.noc with late := s.noc.late.filter fun x => decide (x ≠ (port, tag)) } } Reg.NOC_LATE_RSP_CNT
  else emit s (.resp tag code bs)

/-- TARGET_REQUEST (R305). `op`: 0 RD, 1 WR, 2 PWR; `data`, `be`: the 256-byte block that holds the address, and its byte
enables; `poison`: a flit of the packet is poisoned; `bad`: see `packetRead`. (DEDUCED, unsafe: log 66) -/
def execTargetRequest (op : Fin 3) (rclass : Fin 8) (f : Fin 32) (src : Fin 176) (ssub : Fin 8) (tag : Fin 128) (a : BitVec 48)
    (lenM1 : BitVec 8) (data : BitVec 2048) (be : BitVec 256) (poison bad : Bool) (s : State) : Res :=
  let n := lenM1.toNat + 1
  let iss := packetIssuer rclass f src ssub
  let w := supRequester src
  let port := sourcePort src ssub
  let block := leBytes 256 data.toNat
  let bs := (upto n).map fun i => let k := (a.toNat + i) % 256; (block.getD k 0, bitAt be.toNat k)
  match op.val with
  | 0 =>
    if poison then done (respond s port tag PARERR [])
    else
      match packetRead s iss w a.toNat n bad with
      | (c, ds, s) => done (respond s port tag c (if c = OKAY then ds else []))
  | 1 =>
    match packetWrite s iss w a.toNat bs poison false with
    | (c, s) => done (respond s port tag c [])
  | _ =>
    match packetWrite s iss w a.toNat bs poison true with
    | (_, s) => done s

/-- RESPONSE_TIMEOUT (R314): the port of a request answers TIMEOUT; `lost`: no answer will come any more. (DEDUCED, safe: log 91) -/
def execResponseTimeout (f : Fin 32) (src : Fin 176) (ssub : Fin 8) (tag : Fin 128) (a : BitVec 48) (lost : Bool) (s : State) : Res :=
  let port := sourcePort src ssub
  let s := nocFail s { func := f, src := src, scopes := [] } a.toNat TIMEOUT
  let s := emit s (.resp tag TIMEOUT [])
  done (if lost || s.noc.late.contains (port, tag.val) then s else { s with noc := { s.noc with late := s.noc.late ++ [(port, tag.val)] } })

end Sys2Proof.Machine
end

