-- ==== Sys2Proof/Machine/PowerCmds.lean ====
section
/-! DEFINITION. Meanings of the events of the power and thermal blocks (R446 to R475) and of the routers and caches (R296 to
R322). -/

namespace Sys2Proof.Machine

/-- DOMAIN_GATED (R457). -/
def execDomainGated (n : Fin 20) (s : State) : Res := doneLate (domGated s n)

/-- WAKE_MEMORY_CLEAR_DONE (R461). -/
def execWakeMemoryClearDone (n : Fin 20) (s : State) : Res := doneLate (memoryCleared s n)

/-- POWER_SWITCH_FREE (R464). -/
def execPowerSwitchFree (n : Fin 20) (s : State) : Res := doneLate (powerSwitchFree s n)

/-- COMPAT_ENGINE_START (R463). -/
def execCompatEngineStart (n : Fin 16) (s : State) : Res := doneLate (compatStart s n)

/-- SECTOR_PLL_LOCK (R462). -/
def execSectorPllLock (n : Fin 16) (s : State) : Res := doneLate (pllLock s n)

/-- PLL_LOCK_TIMEOUT (R464). -/
def execPllLockTimeout (n : Fin 16) (s : State) : Res := doneLate (pllTimeout s n)

/-- AVS_RESPONSE (R454). -/
def execAvsResponse (s : State) : Res := doneLate (avsResponse s)

/-- AVS_TIMEOUT (R456). -/
def execAvsTimeout (s : State) : Res := doneLate (avsTimeout s)

/-- LDO_SETTLED (R454). -/
def execLdoSettled (n : Fin 16) (s : State) : Res := doneLate (ldoSettled s n)

/-- IDLE_ENTRY (R449). -/
def execIdleEntry (n : Fin 20) (s : State) : Res := done (idleEntry s n)

/-- IDLE_WAKE (R449). -/
def execIdleWake (n : Fin 20) (s : State) : Res := done (wakeIdle s n)

/-- RESIDENCY_TICK (R466). -/
def execResidencyTick (s : State) : Res := done (residencyTick s)

/-- SKIM_CHANNEL_SAMPLE (R467). -/
def execSkimChannelSample (c : Fin 64) (v : BitVec 16) (isOpen isShort : Bool) (s : State) : Res :=
  done (skimSample s c v isOpen isShort)

/-- SKIM_ROUND_END (R470). -/
def execSkimRoundEnd (s : State) : Res := done (skimRoundEnd s)

/-- FLIT_RECEIVE (R312). (DESIGN CHOICE, safe: log 146) -/
def execFlitReceive (r : Fin 176) (port : Fin 9) (cls : Fin 5) (first : Bool) (hdr : BitVec 40) (payload : BitVec 512)
    (hdrOk payOk : Bool) (full : BitVec 32) (s : State) : Res :=
  done (flitReceive s r port cls first hdr.toNat payload.toNat hdrOk payOk full.toNat)

/-- LINK_HEARTBEAT_LOSS (R310). -/
def execLinkHeartbeatLoss (r : Fin 176) (port : Fin 9) (s : State) : Res := done (linkFault s r port 6)

/-- ROUTE_AROUND_REQUEST (R307). -/
def execRouteAroundRequest (r : Fin 176) (port : Fin 9) (s : State) : Res := done (routeAroundRequest s r port)

/-- ROUTE_BANK_INSTALLED (R307). -/
def execRouteBankInstalled (s : State) : Res := done (bankInstalled s)

/-- INJECTION_PORTS_SWITCHED (R309). -/
def execInjectionPortsSwitched (old : Word) (s : State) : Res := done (portsSwitched s old.toNat)

/-- OLD_EPOCH_DRAINED (R307). -/
def execOldEpochDrained (s : State) : Res := done (oldDrained s)

/-- DRAIN_LIMIT_EXPIRY (R310); `posted`: addresses of the discarded PWRs. -/
def execDrainLimitExpiry (posted : List (BitVec 48)) (s : State) : Res := done (drainExpiry s (posted.map (·.toNat)))

/-- FENCE_REQUEST (R313). -/
def execFenceRequest (u : BitVec 16) (s : State) : Res := done (if unitExists u.toNat then fenceReq s u.toNat else s)

/-- FENCE_NOTICE_ACK (R313). -/
def execFenceNoticeAck (u : BitVec 16) (s : State) : Res := done (if unitExists u.toNat then fenceAck s u.toNat else s)

/-- FENCE_DRAINED (R313). -/
def execFenceDrained (u : BitVec 16) (s : State) : Res :=
  done (if unitExists u.toNat && scopeQuiet s u.toNat then fenceDrained s u.toNat else s)

/-- FENCE_LIFT (R313). -/
def execFenceLift (u : BitVec 16) (s : State) : Res := done (if unitExists u.toNat then fenceLiftReq s u.toNat else s)

/-- HOME_REQUEST (R317) of cache `c`; `victim`: the line whose snoop filter entry gives way. -/
def execHomeRequest (c : Fin 132) (op : Fin 4) (a : BitVec 48) (d : BitVec 512) (victim : Option (BitVec 48)) (s : State) : Res :=
  done (homeRequest s c op a.toNat (leBytes 64 d.toNat) (victim.map fun v => v.toNat / 64 * 64))

/-- SNOOP (R301, R317); `d`: what the core has stored into the line since its grant. -/
def execSnoop (c : Fin 132) (a : BitVec 48) (inv : Bool) (d : Option (BitVec 512)) (s : State) : Res :=
  done (snoopCmd s c a.toNat inv (d.map fun v => leBytes 64 v.toNat))

end Sys2Proof.Machine
end

