-- ==== Sys2Proof/Machine/RegCmds.lean ====
section
/-! DEFINITION. Commands that are register accesses: each writes one register, or reads one, as its requester, through the register
agent (R8, R515 to R526), which knows what the access does. -/

namespace Sys2Proof.Machine

/-- Register of a coefficient of a CXU's bank, or of the bank's configuration. -/
def bankReg (n : Nat) (bankB : Bool) (k : Option (Fin 384)) : Nat :=
  match k, bankB with
  | some k, false => Reg.CXU_COEFA n k
  | some k, true => Reg.CXU_COEFB n k
  | none, false => Reg.CXU_BANKA_CFG n
  | none, true => Reg.CXU_BANKB_CFG n

/-! ## Any register -/

/-- REGISTER_WRITE (R8, R517): a write of any size to any offset. -/
def execRegisterWrite (w : Requester) (sz : AccSize) (a : BitVec 25) (v : Word) (s : State) : Res :=
  done (regWrite s w sz a.toNat v)

/-! ## Timelines -/

/-- TL_ENABLE (R52): a write of 1 to TL_CTL.EN. -/
def execTlEnable (w : Requester) (n : Fin 64) (s : State) : Res :=
  done (writeField s w (Reg.TL_CTL n) F.TL_CTL_EN 1)

/-- TL_DISABLE (R53): a write of 0 to TL_CTL.EN. -/
def execTlDisable (w : Requester) (n : Fin 64) (s : State) : Res :=
  done (writeField s w (Reg.TL_CTL n) F.TL_CTL_EN 0)

/-- TLN_ENABLE (R566): a write of 1 to TLN_CTL.EN. -/
def execTlnEnable (w : Requester) (s : State) : Res :=
  done (writeField s w (Reg.TLN_CTL) F.TLN_CTL_EN 1)

/-- TLN_DISABLE (R566): a write of 0 to TLN_CTL.EN. -/
def execTlnDisable (w : Requester) (s : State) : Res :=
  done (writeField s w (Reg.TLN_CTL) F.TLN_CTL_EN 0)

/-- TL_TAIL_WRITE (R54): a write of TL_TAIL. -/
def execTlTailWrite (w : Requester) (n : Fin 64) (v : Word) (s : State) : Res :=
  done (regWrite s w .word (Reg.TL_TAIL n) v)

/-! ## Carrier extraction units -/

/-- CXU_ENABLE (R284): a write of 1 to CXU_CTL.EN. -/
def execCxuEnable (w : Requester) (n : Fin 32) (s : State) : Res :=
  done (writeField s w (Reg.CXU_CTL n) F.CXU_CTL_EN 1)

/-- CXU_DISABLE (R284): a write of 0 to CXU_CTL.EN. -/
def execCxuDisable (w : Requester) (n : Fin 32) (s : State) : Res :=
  done (writeField s w (Reg.CXU_CTL n) F.CXU_CTL_EN 0)

/-- CXU_SYNC_GO (R279): a write of 1 to CXU_SYNC.GO. -/
def execCxuSyncGo (w : Requester) (n : Fin 32) (s : State) : Res :=
  done (writeField s w (Reg.CXU_SYNC n) F.CXU_SYNC_GO 1)

/-- CXU_BANK_SWITCH (R276): a write of CXU_BANK with SWITCH. -/
def execCxuBankSwitch (w : Requester) (n : Fin 32) (v : Word) (s : State) : Res :=
  done (regWrite s w .word (Reg.CXU_BANK n) (putF v F.CXU_BANK_SWITCH 1))

/-- CXU_COEF_WRITE (R278): a write of a coefficient of a bank, or of the bank's configuration (no `k`). -/
def execCxuCoefWrite (w : Requester) (n : Fin 32) (bankB : Bool) (k : Option (Fin 384)) (v : Word) (s : State) : Res :=
  done (regWrite s w .word (bankReg n bankB k) v)

/-! ## Fabric -/

/-- ROUTE_TABLE_WRITE (R307): a write of NOC_RT_DATA. -/
def execRouteTableWrite (w : Requester) (v : Word) (s : State) : Res :=
  done (regWrite s w .word (Reg.NOC_RT_DATA) v)

/-- PROBE_CLEAR (R322): a write of 1 to PRB_CTL.CLR. -/
def execProbeClear (w : Requester) (p : Fin 32) (s : State) : Res :=
  done (writeField s w (Reg.PRB_CTL p) F.PRB_CTL_CLR 1)

/-! ## DMA channels -/

/-- DMA_START (R326): a write of CH_CTRL with START in register mode. -/
def execDmaStart (w : Requester) (c : Fin 128) (v : Word) (s : State) : Res :=
  done (regWrite s w .word (chReg c Reg.CH_CTRL) (putF (putF (putF v F.CH_CTRL_STOP 0) F.CH_CTRL_CHAIN 0) F.CH_CTRL_START 1))

/-- DMA_CHAIN_START (R334): a write of CH_CTRL with START in chain mode. -/
def execDmaChainStart (w : Requester) (c : Fin 128) (v : Word) (s : State) : Res :=
  done (regWrite s w .word (chReg c Reg.CH_CTRL) (putF (putF (putF v F.CH_CTRL_STOP 0) F.CH_CTRL_CHAIN 1) F.CH_CTRL_START 1))

/-- DMA_STOP (R338): a write of CH_CTRL with STOP. -/
def execDmaStop (w : Requester) (c : Fin 128) (v : Word) (s : State) : Res :=
  done (regWrite s w .word (chReg c Reg.CH_CTRL) (putF (putF v F.CH_CTRL_START 0) F.CH_CTRL_STOP 1))

/-! ## Lanes and bundles -/

/-- LANE_ENABLE (R363): a write of 1 to LN_CTL.EN. -/
def execLaneEnable (w : Requester) (l : Fin 96) (s : State) : Res :=
  done (writeField s w (lnReg Reg.LN_CTL l) F.LN_CTL_EN 1)

/-- LANE_DISABLE (R363): a write of 0 to LN_CTL.EN. -/
def execLaneDisable (w : Requester) (l : Fin 96) (s : State) : Res :=
  done (writeField s w (lnReg Reg.LN_CTL l) F.LN_CTL_EN 0)

/-- LN_SLIP (R360): a write of 1 to LN_SLIP.SLIP. -/
def execLnSlip (w : Requester) (l : Fin 96) (s : State) : Res :=
  done (writeField s w (lnReg Reg.LN_SLIP l) F.LN_SLIP_SLIP 1)

/-- LN_INJ (R381): a write of LN_INJ with GO. -/
def execLnInj (w : Requester) (l : Fin 96) (v : Word) (s : State) : Res :=
  done (regWrite s w .word (lnReg Reg.LN_INJ l) (putF v F.LN_INJ_GO 1))

/-- LN_TEST (R380): a write of LN_CTL.TEST. -/
def execLnTest (w : Requester) (l : Fin 96) (on : Bool) (s : State) : Res :=
  done (writeField s w (lnReg Reg.LN_CTL l) F.LN_CTL_TEST on.toNat)

/-- LN_PRBS (R380): a write of LN_PRBS. -/
def execLnPrbs (w : Requester) (l : Fin 96) (v : Word) (s : State) : Res :=
  done (regWrite s w .word (lnReg Reg.LN_PRBS l) v)

/-- LNK_CTL_WRITE (R352): a write of LNK_CTL. -/
def execLnkCtlWrite (w : Requester) (b : Fin 12) (v : Word) (s : State) : Res :=
  done (regWrite s w .word (Reg.LNK_CTL b) v)

/-- SPARE_FORCE (R377): a write of LNK_SPARE_CTL with FORCE. -/
def execSpareForce (w : Requester) (b : Fin 12) (v : Word) (s : State) : Res :=
  done (regWrite s w .word (Reg.LNK_SPARE_CTL b) (putF (putF v F.LNK_SPARE_CTL_REVERT 0) F.LNK_SPARE_CTL_FORCE 1))

/-- SPARE_REVERT (R379): a write of LNK_SPARE_CTL with REVERT. -/
def execSpareRevert (w : Requester) (b : Fin 12) (v : Word) (s : State) : Res :=
  done (regWrite s w .word (Reg.LNK_SPARE_CTL b) (putF (putF v F.LNK_SPARE_CTL_FORCE 0) F.LNK_SPARE_CTL_REVERT 1))

/-- LNK_TXTS_REQ (R374): a write of LNK_TXTS_REQ with GO. -/
def execLnkTxtsReq (w : Requester) (b : Fin 12) (v : Word) (s : State) : Res :=
  done (regWrite s w .word (Reg.LNK_TXTS_REQ b) (putF v F.LNK_TXTS_REQ_GO 1))

/-- LNK_TXTS_POP (R374): a write of 1 to LNK_TXTS_POP.POP. -/
def execLnkTxtsPop (w : Requester) (b : Fin 12) (s : State) : Res :=
  done (writeField s w (Reg.LNK_TXTS_POP b) F.LNK_TXTS_POP_POP 1)

/-! ## Time -/

/-- TIM_RATE (R390): a write of TIM_RATE. -/
def execTimRate (w : Requester) (v : Word) (s : State) : Res :=
  done (regWrite s w .word (Reg.TIM_RATE) v)

/-- TIM_STEP (R392): a write of TIM_STEP. -/
def execTimStep (w : Requester) (v : Word) (s : State) : Res :=
  done (regWrite s w .word (Reg.TIM_STEP) v)

/-- TIM_OFFSET_HI (R392): a write of TIM_OFFSET_HI. -/
def execTimOffsetHi (w : Requester) (v : Word) (s : State) : Res :=
  done (regWrite s w .word (Reg.TIM_OFFSET_HI) v)

/-- TIM_NOW_LO (R393): a read of TIM_NOW_LO; `bad`: see `readReg`. -/
def execTimNowLo (w : Requester) (bad : Bool) (s : State) : Res :=
  done (answerRead s w Reg.TIM_NOW_LO bad)

/-- TIM_PPSIN_LO (R401): a read of TIM_PPSIN_LO. -/
def execTimPpsinLo (w : Requester) (bad : Bool) (s : State) : Res :=
  done (answerRead s w Reg.TIM_PPSIN_LO bad)

/-- TIM_TTX_CTL (R406): a write of TIM_TTX_CTL with GO. -/
def execTimTtxCtl (w : Requester) (v : Word) (s : State) : Res :=
  done (regWrite s w .word (Reg.TIM_TTX_CTL) (putF v F.TIM_TTX_CTL_GO 1))

/-- TIM_TRX_POP (R407): a write of 1 to TIM_TRX_POP.POP. -/
def execTimTrxPop (w : Requester) (s : State) : Res :=
  done (writeField s w (Reg.TIM_TRX_POP) F.TIM_TRX_POP_POP 1)

/-! ## Host interface -/

/-- SWATCH_ACCEPT (R441): a write of 1 to SWATCH_CTL.ACCEPT. -/
def execSwatchAccept (w : Requester) (s : State) : Res :=
  done (writeField s w (Reg.SWATCH_CTL) F.SWATCH_CTL_ACCEPT 1)

/-! ## Power -/

/-- DOMAIN_STATE_REQUEST (R451): a write of PWR_DOMn_REQ with GO. -/
def execDomainStateRequest (w : Requester) (n : Fin 20) (v : Word) (s : State) : Res :=
  done (regWrite s w .word (Reg.PWR_DOM_REQ n) (putF (putF v F.PWR_DOM_REQ_RESET 0) F.PWR_DOM_REQ_GO 1))

/-- SECTOR_RESET (R528): a write of 1 to PWR_DOMn_REQ.RESET. -/
def execSectorReset (w : Requester) (n : Fin 16) (s : State) : Res :=
  done (writeField s w (Reg.PWR_DOM_REQ n) F.PWR_DOM_REQ_RESET 1)

/-- CLOCK_SOURCE_SWITCH (R462): a write of 1 to PWR_DOMn_CLK.SRC. -/
def execClockSourceSwitch (w : Requester) (n : Fin 16) (s : State) : Res :=
  done (writeField s w (Reg.PWR_DOM_CLK n) F.PWR_DOM_CLK_SRC 1)

/-- OP_REQUEST (R452): a write of PWR_DOMn_OP.REQ_OP. -/
def execOpRequest (w : Requester) (n : Fin 16) (op : Fin 4) (s : State) : Res :=
  done (writeField s w (Reg.PWR_DOM_OP n) F.PWR_DOM_OP_REQ_OP op)

/-- LEVEL_REQUEST (R465): a write of PWR_LEVEL_REQ with GO. -/
def execLevelRequest (w : Requester) (v : Word) (s : State) : Res :=
  done (regWrite s w .word (Reg.PWR_LEVEL_REQ) (putF v F.PWR_LEVEL_REQ_GO 1))

/-! ## Faults and engines -/

/-- READY_HANDSHAKE (R502): unit `u` goes through the handshake; `gen`: its generation matches; `shadow`: its shadow words read without a parity error; `again`: it faults once more while its memories are cleared.
(DEDUCED, safe: log 97) -/
def execReadyHandshake (u : BitVec 16) (gen shadow again : Bool) (s : State) : Res :=
  doneLate (autoStarts (releaseSettle (retryPairs (if unitExists u.toNat then handshake s u.toNat gen shadow again else s))))

/-- ECP_HALT (R512): a write of 1 to ECP_CTL.HALT. -/
def execEcpHalt (w : Requester) (e : Fin 1024) (s : State) : Res :=
  done (writeField s w (Reg.ECP_CTL (e / 8) (e % 8)) F.ECP_CTL_HALT 1)

/-- ECP_RESET (R512): a write of 1 to ECP_CTL.RESET. -/
def execEcpReset (w : Requester) (e : Fin 1024) (s : State) : Res :=
  done (writeField s w (Reg.ECP_CTL (e / 8) (e % 8)) F.ECP_CTL_RESET 1)

/-- ECP_DOORBELL (R512): a write of 1 to ECP_CTL.DOORBELL. -/
def execEcpDoorbell (w : Requester) (e : Fin 1024) (s : State) : Res :=
  done (writeField s w (Reg.ECP_CTL (e / 8) (e % 8)) F.ECP_CTL_DOORBELL 1)

/-- RAS_INJ (R513): a write of RAS_INJ with GO. -/
def execRasInj (w : Requester) (v : Word) (s : State) : Res :=
  done (regWrite s w .word (Reg.RAS_INJ) (putF v F.RAS_INJ_GO 1))

/-- RAS_Q_UNIT (R513): a write of RAS_Q_UNIT. -/
def execRasQUnit (w : Requester) (v : Word) (s : State) : Res :=
  done (regWrite s w .word (Reg.RAS_Q_UNIT) v)

/-! ## The recorder -/

/-- SEP_CTL_FREEZE (R508): a write of 1 to SEP_CTL.FREEZE. -/
def execSepCtlFreeze (w : Requester) (s : State) : Res :=
  done (writeField s w (Reg.SEP_CTL) F.SEP_CTL_FREEZE 1)

/-- SEP_CTL_UNFREEZE (R508): a write of 1 to SEP_CTL.UNFREEZE. -/
def execSepCtlUnfreeze (w : Requester) (s : State) : Res :=
  done (writeField s w (Reg.SEP_CTL) F.SEP_CTL_UNFREEZE 1)

/-- SEP_CTL_DUMP (R509): a write of 1 to SEP_CTL.DUMP. -/
def execSepCtlDump (w : Requester) (s : State) : Res :=
  done (writeField s w (Reg.SEP_CTL) F.SEP_CTL_DUMP 1)

/-- SEP_MARK_REGISTER (R514): a write of SEP_MARK. -/
def execSepMarkRegister (w : Requester) (v : Word) (s : State) : Res :=
  done (regWrite s w .word (Reg.SEP_MARK) v)

/-- SEP_RD_SEL (R510): a write of SEP_RD_SEL. -/
def execSepRdSel (w : Requester) (v : Word) (s : State) : Res :=
  done (regWrite s w .word (Reg.SEP_RD_SEL) v)

/-! ## Reset and boot -/

/-- MGT_RST_REQ (R528): a write of 1 to MGT_RST_REQ.WARM. -/
def execMgtRstReq (w : Requester) (s : State) : Res :=
  done (writeField s w (Reg.MGT_RST_REQ) F.MGT_RST_REQ_WARM 1)

/-- MGT_HBOOT_CTL (R535): a write of 1 to MGT_HBOOT_CTL.GO. -/
def execMgtHbootCtl (w : Requester) (s : State) : Res :=
  done (writeField s w (Reg.MGT_HBOOT_CTL) F.MGT_HBOOT_CTL_GO 1)

end Sys2Proof.Machine
end

