-- ==== Sys2Proof/Machine/Dispatch.lean ====
section
/-! DEFINITION. One arm a command: each is one call of its meaning. -/

namespace Sys2Proof.Machine

/-- The effect of a command on everything but the queue of waiting commands. -/
def exec (i : Instr) (s : State) : Host.Outcome State Fault Refusal :=
  match i with
  | .tlBoundary t => Sys2Proof.Machine.execTlBoundary t s
  | .tlPreparePoint t => Sys2Proof.Machine.execTlPreparePoint t s
  | .paletteBind t => Sys2Proof.Machine.execPaletteBind t s
  | .recordDelivery => Sys2Proof.Machine.execRecordDelivery s
  | .qfullRelease p => Sys2Proof.Machine.execQfullRelease p s
  | .parkedTaskDelivery k => Sys2Proof.Machine.execParkedTaskDelivery k s
  | .taskStartTime k => Sys2Proof.Machine.execTaskStartTime k s
  | .ingressClose p idx => Sys2Proof.Machine.execIngressClose p idx s
  | .taskDispatch t e => Sys2Proof.Machine.execTaskDispatch t e s
  | .programLoadDone e => Sys2Proof.Machine.execProgramLoadDone e s
  | .dmaTaskDispatch t => Sys2Proof.Machine.execDmaTaskDispatch t s
  | .paramEntryRead k j out lost => Sys2Proof.Machine.execParamEntryRead k j out lost s
  | .steal thief cls => Sys2Proof.Machine.execSteal thief cls s
  | .taskCompletion e => Sys2Proof.Machine.execTaskCompletion e s
  | .harqCommitResponse k lost performed => Sys2Proof.Machine.execHarqCommitResponse k lost performed s
  | .taskDeadline k => Sys2Proof.Machine.execTaskDeadline k s
  | .tskLimitExpiry e => Sys2Proof.Machine.execTskLimitExpiry e s
  | .engineHalted e => Sys2Proof.Machine.execEngineHalted e s
  | .slotDone p => Sys2Proof.Machine.execSlotDone p s
  | .tlEnable w n => Sys2Proof.Machine.execTlEnable w n s
  | .tlDisable w n => Sys2Proof.Machine.execTlDisable w n s
  | .tlnEnable w => Sys2Proof.Machine.execTlnEnable w s
  | .tlnDisable w => Sys2Proof.Machine.execTlnDisable w s
  | .tlTailWrite w n v => Sys2Proof.Machine.execTlTailWrite w n v s
  | .nop e bad inB => Sys2Proof.Machine.execNop e bad inB s
  | .tend e bad => Sys2Proof.Machine.execTend e bad s
  | .rte e bad => Sys2Proof.Machine.execRte e bad s
  | .isync e bad => Sys2Proof.Machine.execIsync e bad s
  | .brk e bad => Sys2Proof.Machine.execBrk e bad s
  | .trap e bad imm => Sys2Proof.Machine.execTrap e bad imm s
  | .jr e bad rs => Sys2Proof.Machine.execJr e bad rs s
  | .addSub e sub rd ra rb => Sys2Proof.Machine.execAddSub e sub rd ra rb s
  | .andOrXorAndn e op rd ra rb => Sys2Proof.Machine.execAndOrXorAndn e op rd ra rb s
  | .sllSrlSra e op rd ra rb => Sys2Proof.Machine.execSllSrlSra e op rd ra rb s
  | .addsSubs e sub rd ra rb => Sys2Proof.Machine.execAddsSubs e sub rd ra rb s
  | .minMax e mx rd ra rb => Sys2Proof.Machine.execMinMax e mx rd ra rb s
  | .seqSne e ne rd ra rb => Sys2Proof.Machine.execSeqSne e ne rd ra rb s
  | .sltSltu e u rd ra rb => Sys2Proof.Machine.execSltSltu e u rd ra rb s
  | .sleSleu e u rd ra rb => Sys2Proof.Machine.execSleSleu e u rd ra rb s
  | .mul e rd ra rb => Sys2Proof.Machine.execMul e rd ra rb s
  | .mulhMulhu e u rd ra rb => Sys2Proof.Machine.execMulhMulhu e u rd ra rb s
  | .mulq e rd ra rb => Sys2Proof.Machine.execMulq e rd ra rb s
  | .norms e bad rd ra => Sys2Proof.Machine.execNorms e bad rd ra s
  | .addiSlti e slt rd ra imm => Sys2Proof.Machine.execAddiSlti e slt rd ra imm s
  | .andiOriXoriSltiu e op rd ra imm => Sys2Proof.Machine.execAndiOriXoriSltiu e op rd ra imm s
  | .slliSrliSrai e bad op rd ra sh => Sys2Proof.Machine.execSlliSrliSrai e bad op rd ra sh s
  | .movi e rd imm => Sys2Proof.Machine.execMovi e rd imm s
  | .movhi e bad rd imm => Sys2Proof.Machine.execMovhi e bad rd imm s
  | .beqzBnezBltzBgezBgtzBlez e cond gs off => Sys2Proof.Machine.execBeqzBnezBltzBgezBgtzBlez e cond gs off s
  | .j e bad off => Sys2Proof.Machine.execJ e bad off s
  | .call e bad off => Sys2Proof.Machine.execCall e bad off s
  | .loop e n rot g count last => Sys2Proof.Machine.execLoop e n rot g count last s
  | .mts e bad sr rs => Sys2Proof.Machine.execMts e bad sr rs s
  | .mfs e bad rd sr => Sys2Proof.Machine.execMfs e bad rd sr s
  | .ld e rt an mode sz disp => Sys2Proof.Machine.execLd e rt an mode sz disp s
  | .st e rt an mode sz disp => Sys2Proof.Machine.execSt e rt an mode sz disp s
  | .vld e vd an mode pg disp => Sys2Proof.Machine.execVld e vd an mode pg disp s
  | .vldFf e vd an mode pg disp => Sys2Proof.Machine.execVldFf e vd an mode pg disp s
  | .vstr e vs an mode pg disp => Sys2Proof.Machine.execVstr e vs an mode pg disp s
  | .ld2Ld3Ld4 e vd an mode pg nf disp => Sys2Proof.Machine.execLd2Ld3Ld4 e vd an mode pg nf disp s
  | .st2St3St4 e vs an mode pg nf disp => Sys2Proof.Machine.execSt2St3St4 e vs an mode pg nf disp s
  | .vgath e bad vd an vi pg => Sys2Proof.Machine.execVgath e bad vd an vi pg s
  | .vgathFf e bad vd an vi pg => Sys2Proof.Machine.execVgathFf e bad vd an vi pg s
  | .vscat e bad ff vs an vi pg => Sys2Proof.Machine.execVscat e bad ff vs an vi pg s
  | .vaddVsub e sub vd va vb pg t => Sys2Proof.Machine.execVaddVsub e sub vd va vb pg t s
  | .vaddsVsubs e sub vd va vb pg t => Sys2Proof.Machine.execVaddsVsubs e sub vd va vb pg t s
  | .vandVorVxorVandn e op vd va vb pg t => Sys2Proof.Machine.execVandVorVxorVandn e op vd va vb pg t s
  | .vmov e bad vd va pg t => Sys2Proof.Machine.execVmov e bad vd va pg t s
  | .vminVmax e mx vd va vb pg t => Sys2Proof.Machine.execVminVmax e mx vd va vb pg t s
  | .vabsVneg e bad neg vd va pg t => Sys2Proof.Machine.execVabsVneg e bad neg vd va pg t s
  | .vconj e bad vd va pg t => Sys2Proof.Machine.execVconj e bad vd va pg t s
  | .vshlVshrVshrl e op vd va n pg t => Sys2Proof.Machine.execVshlVshrVshrl e op vd va n pg t s
  | .vshls e vd va n pg t => Sys2Proof.Machine.execVshls e vd va n pg t s
  | .vshrr e vd va n pg t => Sys2Proof.Machine.execVshrr e vd va n pg t s
  | .vnrw e h vd va n pg t => Sys2Proof.Machine.execVnrw e h vd va n pg t s
  | .vsel e vd va vb pn t => Sys2Proof.Machine.execVsel e vd va vb pn t s
  | .vwid e bad w vd va pg t => Sys2Proof.Machine.execVwid e bad w vd va pg t s
  | .vnormVexp e bad ex vd va pg t => Sys2Proof.Machine.execVnormVexp e bad ex vd va pg t s
  | .vzip e bad vd va vb t => Sys2Proof.Machine.execVzip e bad vd va vb t s
  | .vuzp e bad odd vd va t => Sys2Proof.Machine.execVuzp e bad odd vd va t s
  | .vperm e vd va vi pg t => Sys2Proof.Machine.execVperm e vd va vi pg t s
  | .vdup e bad vd va k pg t => Sys2Proof.Machine.execVdup e bad vd va k pg t s
  | .vsld e bad vd va vb k => Sys2Proof.Machine.execVsld e bad vd va vb k s
  | .vcmpccV e cond vd va vb pg t => Sys2Proof.Machine.execVcmpccV e cond vd va vb pg t s
  | .vcmpccP e bad cond pd va vb pg t => Sys2Proof.Machine.execVcmpccP e bad cond pd va vb pg t s
  | .pandPorPxorPandn e bad op pd pa pb => Sys2Proof.Machine.execPandPorPxorPandn e bad op pd pa pb s
  | .pnot e bad pd pa => Sys2Proof.Machine.execPnot e bad pd pa s
  | .pwhile e bad pd gs gt => Sys2Proof.Machine.execPwhile e bad pd gs gt s
  | .pcnt e bad gd pa => Sys2Proof.Machine.execPcnt e bad gd pa s
  | .pfirst e bad gd pa => Sys2Proof.Machine.execPfirst e bad gd pa s
  | .pmovToV e bad vd pa => Sys2Proof.Machine.execPmovToV e bad vd pa s
  | .pmovToP e bad pd va => Sys2Proof.Machine.execPmovToP e bad pd va s
  | .vmacVmsuVmpy e bad kind ac va vb pg form => Sys2Proof.Machine.execVmacVmsuVmpy e bad kind ac va vb pg form s
  | .vmacsVmsusVmpys e bad kind ac va vb pg form k => Sys2Proof.Machine.execVmacsVmsusVmpys e bad kind ac va vb pg form k s
  | .vrac e bad vd ac x bk sh => Sys2Proof.Machine.execVrac e bad vd ac x bk sh s
  | .vacclr e bad ac => Sys2Proof.Machine.execVacclr e bad ac s
  | .vacmov e bad acd acs => Sys2Proof.Machine.execVacmov e bad acd acs s
  | .vracx e bad vd ac => Sys2Proof.Machine.execVracx e bad vd ac s
  | .vwac e bad ac vs => Sys2Proof.Machine.execVwac e bad ac vs s
  | .expb e bad vd va g24 m1 => Sys2Proof.Machine.execExpb e bad vd va g24 m1 s
  | .shrb e bad vd va vs g24 m1 => Sys2Proof.Machine.execShrb e bad vd va vs g24 m1 s
  | .vpkm e bad vd va m1 => Sys2Proof.Machine.execVpkm e bad vd va m1 s
  | .vupkm e bad vd va m1 => Sys2Proof.Machine.execVupkm e bad vd va m1 s
  | .faddFsubFmul e bad p op fd fa fb => Sys2Proof.Machine.execFaddFsubFmul e bad p op fd fa fb s
  | .fma e p fd fa fb fc => Sys2Proof.Machine.execFma e p fd fa fb fc s
  | .fdiv e bad p fd fa fb => Sys2Proof.Machine.execFdiv e bad p fd fa fb s
  | .fsqrt e bad p fd fa => Sys2Proof.Machine.execFsqrt e bad p fd fa s
  | .fminFmax e bad p mx fd fa fb => Sys2Proof.Machine.execFminFmax e bad p mx fd fa fb s
  | .fabsFneg e bad p neg fd fa => Sys2Proof.Machine.execFabsFneg e bad p neg fd fa s
  | .fmov e bad p fd fa => Sys2Proof.Machine.execFmov e bad p fd fa s
  | .fcmp e bad p cond gd fa fb => Sys2Proof.Machine.execFcmp e bad p cond gd fa fb s
  | .fcvt e bad p code d a => Sys2Proof.Machine.execFcvt e bad p code d a s
  | .fmvgf e bad fd gs => Sys2Proof.Machine.execFmvgf e bad fd gs s
  | .fmvfg e bad gd fa => Sys2Proof.Machine.execFmvfg e bad gd fa s
  | .mtc e bad port cr gs => Sys2Proof.Machine.execMtc e bad port cr gs s
  | .mfc e bad port cr gd => Sys2Proof.Machine.execMfc e bad port cr gd s
  | .cpsave e bad port an => Sys2Proof.Machine.execCpsave e bad port an s
  | .cpload e bad port an => Sys2Proof.Machine.execCpload e bad port an s
  | .cmzero e bad cd => Sys2Proof.Machine.execCmzero e bad cd s
  | .cmident e bad cd => Sys2Proof.Machine.execCmident e bad cd s
  | .cmmov e bad cd ca => Sys2Proof.Machine.execCmmov e bad cd ca s
  | .cmherm e bad cd ca => Sys2Proof.Machine.execCmherm e bad cd ca s
  | .cmaddCmsub e bad sub cd ca cb => Sys2Proof.Machine.execCmaddCmsub e bad sub cd ca cb s
  | .cmdiag e bad cd ca => Sys2Proof.Machine.execCmdiag e bad cd ca s
  | .cmmul e bad cd ca cb => Sys2Proof.Machine.execCmmul e bad cd ca cb s
  | .cmmulh e bad cd ca cb => Sys2Proof.Machine.execCmmulh e bad cd ca cb s
  | .cmmulbh e bad cd ca cb => Sys2Proof.Machine.execCmmulbh e bad cd ca cb s
  | .cmmac e bad ca cb => Sys2Proof.Machine.execCmmac e bad ca cb s
  | .cmmach e bad ca cb => Sys2Proof.Machine.execCmmach e bad ca cb s
  | .cmclra e bad => Sys2Proof.Machine.execCmclra e bad s
  | .cmrda e bad cd sh => Sys2Proof.Machine.execCmrda e bad cd sh s
  | .cmchol e bad cd ca => Sys2Proof.Machine.execCmchol e bad cd ca s
  | .cminvl e bad cd ca => Sys2Proof.Machine.execCminvl e bad cd ca s
  | .cminv e bad cd ca => Sys2Proof.Machine.execCminv e bad cd ca s
  | .cmld e bad cd va j => Sys2Proof.Machine.execCmld e bad cd va j s
  | .cmst e bad vd ca j => Sys2Proof.Machine.execCmst e bad vd ca j s
  | .bucrc e bad va gn => Sys2Proof.Machine.execBucrc e bad va gn s
  | .bucrcb e bad va gn => Sys2Proof.Machine.execBucrcb e bad va gn s
  | .buseq e bad vd gn => Sys2Proof.Machine.execBuseq e bad vd gn s
  | .buscr e bad vd va gn => Sys2Proof.Machine.execBuscr e bad vd va gn s
  | .buscrl e bad vd va gn => Sys2Proof.Machine.execBuscrl e bad vd va gn s
  | .buskip e bad gn => Sys2Proof.Machine.execBuskip e bad gn s
  | .bubil e bad vd va gl qm => Sys2Proof.Machine.execBubil e bad vd va gl qm s
  | .bubdl e bad vd va gl qm => Sys2Proof.Machine.execBubdl e bad vd va gl qm s
  | .dmap e bad vd va vb => Sys2Proof.Machine.execDmap e bad vd va vb s
  | .cp3Free t => Sys2Proof.Machine.execCp3Free t s
  | .coprocessorDone e port parity => Sys2Proof.Machine.execCoprocessorDone e port parity s
  | .engineLoadResponse e d => Sys2Proof.Machine.execEngineLoadResponse e d s
  | .engineStoreResponse e d => Sys2Proof.Machine.execEngineStoreResponse e d s
  | .irqTimer e => Sys2Proof.Machine.execIrqTimer e s
  | .interruptAccept e => Sys2Proof.Machine.execInterruptAccept e s
  | .handlerEntry e => Sys2Proof.Machine.execHandlerEntry e s
  | .ldpcDecode q p d => Sys2Proof.Machine.execLdpcDecode q p d s
  | .ldpcEncode q p d => Sys2Proof.Machine.execLdpcEncode q p d s
  | .polarDecode q p d => Sys2Proof.Machine.execPolarDecode q p d s
  | .turboDecode q p d => Sys2Proof.Machine.execTurboDecode q p d s
  | .carry q turbo p d => Sys2Proof.Machine.execCarry q turbo p d s
  | .fftJob q p d => Sys2Proof.Machine.execFftJob q p d s
  | .jobStart q k => Sys2Proof.Machine.execJobStart q k s
  | .jobAccessResponse idx d => Sys2Proof.Machine.execJobAccessResponse idx d s
  | .jobFinish idx => Sys2Proof.Machine.execJobFinish idx s
  | .jobCancelComplete e => Sys2Proof.Machine.execJobCancelComplete e s
  | .fecUnitFault q k u illegal => Sys2Proof.Machine.execFecUnitFault q k u illegal s
  | .jobWatchdog q k u => Sys2Proof.Machine.execJobWatchdog q k u s
  | .cxuEnable w n => Sys2Proof.Machine.execCxuEnable w n s
  | .cxuDisable w n => Sys2Proof.Machine.execCxuDisable w n s
  | .cxuMemWrite n p d => Sys2Proof.Machine.execCxuMemWrite n p d s
  | .cxuSample n => Sys2Proof.Machine.execCxuSample n s
  | .cxuBlockHeader n => Sys2Proof.Machine.execCxuBlockHeader n s
  | .cxuSyncGo w n => Sys2Proof.Machine.execCxuSyncGo w n s
  | .cxuBankSwitch w n v => Sys2Proof.Machine.execCxuBankSwitch w n v s
  | .cxuCoefWrite w n bankB k v => Sys2Proof.Machine.execCxuCoefWrite w n bankB k v s
  | .cxuUnitFault n illegal => Sys2Proof.Machine.execCxuUnitFault n illegal s
  | .flitReceive r port cls first hdr payload hdrOk payOk full => Sys2Proof.Machine.execFlitReceive r port cls first hdr payload hdrOk payOk full s
  | .targetRequest op rclass f src ssub tag a lenM1 data be poison bad => Sys2Proof.Machine.execTargetRequest op rclass f src ssub tag a lenM1 data be poison bad s
  | .homeRequest c op a d victim => Sys2Proof.Machine.execHomeRequest c op a d victim s
  | .snoop c a inv d => Sys2Proof.Machine.execSnoop c a inv d s
  | .responseTimeout f src ssub tag a lost => Sys2Proof.Machine.execResponseTimeout f src ssub tag a lost s
  | .linkHeartbeatLoss r port => Sys2Proof.Machine.execLinkHeartbeatLoss r port s
  | .routeAroundRequest r port => Sys2Proof.Machine.execRouteAroundRequest r port s
  | .routeBankInstalled => Sys2Proof.Machine.execRouteBankInstalled s
  | .injectionPortsSwitched old => Sys2Proof.Machine.execInjectionPortsSwitched old s
  | .oldEpochDrained => Sys2Proof.Machine.execOldEpochDrained s
  | .drainLimitExpiry posted => Sys2Proof.Machine.execDrainLimitExpiry posted s
  | .routeTableWrite w v => Sys2Proof.Machine.execRouteTableWrite w v s
  | .probeClear w p => Sys2Proof.Machine.execProbeClear w p s
  | .fenceRequest u => Sys2Proof.Machine.execFenceRequest u s
  | .fenceNoticeAck u => Sys2Proof.Machine.execFenceNoticeAck u s
  | .fenceDrained u => Sys2Proof.Machine.execFenceDrained u s
  | .fenceLift u => Sys2Proof.Machine.execFenceLift u s
  | .dmaStart w c v => Sys2Proof.Machine.execDmaStart w c v s
  | .dmaChainStart w c v => Sys2Proof.Machine.execDmaChainStart w c v s
  | .dmaStop w c v => Sys2Proof.Machine.execDmaStop w c v s
  | .dmaDescriptorFetched c d => Sys2Proof.Machine.execDmaDescriptorFetched c d s
  | .dmaAccessResponse c write d => Sys2Proof.Machine.execDmaAccessResponse c write d s
  | .dmaDrainDone c => Sys2Proof.Machine.execDmaDrainDone c s
  | .dmaRequestWordWrite c p v => Sys2Proof.Machine.execDmaRequestWordWrite c p v s
  | .dmaWaitreqResume c => Sys2Proof.Machine.execDmaWaitreqResume c s
  | .dmaStopTimeout c => Sys2Proof.Machine.execDmaStopTimeout c s
  | .dmaUnitFault d illegal => Sys2Proof.Machine.execDmaUnitFault d illegal s
  | .laneEnable w l => Sys2Proof.Machine.execLaneEnable w l s
  | .laneDisable w l => Sys2Proof.Machine.execLaneDisable w l s
  | .signalPresent l => Sys2Proof.Machine.execSignalPresent l s
  | .signalLost l => Sys2Proof.Machine.execSignalLost l s
  | .blockReceive l hdr payload => Sys2Proof.Machine.execBlockReceive l hdr payload s
  | .blockLock l => Sys2Proof.Machine.execBlockLock l s
  | .blockLockLost l => Sys2Proof.Machine.execBlockLockLost l s
  | .lnSlip w l => Sys2Proof.Machine.execLnSlip w l s
  | .caps l => Sys2Proof.Machine.execCaps l s
  | .ack l => Sys2Proof.Machine.execAck l s
  | .nak l => Sys2Proof.Machine.execNak l s
  | .handover l => Sys2Proof.Machine.execHandover l s
  | .checkPass l => Sys2Proof.Machine.execCheckPass l s
  | .attemptTimeout l => Sys2Proof.Machine.execAttemptTimeout l s
  | .backoffEnd l => Sys2Proof.Machine.execBackoffEnd l s
  | .absentRetry l => Sys2Proof.Machine.execAbsentRetry l s
  | .frameReceive l sub line => Sys2Proof.Machine.execFrameReceive l sub line s
  | .sectionReceive l => Sys2Proof.Machine.execSectionReceive l s
  | .frameTransmit l sub => Sys2Proof.Machine.execFrameTransmit l sub s
  | .egressTransmitTime p buf => Sys2Proof.Machine.execEgressTransmitTime p buf s
  | .egressLateLimit l => Sys2Proof.Machine.execEgressLateLimit l s
  | .lossOfLock l => Sys2Proof.Machine.execLossOfLock l s
  | .switch l => Sys2Proof.Machine.execSwitch l s
  | .switchAck l => Sys2Proof.Machine.execSwitchAck l s
  | .revert l => Sys2Proof.Machine.execRevert l s
  | .revertAck l => Sys2Proof.Machine.execRevertAck l s
  | .switchResend b => Sys2Proof.Machine.execSwitchResend b s
  | .switchAckTimeout b => Sys2Proof.Machine.execSwitchAckTimeout b s
  | .spareForce w b v => Sys2Proof.Machine.execSpareForce w b v s
  | .spareRevert w b v => Sys2Proof.Machine.execSpareRevert w b v s
  | .lnkCtlWrite w b v => Sys2Proof.Machine.execLnkCtlWrite w b v s
  | .lnkTxtsReq w b v => Sys2Proof.Machine.execLnkTxtsReq w b v s
  | .lnkTxtsPop w b => Sys2Proof.Machine.execLnkTxtsPop w b s
  | .lnInj w l v => Sys2Proof.Machine.execLnInj w l v s
  | .lnTest w l on => Sys2Proof.Machine.execLnTest w l on s
  | .aonPllLock => Sys2Proof.Machine.execAonPllLock s
  | .aonPllLoss => Sys2Proof.Machine.execAonPllLoss s
  | .lnkalign => Sys2Proof.Machine.execLnkalign s
  | .lnkalignLost => Sys2Proof.Machine.execLnkalignLost s
  | .timWrap => Sys2Proof.Machine.execTimWrap s
  | .timRebase => Sys2Proof.Machine.execTimRebase s
  | .timRate w v => Sys2Proof.Machine.execTimRate w v s
  | .timStep w v => Sys2Proof.Machine.execTimStep w v s
  | .timOffsetHi w v => Sys2Proof.Machine.execTimOffsetHi w v s
  | .timNowLo w bad => Sys2Proof.Machine.execTimNowLo w bad s
  | .timCmpFire n => Sys2Proof.Machine.execTimCmpFire n s
  | .ppsPulseEnd => Sys2Proof.Machine.execPpsPulseEnd s
  | .ppsIn rising sub => Sys2Proof.Machine.execPpsIn rising sub s
  | .timPpsinLo w bad => Sys2Proof.Machine.execTimPpsinLo w bad s
  | .timTtxCtl w v => Sys2Proof.Machine.execTimTtxCtl w v s
  | .timTrxPop w => Sys2Proof.Machine.execTimTrxPop w s
  | .timeReq l => Sys2Proof.Machine.execTimeReq l s
  | .timeMessageReceive l => Sys2Proof.Machine.execTimeMessageReceive l s
  | .timeResp l => Sys2Proof.Machine.execTimeResp l s
  | .timeFollow l => Sys2Proof.Machine.execTimeFollow l s
  | .bar4Read f tag off n => Sys2Proof.Machine.execBar4Read f tag off n s
  | .bar4Write f off bs => Sys2Proof.Machine.execBar4Write f off bs s
  | .bar4Response f d => Sys2Proof.Machine.execBar4Response f d s
  | .registerWrite w sz a v => Sys2Proof.Machine.execRegisterWrite w sz a v s
  | .qpEnable w q => Sys2Proof.Machine.execQpEnable w q s
  | .qpDisable w q => Sys2Proof.Machine.execQpDisable w q s
  | .sqTailDb f q v => Sys2Proof.Machine.execSqTailDb f q v s
  | .cqHeadDb f q v => Sys2Proof.Machine.execCqHeadDb f q v s
  | .sqFetch fail => Sys2Proof.Machine.execSqFetch fail s
  | .nopCommand f q => Sys2Proof.Machine.execNopCommand f q s
  | .loadPaletteValidate f q => Sys2Proof.Machine.execLoadPaletteValidate f q s
  | .validationDone idx => Sys2Proof.Machine.execValidationDone idx s
  | .loadPaletteRelease f q => Sys2Proof.Machine.execLoadPaletteRelease f q s
  | .slotSubmit f q => Sys2Proof.Machine.execSlotSubmit f q s
  | .dmaCommand f q => Sys2Proof.Machine.execDmaCommand f q s
  | .result f q => Sys2Proof.Machine.execResult f q s
  | .resultCopyDone => Sys2Proof.Machine.execResultCopyDone s
  | .mgmtAnswer idx acode answer => Sys2Proof.Machine.execMgmtAnswer idx acode answer s
  | .mgmtTimeout idx => Sys2Proof.Machine.execMgmtTimeout idx s
  | .getPower => Sys2Proof.Machine.execGetPower s
  | .setState no => Sys2Proof.Machine.execSetState no s
  | .setOp no => Sys2Proof.Machine.execSetOp no s
  | .setLevel no => Sys2Proof.Machine.execSetLevel no s
  | .getThermal => Sys2Proof.Machine.execGetThermal s
  | .getUnit => Sys2Proof.Machine.execGetUnit s
  | .retire no => Sys2Proof.Machine.execRetire no s
  | .restore no => Sys2Proof.Machine.execRestore no s
  | .setSpare no => Sys2Proof.Machine.execSetSpare no s
  | .sepRead => Sys2Proof.Machine.execSepRead s
  | .sepMark => Sys2Proof.Machine.execSepMark s
  | .sepDump no => Sys2Proof.Machine.execSepDump no s
  | .getVersion => Sys2Proof.Machine.execGetVersion s
  | .getPon => Sys2Proof.Machine.execGetPon s
  | .resetUnit => Sys2Proof.Machine.execResetUnit s
  | .warmReset => Sys2Proof.Machine.execWarmReset s
  | .coalesceTimer f q => Sys2Proof.Machine.execCoalesceTimer f q s
  | .msixUnmask w v => Sys2Proof.Machine.execMsixUnmask w v s
  | .functionLevelReset f vfClear => Sys2Proof.Machine.execFunctionLevelReset f vfClear s
  | .flrComplete f => Sys2Proof.Machine.execFlrComplete f s
  | .pcieLinkDown => Sys2Proof.Machine.execPcieLinkDown s
  | .swatchAccept w => Sys2Proof.Machine.execSwatchAccept w s
  | .domainStateRequest w n v => Sys2Proof.Machine.execDomainStateRequest w n v s
  | .domainGated n => Sys2Proof.Machine.execDomainGated n s
  | .wakeMemoryClearDone n => Sys2Proof.Machine.execWakeMemoryClearDone n s
  | .powerSwitchFree n => Sys2Proof.Machine.execPowerSwitchFree n s
  | .compatEngineStart n => Sys2Proof.Machine.execCompatEngineStart n s
  | .sectorPllLock n => Sys2Proof.Machine.execSectorPllLock n s
  | .pllLockTimeout n => Sys2Proof.Machine.execPllLockTimeout n s
  | .clockSourceSwitch w n => Sys2Proof.Machine.execClockSourceSwitch w n s
  | .opRequest w n op => Sys2Proof.Machine.execOpRequest w n op s
  | .avsResponse => Sys2Proof.Machine.execAvsResponse s
  | .avsTimeout => Sys2Proof.Machine.execAvsTimeout s
  | .ldoSettled n => Sys2Proof.Machine.execLdoSettled n s
  | .sectorReset w n => Sys2Proof.Machine.execSectorReset w n s
  | .idleEntry n => Sys2Proof.Machine.execIdleEntry n s
  | .idleWake n => Sys2Proof.Machine.execIdleWake n s
  | .levelRequest w v => Sys2Proof.Machine.execLevelRequest w v s
  | .skimChannelSample c v isOpen isShort => Sys2Proof.Machine.execSkimChannelSample c v isOpen isShort s
  | .skimRoundEnd => Sys2Proof.Machine.execSkimRoundEnd s
  | .engineFault e parity site addr => Sys2Proof.Machine.execEngineFault e parity site addr s
  | .haltTimeout e => Sys2Proof.Machine.execHaltTimeout e s
  | .recoatDispatch k => Sys2Proof.Machine.execRecoatDispatch k s
  | .tileLost t kind => Sys2Proof.Machine.execTileLost t kind s
  | .readyHandshake u gen shadow again => Sys2Proof.Machine.execReadyHandshake u gen shadow again s
  | .ecpHalt w e => Sys2Proof.Machine.execEcpHalt w e s
  | .ecpReset w e => Sys2Proof.Machine.execEcpReset w e s
  | .ecpDoorbell w e => Sys2Proof.Machine.execEcpDoorbell w e s
  | .rasInj w v => Sys2Proof.Machine.execRasInj w v s
  | .rasQUnit w v => Sys2Proof.Machine.execRasQUnit w v s
  | .sepiaWrite => Sys2Proof.Machine.execSepiaWrite s
  | .sepCtlFreeze w => Sys2Proof.Machine.execSepCtlFreeze w s
  | .sepCtlUnfreeze w => Sys2Proof.Machine.execSepCtlUnfreeze w s
  | .sepCtlDump w => Sys2Proof.Machine.execSepCtlDump w s
  | .sepiaDumpDone ok => Sys2Proof.Machine.execSepiaDumpDone ok s
  | .sepMarkRegister w v => Sys2Proof.Machine.execSepMarkRegister w v s
  | .sepRdSel w v => Sys2Proof.Machine.execSepRdSel w v s
  | .spiRead a bad => Sys2Proof.Machine.execSpiRead a bad s
  | .spiReadInc a bads => Sys2Proof.Machine.execSpiReadInc a bads s
  | .spiWrite a v cut => Sys2Proof.Machine.execSpiWrite a v cut s
  | .spiStatus => Sys2Proof.Machine.execSpiStatus s
  | .spiReservedCommand => Sys2Proof.Machine.execSpiReservedCommand s
  | .i3cRegisterWrite a v => Sys2Proof.Machine.execI3cRegisterWrite a v s
  | .i3cRegisterRead a bad => Sys2Proof.Machine.execI3cRegisterRead a bad s
  | .entdaa a => Sys2Proof.Machine.execEntdaa a s
  | .setdasa a => Sys2Proof.Machine.execSetdasa a s
  | .rstdaa => Sys2Proof.Machine.execRstdaa s
  | .enec ev => Sys2Proof.Machine.execEnec ev s
  | .disec ev => Sys2Proof.Machine.execDisec ev s
  | .getpid => Sys2Proof.Machine.execGetpid s
  | .getbcr => Sys2Proof.Machine.execGetbcr s
  | .getdcr => Sys2Proof.Machine.execGetdcr s
  | .getstatus => Sys2Proof.Machine.execGetstatus s
  | .getmwl => Sys2Proof.Machine.execGetmwl s
  | .getmrl => Sys2Proof.Machine.execGetmrl s
  | .powerOnReset sel => Sys2Proof.Machine.execPowerOnReset sel s
  | .resetN sel => Sys2Proof.Machine.execResetN sel s
  | .perstN => Sys2Proof.Machine.execPerstN s
  | .perstRelease => Sys2Proof.Machine.execPerstRelease s
  | .mgtRstReq w => Sys2Proof.Machine.execMgtRstReq w s
  | .bootImageLoaded ok => Sys2Proof.Machine.execBootImageLoaded ok s
  | .mgtHbootCtl w => Sys2Proof.Machine.execMgtHbootCtl w s
  | .hbootFetchDone ok => Sys2Proof.Machine.execHbootFetchDone ok s
  | .bypass => Sys2Proof.Machine.execBypass s
  | .idcode => Sys2Proof.Machine.execIdcode s
  | .samplePreload => Sys2Proof.Machine.execSamplePreload s
  | .extest => Sys2Proof.Machine.execExtest s
  | .highz => Sys2Proof.Machine.execHighz s
  | .clamp => Sys2Proof.Machine.execClamp s
  | .extestPulse => Sys2Proof.Machine.execExtestPulse s
  | .extestTrain => Sys2Proof.Machine.execExtestTrain s
  | .pcieLinkUp => Sys2Proof.Machine.execPcieLinkUp s
  | .pcieCompletionTimeout c => Sys2Proof.Machine.execPcieCompletionTimeout c s
  | .egressReadResponse lost => Sys2Proof.Machine.execEgressReadResponse lost s
  | .prbsCheckerLock l => Sys2Proof.Machine.execPrbsCheckerLock l s
  | .prbsCheckerLockLost l errs => Sys2Proof.Machine.execPrbsCheckerLockLost l errs s
  | .farEndBufferSlip l => Sys2Proof.Machine.execFarEndBufferSlip l s
  | .lnPrbs w l v => Sys2Proof.Machine.execLnPrbs w l v s
  | .residencyTick => Sys2Proof.Machine.execResidencyTick s
  | .hbmStackLoss idx => Sys2Proof.Machine.execHbmStackLoss idx s
  | .hbmStackTrained idx => Sys2Proof.Machine.execHbmStackTrained idx s
  | .managementCoreFault idx => Sys2Proof.Machine.execManagementCoreFault idx s
  | .i3cPrivateWriteError => Sys2Proof.Machine.execI3cPrivateWriteError s

end Sys2Proof.Machine
end

