-- ==== Sys2Proof/Machine/Tick.lean ====
section
/-! DEFINITION. What passes while no command waits: one cycle of the time base (R384), the start of queue commands that were waiting for
earlier ones (R424), and a warm reset that has fallen due (R538). -/

namespace Sys2Proof.Machine

/-- One Tc without a command. (DESIGN CHOICE, unsafe: log 1) -/
def idle (s : State) : State := settle (warmDue (deliverLate (autoStarts (tick s))))

end Sys2Proof.Machine
end

