-- ==== Sys2Proof/Safety.lean ====
section
/-! DEFINITION. What the statements call a safe state and a frame: the properties that every step is held to, and what a command
may change beside its own effect. -/

namespace Sys2Proof.Machine

/-- ALERT_N is low exactly while an enabled alert source is set (R527). -/
def AlertRight (s : State) : Prop :=
  s.mgt.alertLow = decide (alertStat s &&& (rd s Reg.MGT_ALERT_EN).toNat ≠ 0)

/-- The summary of the blocks' events, as the host was last told, is the present one (R436). -/
def SummaryRight (s : State) : Prop := s.hif.devEvt = devEvtSum s

/-- Is a key that of a pending bit of an MSI-X vector of the physical function (R435)? -/
def isPba (a : Nat) : Bool := (upto 64).any fun k => decide (a = fnKey 0 (Reg.MSIX_PBA k))

/-- Is an output one of those that follow from event bits: a message of the physical function, ALERT_N, an in-band interrupt? -/
def Out.ofEvents : Out → Bool
  | .msix f _ _ _ => decide (f = 0)
  | .alert _ => true
  | .ibi _ => true
  | _ => false

/-- State `t` is state `s` once the event summary and ALERT_N follow its event bits (R435, R436, R525, R527): beside these two, only
pending bits of the physical function's vectors and outputs of the three kinds may differ. -/
def Settled (s t : State) : Prop :=
  t = { s with
    regs := t.regs, out := t.out, hif := { s.hif with devEvt := t.hif.devEvt }
    mgt := { s.mgt with alertLow := t.mgt.alertLow } } ∧
  (∀ a, isPba a = false → rd t a = rd s a) ∧
  (∃ new : List Out, t.out = new ++ s.out ∧ new.all Out.ofEvents = true) ∧
  AlertRight t ∧ SummaryRight t

/-- A command leads from `s` to a next state in which everything but what follows from event bits is as in `u`. -/
def Leads (c : Instr) (s u : State) : Prop := ∃ t, exec c s = .next t ∧ Settled u t

/-- A command completes with a next state that has a property. -/
def Ends (c : Instr) (s : State) (p : State → Prop) : Prop := ∃ u, Leads c s u ∧ p u

/-- The registers of two states agree outside a list of keys. -/
def SameRegsBut (ks : List Nat) (s t : State) : Prop := ∀ a, a ∉ ks → rd t a = rd s a

/-- Two states agree but for their registers, and their registers agree outside a list of keys. -/
def OnlyRegs (ks : List Nat) (s t : State) : Prop := t = { s with regs := t.regs } ∧ SameRegsBut ks s t

end Sys2Proof.Machine
end

