-- ==== Sys2Proof/Safety/Access.lean ====
section
/-! DEFINITION. What the statements say of the states in which a command comes: a register access that reaches its block at once, a
palette that nobody releases, a task without predecessors that were missed. -/

namespace Sys2Proof.Machine

/-- A write of a requester to a register reaches its block at once: the requester can reach the register agent and nothing of it is on
its way, it sees the register and may write it, EXT_LOCK does not refuse it, the block's domain is ACT, and no
write waits for another domain (R8, R12, R418, R420, R517, R526). -/
def direct (s : State) (w : Requester) (a : Nat) : Bool :=
  reaches s w && decide (arrives s w = s) && decide (viewOf s w a = .rw) && !extLocked s w a && blockLive s (blockDomain a) &&
    decide (domSt s (blockDomain a) ≠ 1) && s.mgt.late.isEmpty && decide (canonOff a = a) &&
    ((findReg a).map fun d => mayWrite w a d.1.who) == some true

/-- The state of a write's requester once the write is taken: an external port notes that it was neither refused nor dropped (R526). -/
abbrev taken (s : State) (w : Requester) : State := extStat s w false false

/-- No palette is being released (R67). -/
def noRelease (s : State) : Bool := s.hif.valid.all fun v => !v.releasing

/-- No task of a palette was missed, and none is a JOIN: nothing follows for the others when one moves on (R71, R85). -/
def calmPal (s : State) (pk : Nat) : Bool :=
  s.tln.tasks.all fun e => decide (e.1 / 8192 = pk) != true || (decide (e.2.phase ≠ .missed) && decide (e.2.phase ≠ .join))

/-- Does the machine hold no other task of a palette? -/
def aloneIn (s : State) (k : Nat) : Bool := s.tln.tasks.all fun e => decide (e.1 / 8192 ≠ k / 8192) || decide (e.1 = k)

/-- An engine runs a task from its program's ENTRY (R74): G1 to G6, the addresses of its references in A0 to A7, the windows, the predicate
P0; everything else of its registers is open. -/
def Entered (x : EngS) (p : Pal) (k : Nat) (t : Task) (deadline : Nat) (addrs wins : List Nat) : Prop :=
  x.st = 3 ∧ x.task = some k ∧ x.run = true ∧ x.func = p.hdr.func ∧ x.size = t.prog.2.1 ∧ x.pc = t.prog.2.2.1 ∧ x.ended = false ∧
  x.early = true ∧ x.fl = [] ∧ x.halt = false ∧
  x.scal.getD 0 0 = 0 ∧ x.scal.getD 1 0 = BitVec.ofNat 32 (k % 8192 + p.hdr.func * 2 ^ 16) ∧ x.scal.getD 2 0 = BitVec.ofNat 32 t.g2 ∧
  x.scal.getD 3 0 = BitVec.ofNat 32 p.slot ∧ x.scal.getD 4 0 = BitVec.ofNat 32 t.tr.arg ∧
  x.scal.getD 5 0 = BitVec.ofNat 32 (t.tr.arg / 2 ^ 32) ∧ x.scal.getD 6 0 = BitVec.ofNat 32 deadline ∧
  (∀ j, j < 8 → x.scal.getD (32 + j) 0 = BitVec.ofNat 32 (addrs.getD j 0)) ∧
  (∀ j, j < wins.length → j < 4 → x.sr.getD (Sr.WIN j) 0 = BitVec.ofNat 32 (wins.getD j 0 % 2 ^ 24 + 2 ^ 24)) ∧
  x.pred.getD 0 0 = BitVec.allOnes 512

/-- An engine is READY with no task. -/
def Freed (x : EngS) : Prop := x.st = 2 ∧ x.task = none ∧ x.run = false ∧ x.halt = false ∧ x.fault = none

/-- A task is missed with a reason; the miss is counted at its timeline and at the tile it was with (R85 to R88). -/
def MissedHere (s u : State) (p : Pal) (k reason : Nat) : Prop :=
  (task u k).phase = .missed ∧ (task u k).reason = reason ∧ rd u (Reg.TL_MISS_CNT p.tl) = rd s (Reg.TL_MISS_CNT p.tl) + 1 ∧
  isSet u (Reg.TL_EVT p.tl) F.TL_EVT_MISS = true ∧
  rd u (Reg.TSU_MISS_CNT (task s k).tile) = rd s (Reg.TSU_MISS_CNT (task s k).tile) + 1

/-- The tile that a record goes to (R68), if it goes to one now. -/
def placedAt (s : State) (p : Pal) (r : TaskRec) : Option Nat :=
  match chooseTile s p r with
  | .tile t => some t
  | _ => none

/-- Is every tile of a record's mask that is up full (R69)? -/
def placedFull (s : State) (p : Pal) (r : TaskRec) : Bool :=
  match chooseTile s p r with
  | .full => true
  | _ => false

/-- Is no tile of a record's mask up, so that the task is parked (R68)? -/
def placedParked (s : State) (p : Pal) (r : TaskRec) : Bool :=
  match chooseTile s p r with
  | .parked => true
  | _ => false

/-- The state once a task has gone to a tile's queue: beside the task, TLN_DELIV_CNT counts, the sector leaves IDLE and its copy of the
count is read. -/
def Delivered (s u : State) (k t : Nat) (r : TaskRec) : Prop :=
  task u k = { task s k with tr := r, phase := .queued, tile := t, enq := (copyNow (wakeIdle s (t / 8)) (t / 8)).1 } ∧
  (∀ j, j ≠ k → task u j = task s j) ∧ u.tln.handed = s.tln.handed.filter (fun h => decide (h ≠ k)) ∧
  u = { inc (wakeIdle s (t / 8)) Reg.TLN_DELIV_CNT with
    fresh := s.fresh + 1, tim := { s.tim with copies := u.tim.copies }
    tln := { s.tln with tasks := u.tln.tasks, handed := u.tln.handed, pals := u.tln.pals } }

/-- Does no DMA-class task run, so that none waits for a channel (R342, R344)? -/
def noDmaTask (s : State) : Bool :=
  s.tln.tasks.all fun e => decide (e.2.phase ≠ .running) || e.2.eng.isSome || decide (e.2.pairs = [])

/-- Does nothing but the registers wait for a channel: no task's pair, no DMA command, no task that waits for a channel? -/
def freeChan (s : State) (c : Nat) : Bool :=
  noDmaTask s && (pairOn s c).isNone && s.hif.cmds.all fun x =>
    match x.cmd with
    | .dma k _ _ _ _ _ _ => decide (k ≠ c)
    | _ => true

/-- The fault an engine reports: the one it has found, or a parity error at one of its sites (R488, R491). -/
def faultOf (s : State) (e : Nat) (parity : Bool) (site addr : Nat) : Option (Nat × Nat × Nat) :=
  match (eng s e).fault with
  | some f => some f
  | none => if parity && decide (1 ≤ site ∧ site ≤ 12 ∧ (eng s e).st ≠ 0) then some (1, site, addr) else none

/-- Does nothing wait for what a unit's return may free: no release, no DMA-class task, no queue command, no request of the mailbox, no
write for a sleeping domain? -/
def nothingWaits (s : State) : Bool :=
  noRelease s && noDmaTask s && s.hif.cmds.isEmpty && s.hif.mail.isEmpty && s.mgt.late.isEmpty

/-- Are the jobs a machine holds those of its four strips? -/
def jobsIn (s : State) : Bool := s.job.list.all fun j => decide (j.q < 4)

/-- A read of a requester reaches a register whose block is there: the requester reaches the register agent and sees the register,
and its block's domain is ACT (R8, R420, R519). -/
def heard (s : State) (w : Requester) (a : Nat) : Bool :=
  reaches s w && (match w with | .fn f => decide (vfSeen s f = s) | _ => true) && decide (viewOf s w a ≠ .hidden) &&
    decide (canonOff a = a) && blockLive s (blockDomain a) && decide (domSt s (blockDomain a) ≠ 1)

end Sys2Proof.Machine
end

