-- ==== Sys2Proof/Safety/Blocks.lean ====
section
/-! DEFINITION. What the statements say of jobs, carrier extraction units, the fabric and the blocks beyond it. -/

namespace Sys2Proof.Machine

/-! ## Jobs -/

/-- The descriptor that a CARRY posts: the given one with MODE = CARRY (R253). -/
def carryDesc (d : BitVec 512) : BitVec 512 := (d &&& ~~~0xC0#512) ||| 0x40#512

/-- The commands that post a descriptor, with the kind of the port and the descriptor that reaches it (R232, R289). -/
def postCmds (q : Fin 4) (p : Poster) (d : BitVec 512) : List (Instr × JobKind × BitVec 512) :=
  [ (.ldpcDecode q p d, .ldpcDec, d), (.ldpcEncode q p d, .ldpcEnc, d), (.polarDecode q p d, .polar, d), (.turboDecode q p d, .turbo, d),
    (.fftJob q p d, .fft, d), (.carry q false p d, .ldpcDec, carryDesc d), (.carry q true p d, .turbo, carryDesc d) ]

/-- Does the fabric take a poster's write at a job port? -/
def portCode (s : State) (q : Nat) (k : JobKind) (p : Poster) : Nat := (precheck s (posterIssuer s p) (portAddr q k) 64 true).1

/-- Jobs other than those of a number are as they were. -/
def OtherJobs (s u : State) (id : Nat) : Prop := ∀ j ∈ s.job.list, j.id ≠ id → j ∈ u.job.list

/-- A job has ended with a status (R237): its completion record awaits its write, or the job is gone when it names none. -/
def JobEnded (s u : State) (j : JobS) (status : Nat) : Prop :=
  (j.addr 8 = 0 → ∀ x ∈ u.job.list, x.id ≠ j.id) ∧
  (j.addr 8 ≠ 0 → ∃ x ∈ u.job.list, x.id = j.id ∧ x.desc = j.desc ∧ x.phase = .record ∧ x.status = status ∧ x.unit = none ∧
    x.reads = [] ∧ x.writes.map (·.1) = [j.addr 8]) ∧
  OtherJobs s u j.id

/-- The engine of a job runs no task, so that the job's end stops none (R258). -/
def noTaskOf (s : State) (j : JobS) : Bool :=
  match j.eng with
  | some e => (eng s e).task.isNone
  | none => true

/-! ## Carrier extraction units -/

/-- The configuration that a CXU samples when it is enabled (R284). -/
def cxuSampled (s : State) (n : Nat) : CxuS :=
  { cxu s n with
    ctl := rd s (Reg.CXU_CTL n) ||| 1, src := fld s (Reg.CXU_SRC n) F.CXU_SRC_STREAM
    iper := fld s (Reg.CXU_IPERIOD n) F.CXU_IPERIOD_PERIOD, dec := rd s (Reg.CXU_DEC n)
    out := rd64 s (Reg.CXU_OUT_LO n) % 2 ^ 48, hdr := rd64 s (Reg.CXU_HDR_LO n) % 2 ^ 48, outCfg := rd s (Reg.CXU_OUT_CFG n) }

/-- Is it one that the CXU may run with: a stream of its strip, a period in range, both banks within the budget, the start bank
good (R264, R266, R271, R275)? -/
def cxuGood (s : State) (n : Nat) (x : CxuS) : Bool :=
  (x.isMem || decide (x.src < 3072 ∧ x.src / 256 / 3 = n / 8)) && decide (768 ≤ x.iper ∧ x.iper ≤ 196608) &&
    inBudget (max (bankN s n 0) (bankN s n 1)) x.iper x.hb x.d && bankOk s n (fld s (Reg.CXU_BANK n) F.CXU_BANK_START) x

/-- Address of a CXU's input window (R265). -/
def cxuWindow (n : Nat) : Nat := 0x200040000000 + n / 8 * 0x100000000 + n % 8 * 0x2000000

/-- The samples of a 64-byte write to an input window (R265). -/
def memSamples (d : BitVec 512) : List CxIn :=
  (upto 16).map fun i =>
    { x := { re := sgn 16 (bits d.toNat (32 * i) 16), im := sgn 16 (bits d.toNat (32 * i + 16) 16), gap := false }
      stamp := 0, back := 0, first := false }

/-! ## The fabric -/

/-- Data byte `i` of the 256-byte block that a packet carries, and its byte enable (R299). -/
def packetByte (data : BitVec 2048) (i : Nat) : Byte := BitVec.ofNat 8 (data.toNat / 2 ^ (8 * (i % 256)))

/-- No probe is enabled (R322). -/
def noProbe (s : State) : Bool := (upto 32).all fun p => !isSet s (Reg.PRB_CTL p) F.PRB_CTL_EN

/-- Is a unit's fence one that its owner requests by itself, not as part of a domain's transition (R313)? -/
def ownFence (u : Nat) : Bool := unitExists u && decide (u / 4096 ≠ 13)

/-! ## The Ochre link -/

/-- Beside some registers only one lane has changed. -/
def LaneOnly (regs : List Nat) (l : Nat) (s u : State) : Prop :=
  SameRegsBut regs s u ∧ (∀ k, k ≠ l → lane u k = lane s k) ∧ (∀ b, bundle u b = bundle s b) ∧ u.mem = s.mem

/-- An attempt of a lane has failed with a code (R363): it counts, and the lane waits in BACKOFF, or in ABSENT after its 16th attempt or one
made from there. -/
def AttemptFailed (s u : State) (l code : Nat) : Prop :=
  let n := min 16 (fld s (lnReg Reg.LN_STAT l) F.LN_STAT_ATTEMPTS + 1)
  fld u (lnReg Reg.LN_STAT l) F.LN_STAT_FAIL = code ∧ fld u (lnReg Reg.LN_STAT l) F.LN_STAT_ATTEMPTS = n ∧
  rd u (lnReg Reg.LN_TRAIN_FAIL_CNT l) = rd s (lnReg Reg.LN_TRAIN_FAIL_CNT l) + 1 ∧
  isSet u (lnReg Reg.LN_EVT l) F.LN_EVT_TRAIN_FAIL = true ∧
  lnState u l = (if (lane s l).fromAbsent = true ∨ n = 16 then 8 else 7)

/-- The 2,056 bytes of a frame before its CRC (R354), as a lane sends it: TYPE, MISSING, TIMESTAMP, the number of parts and their bytes. -/
def frameBytes (x : LaneS) (l type : Nat) (missing ts : Bool) (n : Nat) (payload : List Byte) : List Byte :=
  let h := type + missing.toNat * 2 ^ 4 + ts.toNat * 2 ^ 5 + l % 8 * 2 ^ 8 + n * 2 ^ 12 + x.txSeq * 2 ^ 16
  leBytes 8 (h + (if 0 < x.injHdr then hcrc h ^^^ 0xFF else hcrc h) * 2 ^ 56) ++ payload ++ List.replicate (2048 - payload.length) 0

/-- The line bits of a lane's next frame (R354 to R356, R381). -/
def frameLine (x : LaneS) (l type : Nat) (missing ts : Bool) (n : Nat) (payload : List Byte) : List Bool :=
  let bytes := frameBytes x l type missing ts n payload
  let crc := if x.injCrc then crcOf 6 bytes ^^^ 0xFFFFFFFF else crcOf 6 bytes
  lineBits x.lastBit x.injBit (stuff 0 false (scramble (scrSeed x.txSeq) (bytesToBits (bytes ++ leBytes 4 crc))))

/-- A lane has sent a frame: what leaves, the next sequence number, the counter. -/
def FrameSent (s u : State) (l type : Nat) (missing ts : Bool) (n : Nat) (payload : List Byte) : Prop :=
  let x := lane s l
  let line := frameLine x l type missing ts n payload
  u.out = .frame l x.txSeq line :: s.out ∧ (lane u l).txSeq = (x.txSeq + 1) % 2 ^ 24 ∧ (lane u l).lastBit = line.getLastD false ∧
  (lane u l).tsreq = false ∧ (lane u l).injBit = false ∧ (lane u l).injCrc = false ∧ (lane u l).injHdr = x.injHdr - 1 ∧
  rd u (lnReg Reg.LN_TXFRAME_CNT l) = rd s (lnReg Reg.LN_TXFRAME_CNT l) + 1 ∧ u.mem = s.mem ∧ (∀ k, k ≠ l → lane u k = lane s k)

/-- The message at the head of a lane's received messages has a TYPE and is no repetition (R375). -/
def headMsg (s : State) (l type : Nat) (m : RxItem) (ms : List RxItem) : Prop :=
  (lane s l).rxMsgs = m :: ms ∧ leAt m.bytes 0 1 = type ∧ (type, leAt m.bytes 1 1) ∉ (bundle s (l / 8)).seen

/-- The message at the head of a lane's received messages is taken, and its MID is noted (R375). -/
def tookMsg (s : State) (l : Nat) (m : RxItem) (ms : List RxItem) : State :=
  updBundle (updLane s l fun x => { x with rxMsgs := ms }) (l / 8) fun x =>
    { x with seen := (leAt m.bytes 0 1, leAt m.bytes 1 1) :: x.seen.filter fun e => e.1 ≠ leAt m.bytes 0 1 }

/-- Control messages as a bundle queues them from a MID on: TYPE, LANE and bytes 4 to 7 of each (R375). -/
def ctrlList (mid : Nat) : List (Nat × Nat × Nat) → List (Bool × List Byte)
  | [] => []
  | m :: ms => (true, ctrlMsg m.1 mid m.2.1 m.2.2) :: ctrlList ((mid + 1) % 256) ms

/-- A bundle has queued control messages, each on every lane that carries them. -/
def CtrlSent (s u : State) (b : Nat) (ms : List (Nat × Nat × Nat)) : Prop :=
  ∀ l, (lane u l).msgs = (lane s l).msgs ++ (if l ∈ ctrlLanes u b then ctrlList (bundle s b).mid ms else [])

/-- The bundle's own message, which awaits its acknowledgement since now. -/
def OwnSent (s u : State) (b mid type k w : Nat) : Prop :=
  (bundle u b).own = some (ctrlMsg type mid k w, rawTotal s, rawTotal s)

/-- The streams of lane `k` of a bundle have moved to the spare, with what waited there (R377). -/
def OwnMoved (s u : State) (b k : Nat) : Prop :=
  swState u b = 1 ∧ swLane u b = k ∧ rd u (Reg.LNK_SW_CNT b) = rd s (Reg.LNK_SW_CNT b) + 1 ∧
  isSet u (Reg.LNK_EVT b) F.LNK_EVT_SWITCH = true ∧
  (lane u (b * 8 + 7)).egress = (lane s (b * 8 + 7)).egress ++ (lane s (b * 8 + k)).egress ∧ (lane u (b * 8 + k)).egress = []

/-- SEQ_AT of a bundle's message: the next frame of a lane, and REQ (R375, R377). -/
def seqAt (s : State) (l : Nat) (req : Bool) : Nat := (lane s l).txSeq % 2 ^ 24 + req.toNat * 2 ^ 24

/-! ## Time -/

/-- Tc since RAW_BASE when the count reads 0 (R391). -/
def wrapD (s : State) : Nat := (2 ^ 48 - timBase s % 2 ^ 48) % 2 ^ 48

/-- The target of a compare unit after one period (R398). -/
def nextTgt (s : State) (n : Nat) : Nat :=
  wrapN 48 ((rd64 s (Reg.TIM_CMP_TGT_LO n) : Int) + (rd s (Reg.TIM_CMP_PERIOD n)).toNat + sgn 16 (fld s (Reg.TIM_CMP_ADJ n) F.TIM_CMP_ADJ_ADJ))

/-- An edge on PPS_IN that is taken: enabled, of the right direction, past the mask of the last one (R401). -/
def ppsTaken (s : State) (rising : Bool) : Bool :=
  isSet s Reg.TIM_CTL F.TIM_CTL_PPSIN_EN && (rising != isSet s Reg.TIM_CTL F.TIM_CTL_PPSIN_FALL) &&
    match s.tim.lastPps with
    | some t => decide ((rd s Reg.TIM_PPSIN_MASK).toNat * 2 ^ 11 < rawTotal s - t)
    | none => true

/-- A message has joined the TIME receive queue, or found it full (R407). -/
def TrxTaken (s u : State) (e : TrxEntry) : Prop :=
  rd u Reg.TIM_TRX_CNT = rd s Reg.TIM_TRX_CNT + 1 ∧ u.tim.resp = s.tim.resp ∧
  (s.tim.trx.length < 64 → u.tim.trx = s.tim.trx ++ [e] ∧ SameRegsBut [Reg.TIM_TRX_CNT] s u) ∧
  (64 ≤ s.tim.trx.length → u.tim.trx = s.tim.trx ∧ rd u Reg.TIM_TRX_OVF_CNT = rd s Reg.TIM_TRX_OVF_CNT + 1 ∧
    isSet u Reg.TIM_EVT F.TIM_EVT_TRX_OVF = true)

/-- FLAGS and STAMP of the responder's answers: disciplined once OFFSET has been written, raw before (R403, R408). -/
def answerStamp (s : State) (stamp : Nat) : List Byte :=
  let set := isSet s Reg.TIM_STATUS F.TIM_STATUS_SET
  leBytes 1 (if set then 1 else 2) ++ leBytes 1 0 ++ leBytes 7 ((if set then stampNow64 s stamp else stamp) % 2 ^ 54) ++ leBytes 1 0

/-- The responder has queued a message of a TYPE on a lane for a request, with a stamp. -/
def Answered (s u : State) (l type : Nat) (r : Responder) (stamp : Nat) : Prop :=
  (lane u l).msgs = (lane s l).msgs ++ [(false, leBytes 1 type ++ leBytes 1 (bundle s r.bundle).mid ++ leBytes 2 r.lane ++
    leBytes 2 r.seqid ++ answerStamp s stamp)] ∧
  (bundle u r.bundle).mid = ((bundle s r.bundle).mid + 1) % 256 ∧ SameRegsBut [] s u ∧ u.mem = s.mem ∧ (∀ x, x ≠ l → lane u x = lane s x)

/-! ## Queue pairs -/

/-- A command that has not started and whose body is good, the only one of its queue pair. -/
def OnlyCmd (s : State) (f q : Nat) (c : InFlight) : Prop :=
  c ∈ s.hif.cmds ∧ c.f = f ∧ c.q = q ∧ c.started = false ∧ c.badParam = false ∧
  ∀ x ∈ s.hif.cmds, x ≠ c → (x.f ≠ f ∨ x.q ≠ q) ∧ x.seq ≠ c.seq

/-- Has every command in flight started, so that none starts when another ends? -/
def allStarted (s : State) : Bool := s.hif.cmds.all fun c => c.started

/-- Can a completion queue take an entry now (R427)? -/
def cqReady (s : State) (f q : Nat) : Bool :=
  !resetting s f && s.hif.linkTrained && !waits s f q && !cqFull s f q &&
    decide (1 ≤ fld s (qp f q Reg.QP_SIZE) F.QP_SIZE_CQ_LOG2 ∧ fld s (qp f q Reg.QP_SIZE) F.QP_SIZE_CQ_LOG2 ≤ 12)

/-- A completion entry has been written at the tail of a queue (R426): six words, TIME, SQ_HEAD, QID and PHASE. -/
def CplWritten (s u : State) (f q : Nat) (ws : List Nat) (head : Nat) : Prop :=
  let tail := fld s (qp f q Reg.QP_CQ_TAIL) F.QP_CQ_TAIL_INDEX
  let phase := fld s (qp f q Reg.QP_CQ_TAIL) F.QP_CQ_TAIL_PHASE
  (∃ time, (accepted s f 1 = false → time = 0) ∧
    u.hostMem = memPutN s.hostMem (rd64 s (qp f q Reg.QP_CQ_BASE_LO) + tail * 32)
      (ws.flatMap (fun x => leBytes 4 x) ++ leBytes 4 time ++ leBytes 4 (head + q * 2 ^ 16 + phase * 2 ^ 31))) ∧
  fld u (qp f q Reg.QP_CQ_TAIL) F.QP_CQ_TAIL_INDEX = (tail + 1) % cqSize s f q ∧
  fld u (qp f q Reg.QP_CQ_TAIL) F.QP_CQ_TAIL_PHASE = (if (tail + 1) % cqSize s f q = 0 then 1 - phase else phase)

/-- A command has completed with a status and the words from 0x04 on (R426 to R428): it is no longer in flight, and its completion is written,
or waits for room. -/
def Completed (s u : State) (c : InFlight) (status : Nat) (fields : List Nat) : Prop :=
  let ws := (c.cid + status * 2 ^ 24) :: (fields ++ [0, 0, 0, 0, 0]).take 5
  (∀ x ∈ u.hif.cmds, x.seq ≠ c.seq) ∧ (∀ x ∈ s.hif.cmds, x.seq ≠ c.seq → x ∈ u.hif.cmds) ∧
  rd u (fnKey c.f Reg.HIF_CMD_CNT) = rd s (fnKey c.f Reg.HIF_CMD_CNT) + 1 ∧ u.mem = s.mem ∧
  (cqReady s c.f c.q = true → CplWritten s u c.f c.q ws (fld s (qp c.f c.q Reg.QP_SQ_HEAD) F.QP_SQ_HEAD_INDEX)) ∧
  (resetting s c.f = false → s.hif.linkTrained = true → waits s c.f c.q = true ∨ cqFull s c.f c.q = true →
    u.hif.waiting = s.hif.waiting ++ [{ f := c.f, q := c.q, command := true, imm := c.imm, words := words ws }] ∧ u.hostMem = s.hostMem)

/-- A doorbell of a function takes effect at once: the link is up, no BAR4 write of the function comes before it, and no command
waits to start. -/
def rings (s : State) (f : Nat) : Bool :=
  s.hif.linkTrained && decide (vfSeen s f = s) && decide (lastWrite (s.hif.bar4.filter fun r => decide (r.f = f)) = 0) && allStarted s

/-- A doorbell has been ignored with an error (R423). -/
def DbIgnored (s u : State) (f q : Nat) : Prop :=
  fld u (qp f q Reg.QP_STAT) F.QP_STAT_ERR = 1 ∧ rd u (fnKey f Reg.HIF_DB_ERR_CNT) = rd s (fnKey f Reg.HIF_DB_ERR_CNT) + 1 ∧
  isSet u (fnKey f Reg.HIF_EVT) F.HIF_EVT_DB_ERR = true ∧ rd u (qp f q Reg.QP_SQ_TAIL) = rd s (qp f q Reg.QP_SQ_TAIL) ∧
  rd u (qp f q Reg.QP_CQ_HEAD) = rd s (qp f q Reg.QP_CQ_HEAD) ∧ u.mem = s.mem

/-- Would a command in flight not start by itself: it has started, or it is of a kind with a command of its own? -/
def holdsStill (c : InFlight) : Bool :=
  c.started || (!c.badParam && match c.cmd with
    | .bad _ => false
    | .mgmt _ _ => false
    | _ => true)

/-! ## Requests to management firmware -/

/-- Command `c` is the one with which firmware takes the requests of a code (R476, R511, R538); `no`: policy refuses. -/
def MgmtCmd (no : Bool) (c : Instr) (code : Nat) : Prop :=
  (c, code) ∈ [(.getPower, 0x0001), (.setState no, 0x0002), (.setOp no, 0x0003), (.setLevel no, 0x0004), (.getThermal, 0x0005),
    (.getUnit, 0x0101), (.retire no, 0x0102), (.restore no, 0x0103), (.setSpare no, 0x0104), (.sepRead, 0x0105), (.sepMark, 0x0106),
    (.sepDump no, 0x0107), (.getVersion, 0x0201), (.getPon, 0x0202), (.resetUnit, 0x0203), (.warmReset, 0x0204)]

/-- Request `m` is the first of a code that firmware has not taken, and `c` its command; all commands have started. -/
def Asked (s : State) (code : Nat) (m : Mail) (c : InFlight) : Prop :=
  (s.hif.mail.find? fun x => decide (x.mcode = code ∧ x.wait = none)) = some m ∧ c ∈ s.hif.cmds ∧ c.seq = m.seq ∧
  (∀ x ∈ s.hif.cmds, x ≠ c → x.seq ≠ c.seq) ∧ c.f < 32 ∧ c.q < 64 ∧ allStarted s = true ∧ s.mgt.late = []

/-- A request has been answered (R433): its command completes with the code and the answer bytes, and it has left the mailbox. -/
def AnsweredMail (s u : State) (m : Mail) (c : InFlight) (acode : Nat) (bytes : List Byte) : Prop :=
  Completed s u c (if acode = 0 then stOK else stMGMTERR) (acode :: (upto 4).map fun i => leAt bytes (4 * i) 4) ∧
  u.hif.mail = s.hif.mail.filter fun x => decide (x.seq ≠ m.seq)

/-- The answer of a request waits for a unit. -/
def Waiting (s u : State) (m : Mail) (x : Nat) : Prop :=
  u.hif.cmds = s.hif.cmds ∧ u.hif.mail = s.hif.mail.map fun y => if y.seq = m.seq then { y with wait := some x } else y

/-! ## Power -/

/-- Nothing of a sector or strip runs: no task, no engine at work, no job, no CXU, no channel. -/
def calmDomain (s : State) (n : Nat) : Bool :=
  s.tln.tasks.isEmpty && s.job.list.isEmpty &&
    (if n < 16 then (upto 64).all fun i => decide (engSt s (n * 64 + i) ≠ 3)
     else (upto 8).all (fun i => !cxuRun s ((n - 16) * 8 + i)) && (upto 32).all fun i => !chBusy s ((n - 16) * 32 + i))

/-- A domain has begun to enter RET or OFF (R457, R458). -/
def Entering (u : State) (n st reason : Nat) (drain : Bool) : Prop :=
  domSt u n = 4 ∧ (dom u n).trans = some (.enter st reason drain) ∧
  fld u (Reg.PWR_DOMAIN_STATE n) F.PWR_DOMAIN_STATE_REASON = reason

/-- Nothing waits for the end of a domain's transition: no held request, no request of the mailbox, no level change, no write for a sleeping
domain. -/
def noneWaits (s : State) (n : Nat) : Bool :=
  (dom s n).held.isNone && !isSet s (Reg.PWR_DOM_OP n) F.PWR_DOM_OP_HELD && s.hif.mail.all (fun m => m.wait.isNone) &&
    s.pwr.levelTarget.isNone && s.pwr.heldLevel.isNone && s.mgt.late.isEmpty

/-- A transition of a domain has completed, and none follows (R451). -/
def TransEnded (s u : State) (n : Nat) : Prop :=
  (dom u n).trans = none ∧ rd u Reg.PWR_XITION_CNT = rd s Reg.PWR_XITION_CNT + 1 ∧ isSet u Reg.PWR_EVT F.PWR_EVT_XITION_DONE = true ∧
  (∀ m, m ≠ n → dom u m = dom s m)

/-- Is an address one of the tile memories of a sector? -/
def inSector (n a : Nat) : Bool := decide (n < 16) && (upto 8).any fun i => decide (tileBase (n * 8 + i) ≤ a ∧ a < tileBase (n * 8 + i) + 0x300000)

/-- VDD_CORE that a point needs (R454), in mV. -/
def needVolt (s : State) (op : Nat) : Nat := opVolt op + avsHead s

/-- The highest LDO output over the sectors that are ACT or IDLE and HEAD, and at least 600 mV (R454). -/
def lowVolt (s : State) : Nat := max 600 ((((upto 16).filter (domLive s)).map fun n => opVolt (sectorOp s n)).foldl max 0 + avsHead s)

/-! ## The recorder -/

/-- An event has reached the recorder (R507, R508, R514): it is queued, or counted as dropped when the recorder is frozen, off or full; the
last four places are for FATAL events. -/
def Recorded (s u : State) (e : SepEvent) : Prop :=
  let shut := isSet s Reg.SEP_STAT F.SEP_STAT_FROZEN || !isSet s Reg.SEP_CTL F.SEP_CTL_EN
  let room := decide (s.ras.queue.length < (if e.type = 0x13 then 64 else 60))
  SameRegsBut [Reg.SEP_DROP_CNT] s u ∧
  (shut = true → u.ras = s.ras ∧ rd u Reg.SEP_DROP_CNT = rd s Reg.SEP_DROP_CNT + 1) ∧
  (shut = false → room = true →
    u.ras = { s.ras with queue := s.ras.queue ++ [e] } ∧ rd u Reg.SEP_DROP_CNT = rd s Reg.SEP_DROP_CNT) ∧
  (shut = false → room = false →
    u.ras = { s.ras with dropSince := s.ras.dropSince + 1 } ∧ rd u Reg.SEP_DROP_CNT = rd s Reg.SEP_DROP_CNT + 1)

/-- A FATAL event of a cause (R508). -/
def fatalEvent (s : State) (cause : Nat) : SepEvent := sepMake s 0x13 0 cause 0

/-- SEP_CTL holds no action (R514). -/
def ctlPlain (s : State) : Bool :=
  decide (fld s Reg.SEP_CTL F.SEP_CTL_FREEZE = 0 ∧ fld s Reg.SEP_CTL F.SEP_CTL_UNFREEZE = 0 ∧ fld s Reg.SEP_CTL F.SEP_CTL_DUMP = 0)

/-! ## External ports, resets and the boot -/

/-- A register word whose read has no effect beside its answer: it is no half of a pair, no pin is sampled, and its block answers. -/
def plainWord (s : State) (w : Requester) (a : Nat) : Bool :=
  extAddr a && heard s w a && decide (a ≠ Reg.MGT_GPIO_IN) &&
    match findReg a with
    | some (d, _) => decide (d.pair = 0)
    | none => false

/-- A register word that a write of an external port reaches at once and that has no effect of its own. -/
def plainWrite (s : State) (w : Requester) (a : Nat) : Bool :=
  isExt w && extAddr a && direct s w a && (writeAtList (hookBlock a) a).isNone &&
    match findReg a with
    | some (d, _) => decide (d.pair = 0)
    | none => false

/-- The register with an external port's write in it. -/
def mergedAt (s : State) (w : Requester) (a : Nat) (v : Word) : Word :=
  match findReg a with
  | some (d, _) => mergeReg w a d (rd (taken s w) (if d.perFn then fnKey 0 a else a)) v
  | none => 0

/-- The boot ROM has started from a sampled BOOT_SEL (R531, R532). -/
def RomStarted (u : State) (sel : Nat) : Prop :=
  fld u Reg.MGT_BOOT_STAT F.MGT_BOOT_STAT_SEL = sel ∧
  (Config.otpGood = false → stage u = 4 ∧ fld u Reg.MGT_BOOT_STAT F.MGT_BOOT_STAT_FAIL = 2) ∧
  (Config.otpGood = true → sel = 3 → stage u = 4 ∧ fld u Reg.MGT_BOOT_STAT F.MGT_BOOT_STAT_FAIL = 1) ∧
  (Config.otpGood = true → sel ≠ 3 → stage u = 0 ∧ u.mgt.bootTry = if sel = 1 then 2 else 0)

/-- A warm reset of a cause has taken place, with the level of BOOT_SEL at its release (R528, R529, R550). -/
def WarmDone (s u : State) (cause sel : Nat) : Prop :=
  rd u Reg.MGT_RST_CAUSE = BitVec.ofNat 32 cause ∧ RomStarted u sel ∧
  u = { State.reset with
    pending := s.pending, fresh := s.fresh, out := u.out, hostMem := s.hostMem, flash := s.flash, regs := u.regs, mem := u.mem
    damaged := u.damaged, ras := u.ras
    tim := { raw := s.tim.raw, counting := s.tim.counting, copies := s.tim.copies }
    pwr := { clocksStopped := isSet s Reg.THM_STAT F.THM_STAT_TRIP, resAt := s.pwr.resAt }
    mgt := { bootSel := u.mgt.bootSel, bootTry := u.mgt.bootTry, alertLow := s.mgt.alertLow, gpioIn := s.mgt.gpioIn,
             perstLow := u.mgt.perstLow, jtagIr := s.mgt.jtagIr } } ∧
  u.out = .avs 800 :: (if s.tim.ppsEnd = none then s.out else .pps false :: s.out) ∧ vcore u = 800 ∧
  isSet u Reg.PWR_AVS_STAT F.PWR_AVS_STAT_BUSY = true ∧
  (∀ a, memGet u.mem a = if a < 0x800000000 then memGet s.mem a else 0) ∧
  (∀ e ∈ warmFields, fld u e.1 e.2 = fld s e.1 e.2) ∧
  (Tab.wf (fun _ => ({} : UnitS)) s.ras.units = true → ∀ x, unit u x = { unit s x with st := if unitSt s x = 3 then 3 else 0, mute := 0 }) ∧
  ((∀ e ∈ s.ras.units, e.2.st ≠ 3) →
    (∀ a, warmKeeps a = true → a ≠ Reg.SEP_DROP_CNT → rd u a = rd s a) ∧
    (∀ a, warmKeeps a = false → a ∉ [Reg.TIM_STATUS, Reg.SEP_STAT, Reg.THM_STAT, Reg.MGT_CTL, Reg.MGT_RST_CAUSE, Reg.MGT_BOOT_STAT,
      Reg.PWR_AVS_STAT] → rd u a = regReset a)) ∧
  u.ras.entries = s.ras.entries ∧
  (isSet s Reg.SEP_STAT F.SEP_STAT_FROZEN = false → isSet s Reg.SEP_CTL F.SEP_CTL_EN = true → s.ras.queue.length < 60 →
    u.ras.queue = s.ras.queue ++ [sepMake s 0x0E 0 1 0])

end Sys2Proof.Machine
end

