-- ==== Sys2Proof/Safety/Engine.lean ====
section
/-! DEFINITION. What the instructions of an engine are to do, as tables of results: the value of a register or the engine after a
bundle, for an engine with nothing in flight. -/

namespace Sys2Proof.Machine

/-! ## Engines at rest -/

/-- An engine whose writes in flight have landed, with its cycle counter left aside. -/
def EngS.rest (x : EngS) : EngS := { x.drain with sr := (x.drain.sr.set Sr.ECYC_LO 0).set Sr.ECYC_HI 0 }

/-- May a bundle of the engine issue, with nothing in flight, nothing due at the boundary, its PC inside the image and not at the
end of an active loop? -/
def calm (s : State) (e : Nat) : Bool :=
  let x := eng s e
  x.ready && !s.pwr.clocksStopped && x.slotB.isNone && x.impAcc.isNone && x.accov.isNone && x.fl.isEmpty && x.cp0N.isNone &&
    x.cp1N.isNone && x.cp3N.isNone && decide (x.accN = x.acc) && decide (x.pc < x.size) && !x.atLoopEnd

/-- The command changes the state of engine `e` alone. -/
def OnlyEngine (s u : State) (e : Nat) : Prop :=
  u = { s with eng := u.eng, fresh := u.fresh } ∧ ∀ k, k ≠ e → eng u k = eng s k

/-- The command leads to a state in which engine `e`, once its writes in flight have landed, is `y`, and nothing else has changed. -/
def EngGoes (c : Instr) (s : State) (e : Nat) (y : EngS) : Prop :=
  ∃ u, Leads c s u ∧ OnlyEngine s u e ∧ (eng u e).rest = y.rest

/-- A slot B command and a NOP in slot A form a bundle: the first changes nothing but the bundle that is being formed, and after
the second the engine, once its writes in flight have landed, is `y`. -/
def BundleGoes (c : Instr) (s : State) (e : Fin 1024) (y : EngS) : Prop :=
  ∃ u b t, Leads c s u ∧ OnlyEngine s u e ∧ eng u e = { eng s e with slotB := some b } ∧ exec c s = .next t ∧
    EngGoes (.nop e false false) t e y

/-- The PC moves on by one bundle. -/
def EngS.on (x : EngS) : EngS := { x with pc := (x.pc + 8) % 2 ^ 15 }

/-- A scalar register as an operand: G0 is zero (R136). -/
def sreg (x : EngS) (r : Nat) : Word := if r = 0 then 0 else x.scal.getD r 0

/-- A scalar register as a destination: writes of G0 are discarded (R136). -/
def setSreg (x : EngS) (r : Nat) (v : Word) : EngS := if r = 0 then x else { x with scal := x.scal.set r v }

/-- A vector register as an operand (R118). -/
def vreg (x : EngS) (k : Nat) : Nat := (x.vec.getD (x.phys k) 0).toNat

/-- A predicate as an operand: P0 is all ones (R150). -/
def preg (x : EngS) (n : Nat) : Nat := if n = 0 then 2 ^ 512 - 1 else (x.pred.getD n 0).toNat

/-- Sets sticky bits of a special register. -/
def stick (x : EngS) (n v : Nat) : EngS := if v = 0 then x else x.setSr n (x.srN n ||| v)

/-! ## Scalar arithmetic (R185) -/

/-- The nearest value of a signed number of `w` bits, and whether it differs. -/
def clampTo (w : Nat) (v : Int) : Int × Bool :=
  (max (-2 ^ (w - 1)) (min (2 ^ (w - 1) - 1) v), decide (v < -2 ^ (w - 1) ∨ 2 ^ (w - 1) ≤ v))

/-- How far a value of `w` bits can be shifted left without leaving its range: its redundant sign bits. -/
def redundant (w : Nat) (a : Int) : Nat :=
  ((upto w).filter fun k => decide (-2 ^ (w - 1) ≤ a * 2 ^ k ∧ a * 2 ^ k < 2 ^ (w - 1))).length - 1

/-- Truth as a word. -/
def truth (b : Bool) : Word := if b then 1 else 0

/-- A saturating result of 32 bits. -/
def clampW (v : Int) : Word × Bool := (BitVec.ofInt 32 (clampTo 32 v).1, (clampTo 32 v).2)

/-- The scalar instructions of R185 in a legal form: engine, destination, and from the engine the result and whether it
saturates. -/
def scalarOf : Instr → Option (Fin 1024 × Fin 64 × (EngS → Word × Bool))
  | .addSub e sub rd ra rb =>
    some (e, rd, fun x => (if sub then sreg x ra - sreg x rb else sreg x ra + sreg x rb, false))
  | .andOrXorAndn e op rd ra rb =>
    some (e, rd, fun x =>
      (if op = 0 then sreg x ra &&& sreg x rb else if op = 1 then sreg x ra ||| sreg x rb
       else if op = 2 then sreg x ra ^^^ sreg x rb else sreg x ra &&& ~~~sreg x rb, false))
  | .sllSrlSra e op rd ra rb =>
    some (e, rd, fun x =>
      let n := (sreg x rb).toNat % 32
      (if op = 0 then sreg x ra <<< n else if op = 1 then sreg x ra >>> n
       else BitVec.ofInt 32 ((sreg x ra).toInt / 2 ^ n), false))
  | .addsSubs e sub rd ra rb =>
    if rd.val < 32 then some (e, rd, fun x =>
      clampW (if sub then (sreg x ra).toInt - (sreg x rb).toInt else (sreg x ra).toInt + (sreg x rb).toInt)) else none
  | .minMax e mx rd ra rb =>
    if rd.val < 32 then some (e, rd, fun x =>
      (BitVec.ofInt 32 (if mx then max (sreg x ra).toInt (sreg x rb).toInt else min (sreg x ra).toInt (sreg x rb).toInt), false))
    else none
  | .seqSne e ne rd ra rb =>
    if rd.val < 32 then some (e, rd, fun x =>
      (truth (if ne then decide (sreg x ra ≠ sreg x rb) else decide (sreg x ra = sreg x rb)), false)) else none
  | .sltSltu e u rd ra rb =>
    if rd.val < 32 then some (e, rd, fun x =>
      (truth (if u then decide ((sreg x ra).toNat < (sreg x rb).toNat) else decide ((sreg x ra).toInt < (sreg x rb).toInt)), false))
    else none
  | .sleSleu e u rd ra rb =>
    if rd.val < 32 then some (e, rd, fun x =>
      (truth (if u then decide ((sreg x ra).toNat ≤ (sreg x rb).toNat) else decide ((sreg x ra).toInt ≤ (sreg x rb).toInt)), false))
    else none
  | .mul e rd ra rb =>
    if rd.val < 32 then some (e, rd, fun x => (BitVec.ofInt 32 ((sreg x ra).toInt * (sreg x rb).toInt), false)) else none
  | .mulhMulhu e u rd ra rb =>
    if rd.val < 32 then some (e, rd, fun x =>
      (BitVec.ofInt 32 (if u then ((sreg x ra).toNat * (sreg x rb).toNat : Nat) / 2 ^ 32
        else (sreg x ra).toInt * (sreg x rb).toInt / 2 ^ 32), false)) else none
  | .mulq e rd ra rb =>
    if rd.val < 32 then some (e, rd, fun x =>
      let q := clampTo 16 ((((sreg x ra).setWidth 16).toInt * ((sreg x rb).setWidth 16).toInt + 2 ^ 14) / 2 ^ 15)
      (BitVec.ofInt 32 q.1, q.2)) else none
  | .norms e bad rd ra =>
    if bad = false ∧ rd.val < 32 then some (e, rd, fun x => (BitVec.ofNat 32 (redundant 32 (sreg x ra).toInt), false)) else none
  | .addiSlti e slt rd ra imm =>
    if slt = false ∨ rd.val < 32 then some (e, rd, fun x =>
      (if slt then truth (decide ((sreg x ra).toInt < imm.toInt)) else BitVec.ofInt 32 ((sreg x ra).toInt + imm.toInt), false))
    else none
  | .andiOriXoriSltiu e op rd ra imm =>
    if op ≠ 3 ∨ rd.val < 32 then some (e, rd, fun x =>
      let v : Word := BitVec.ofNat 32 imm.toNat
      (if op = 0 then sreg x ra &&& v else if op = 1 then sreg x ra ||| v else if op = 2 then sreg x ra ^^^ v
       else truth (decide ((sreg x ra).toNat < imm.toNat)), false)) else none
  | .slliSrliSrai e bad op rd ra sh =>
    if bad = false ∧ op ≠ 3 then some (e, rd, fun x =>
      (if op = 0 then sreg x ra <<< sh.val else if op = 1 then sreg x ra >>> sh.val
       else BitVec.ofInt 32 ((sreg x ra).toInt / 2 ^ sh.val), false)) else none
  | .movi e rd imm => some (e, rd, fun _ => (BitVec.ofInt 32 imm.toInt, false))
  | .movhi e bad rd imm =>
    if bad = false then some (e, rd, fun x => (BitVec.ofNat 32 (imm.toNat * 2 ^ 16 + (sreg x rd).toNat % 2 ^ 16), false)) else none
  | _ => none

/-- The multiplies, whose results have latency 2 (R95). -/
def isMultiply : Instr → Bool
  | .mul .. => true
  | .mulhMulhu .. => true
  | .mulq .. => true
  | _ => false

/-- The engine after a scalar instruction: destination, SST.SSAT when it saturates, PC. -/
def afterScalar (x : EngS) (rd : Nat) (r : Word × Bool) : EngS :=
  (stick (setSreg x rd r.1) Sr.SST (if r.2 then 1 else 0)).on

/-! ## Control (R186) -/

/-- Sets a loop level: count and R, first and last bundle (R115). -/
def withLoop (x : EngS) (n count last : Nat) (rot : Bool) : EngS :=
  ((x.setSr (Sr.LC n) (count + if rot then 2 ^ 31 else 0)).setSr (Sr.LS n) ((x.pc + 8) % 2 ^ 15)).setSr (Sr.LE n) last

/-- The control instructions in a legal form: the engine and what it is after the bundle. -/
def controlOf : Instr → Option (Fin 1024 × (EngS → Option EngS))
  | .nop e false false => some (e, fun x => some x.on)
  | .tend e false => some (e, fun x => some { x.on with ended := true })
  | .isync e false => some (e, fun x => some x.on)
  | .rte e false => some (e, fun x =>
      if bitAt (x.srN Sr.ESTAT) 2 then
        let pie := bits (x.srN Sr.ESTAT) 1 1
        some { x.setSr Sr.ESTAT (pie + 2 * pie) with pc := x.srN Sr.EPC % 2 ^ 15 }
      else none)
  | .jr e false rs => some (e, fun x => some { x with pc := (sreg x rs).toNat % 2 ^ 15 / 8 * 8 })
  | .beqzBnezBltzBgezBgtzBlez e cond gs off => some (e, fun x =>
      let a := (sreg x gs).toInt
      let taken := match cond.val with
        | 0 => some (decide (a = 0))
        | 1 => some (decide (a ≠ 0))
        | 2 => some (decide (a < 0))
        | 3 => some (decide (0 ≤ a))
        | 4 => some (decide (0 < a))
        | 5 => some (decide (a ≤ 0))
        | _ => none
      taken.map fun b => if b then { x with pc := (((x.pc : Int) + 8 * off.toInt) % 2 ^ 15).toNat } else x.on)
  | .j e false off => some (e, fun x => some { x with pc := (((x.pc : Int) + 8 * off.toInt) % 2 ^ 15).toNat })
  | .call e false off => some (e, fun x =>
      some { setSreg x 31 (BitVec.ofNat 32 ((x.pc + 8) % 2 ^ 15)) with pc := (((x.pc : Int) + 8 * off.toInt) % 2 ^ 15).toNat })
  | .loop e n rot g count last => some (e, fun x =>
      let le := (x.pc + 8 * last.toNat) % 2 ^ 15
      let c := (if g then (sreg x count.toNat).toNat else count.toNat) % 2 ^ 24
      if n = 3 ∨ last = 0 ∨ le < (x.pc + 8) % 2 ^ 15 ∨ (g = true ∧ 32 ≤ count.toNat) then none
      else some { withLoop x n c le rot with pc := if c = 0 then (le + 8) % 2 ^ 15 else (x.pc + 8) % 2 ^ 15 })
  | _ => none

/-- An exception that a calm engine takes before its bundle issues: nothing changes but that the bundle is squashed and the cause is
remembered (R119, R565). -/
def withExc (x : EngS) (code epc eaddr : Nat) : EngS := { x with exc := some ⟨code, false, epc, some eaddr⟩ }

/-- Slot A words that no instruction has in that form, or that name an A or M destination where R180 allows none: UNDEF. -/
def undefOf : Instr → Option (Fin 1024)
  | .nop e true false => some e
  | .tend e true => some e
  | .rte e true => some e
  | .isync e true => some e
  | .brk e true => some e
  | .trap e true _ => some e
  | .jr e true _ => some e
  | .j e true _ => some e
  | .call e true _ => some e
  | .addsSubs e _ rd _ _ => if 32 ≤ rd.val then some e else none
  | .minMax e _ rd _ _ => if 32 ≤ rd.val then some e else none
  | .seqSne e _ rd _ _ => if 32 ≤ rd.val then some e else none
  | .sltSltu e _ rd _ _ => if 32 ≤ rd.val then some e else none
  | .sleSleu e _ rd _ _ => if 32 ≤ rd.val then some e else none
  | .mul e rd _ _ => if 32 ≤ rd.val then some e else none
  | .mulhMulhu e _ rd _ _ => if 32 ≤ rd.val then some e else none
  | .mulq e rd _ _ => if 32 ≤ rd.val then some e else none
  | .norms e bad rd _ => if bad = true ∨ 32 ≤ rd.val then some e else none
  | .addiSlti e slt rd _ _ => if slt = true ∧ 32 ≤ rd.val then some e else none
  | .andiOriXoriSltiu e op rd _ _ => if op = 3 ∧ 32 ≤ rd.val then some e else none
  | .slliSrliSrai e bad op _ _ _ => if bad = true ∨ op = 3 then some e else none
  | .movhi e true _ _ => some e
  | .beqzBnezBltzBgezBgtzBlez e cond _ _ => if 6 ≤ cond.val then some e else none
  | .loop e n _ g count _ => if n = 3 ∨ (g = true ∧ 32 ≤ count.toNat) then some e else none
  | .mts e bad sr _ => if bad = true ∨ srExists sr = false then some e else none
  | .mfs e bad _ sr => if bad = true ∨ srExists sr = false then some e else none
  | .ld e rt an mode sz disp =>
    if mode = 7 ∨ (mode = 1 ∧ 32 ≤ disp.toNat) ∨ (4 ≤ mode.val ∧ 16 ≤ disp.toNat) ∨ (5 ≤ sz.val ∧ 32 ≤ rt.val) ∨
      (2 ≤ mode.val ∧ sz.val < 5 ∧ rt.val = 32 + an.val) then some e else none
  | .st e rt _ mode sz disp =>
    if mode = 7 ∨ (mode = 1 ∧ 32 ≤ disp.toNat) ∨ (4 ≤ mode.val ∧ 16 ≤ disp.toNat) ∨ (5 ≤ sz.val ∧ 32 ≤ rt.val) ∨
      sz = 1 ∨ sz = 3 then some e else none
  | _ => none

/-! ## Special registers (R140) -/

/-- A special register other than VL after MTS: the W1C ones lose the bits written 1, the others take their writable bits. -/
def mtsWord (n : Nat) (old v : Nat) : Nat :=
  if srW1c n then old &&& (2 ^ 32 - 1 - (v &&& srMask n)) else (old &&& (2 ^ 32 - 1 - srMask n)) ||| (v &&& srMask n)

/-! ## Loads and stores -/

/-- The access address of a mode for an engine with nothing in flight (R110 to R113). -/
def accessFor (x : EngS) (mode an disp : Nat) (imm : Int) : Access :=
  let r := 32 + an
  let a := (sreg x r).toNat
  let m := (sreg x (48 + disp)).toNat
  let cb := x.srN (Sr.CB an)
  let cl := x.srN (Sr.CL an)
  match mode with
  | 0 => ⟨wrapN 32 (a + imm), none, none⟩
  | 1 => ⟨(a + (sreg x disp).toNat) % 2 ^ 32, none, none⟩
  | 2 => ⟨wrapN 32 (a + imm), none, some (r, wrapN 32 (a + imm))⟩
  | 3 => ⟨a, none, some (r, wrapN 32 (a + imm))⟩
  | 4 => ⟨a, none, some (r, (a + m) % 2 ^ 32)⟩
  | 5 =>
    let d := wrapN 32 ((a : Int) - cb)
    ⟨if cl = 0 then a else (cb + d % cl) % 2 ^ 32, if cl = 0 then none else some (cb, cl, d), some (r, circNext a cb cl (sgn 32 m))⟩
  | _ => ⟨a, none, some (r, revNext a cb cl m)⟩

/-- The update of An. -/
def withUpd (x : EngS) (u : Option (Nat × Nat)) : EngS :=
  match u with
  | some (r, v) => setSreg x r (BitVec.ofNat 32 v)
  | none => x

/-- Do `n` bytes of an access all lie in the engine's own X, Y and instruction memory (R104)? -/
def ownBytes (c : Access) (n : Nat) : Bool := (upto n).all fun j => decide (c.byte j < 0x28000)

/-- Number of bytes and kind of a size code (R189): signed or unsigned byte, halfword; word; F register of 2, 4, 8 bytes. -/
def accBytes (sz : Nat) : Nat := [1, 1, 2, 2, 4, 2, 4, 8].getD sz 8

/-- A vector register's value with bits replaced. -/
def withVec (x : EngS) (k mask v : Nat) : EngS :=
  { x with vec := x.vec.set (x.phys k) (BitVec.ofNat 4096 (mergeN (vreg x k) mask v)) }

/-- The register that a scalar load writes, from the bytes read. -/
def loaded (x : EngS) (sz rt : Nat) (v : Nat) : EngS :=
  match sz with
  | 0 => setSreg x rt (BitVec.ofInt 32 (sgn 8 v))
  | 2 => setSreg x rt (BitVec.ofInt 32 (sgn 16 v))
  | 5 => withVec x rt (2 ^ 64 - 1) v
  | 6 => withVec x rt (2 ^ 64 - 1) v
  | 7 => withVec x rt (2 ^ 64 - 1) v
  | _ => setSreg x rt (BitVec.ofNat 32 v)

/-- The bytes that a scalar store takes from its register. -/
def storedBytes (x : EngS) (sz rt : Nat) : List Byte :=
  leBytes (accBytes sz) (if sz < 5 then (sreg x rt).toNat else vreg x rt)

/-- Is the form of a load or store defined (R184, R189)? -/
def memForm (mode sz rt disp : Nat) : Bool :=
  decide (mode ≠ 7) && (decide (mode ≠ 1) || decide (disp < 32)) && (decide (mode < 4) || decide (disp < 16)) &&
    (decide (sz < 5) || decide (rt < 32))

/-- Bytes of device memory at the places of an access in the engine's own memories, little-endian. -/
def ownRead (s : State) (e : Nat) (c : Access) (n : Nat) : Nat := leNat ((upto n).map fun j => memGet s.mem (emBase e + c.byte j))

/-- Does none of the bytes read with an error? -/
def ownGood (s : State) (e : Nat) (c : Access) (n : Nat) : Bool := (upto n).all fun j => !damagedIn s (emBase e + c.byte j) 1

/-- The bytes of memory are as before but for those given: local address in the engine's own memories, value. -/
def MemIs (s u : State) (e : Nat) (ws : List (Nat × Byte)) : Prop :=
  ∀ a, memGet u.mem a =
    match ws.find? fun w => decide (emBase e + w.1 = a) with
    | some w => w.2
    | none => memGet s.mem a

/-! ## Vector loads and stores (R156, R161, R162) -/

/-- The fields of a contiguous or structure load or store: first register, number of registers, mode, An, predicate, displacement
field and its value in bytes. -/
structure VMem where
  vd : Nat
  n : Nat
  mode : Nat
  an : Nat
  pg : Nat
  disp : Nat
  imm : Int

/-- Is the form defined (R161, R184)? -/
def VMem.legal (m : VMem) : Bool :=
  decide (m.mode ≠ 7) && (decide (m.mode ≠ 1) || decide (m.disp < 32)) && (decide (m.mode < 4) || decide (m.disp < 16)) &&
    decide (m.vd + m.n ≤ 32)

/-- The contiguous and structure loads; a first-faulting one names a predicate other than P0 (R160). -/
def vloadOf : Instr → Option (Fin 1024 × VMem)
  | .vld e vd an mode pg disp => some (e, ⟨vd, 1, mode, an, pg, disp.toNat, disp.toInt⟩)
  | .vldFf e vd an mode pg disp => if pg = 0 then none else some (e, ⟨vd, 1, mode, an, pg, disp.toNat, disp.toInt⟩)
  | .ld2Ld3Ld4 e vd an mode pg nf disp => if nf = 0 then none else some (e, ⟨vd, nf + 1, mode, an, pg, disp.toNat, disp.toInt⟩)
  | _ => none

/-- The contiguous and structure stores. -/
def vstoreOf : Instr → Option (Fin 1024 × VMem)
  | .vstr e vs an mode pg disp => some (e, ⟨vs, 1, mode, an, pg, disp.toNat, disp.toInt⟩)
  | .st2St3St4 e vs an mode pg nf disp => if nf = 0 then none else some (e, ⟨vs, nf + 1, mode, an, pg, disp.toNat, disp.toInt⟩)
  | _ => none

/-- Do the bytes of every active record of `n` elements lie in the engine's own memories? -/
def ownRecs (ty : VTy) (p : Nat) (a : Access) (n : Nat) : Bool :=
  (upto ty.n).all fun i => !ty.active p i || (upto (n * ty.size)).all fun j => decide (a.byte (i * (n * ty.size) + j) < 0x28000)

/-- Does no byte of an active record read with an error? -/
def goodRecs (s : State) (e : Nat) (ty : VTy) (p : Nat) (a : Access) (n : Nat) : Bool :=
  (upto ty.n).all fun i => !ty.active p i || (upto (n * ty.size)).all fun j =>
    !damagedIn s (emBase e + a.byte (i * (n * ty.size) + j)) 1

/-- The bytes of field `f` of record `i`, as local addresses. -/
def fieldBytes (ty : VTy) (a : Access) (n f i : Nat) : List Nat :=
  (upto ty.size).map fun j => a.byte (i * (n * ty.size) + f * ty.size + j)

/-- The engine after a load of `n` registers: field f of every active record in its element of register Vd + f. -/
def loadRecs (s : State) (e : Nat) (ty : VTy) (p : Nat) (a : Access) (vd n : Nat) (x : EngS) : EngS :=
  (upto n).foldl (fun x f => withVec x (vd + f) (ty.mask p) (packN (8 * ty.size) ((upto ty.n).map fun i =>
    leNat ((fieldBytes ty a n f i).map fun b => memGet s.mem (emBase e + b))))) x

/-- The bytes that a store of `n` registers writes, last written first: local addresses and values. -/
def storeRecs (x : EngS) (ty : VTy) (p : Nat) (a : Access) (vs n : Nat) : List (Nat × Byte) :=
  (((upto ty.n).filter (ty.active p)).flatMap fun i => (upto n).flatMap fun f =>
    (fieldBytes ty a n f i).zip (leBytes ty.size (bits (vreg x (vs + f)) (i * (8 * ty.size)) (8 * ty.size)))).reverse

/-- The address of element `i` of a gather or scatter (R162). -/
def gatherAddr (x : EngS) (ty : VTy) (an vi i : Nat) : Nat :=
  ((sreg x (32 + an)).toNat + bits (vreg x vi) (16 * i) 16 * ty.size) % 2 ^ 32

/-- The command leads to a state in which only engine `e` and memory have changed, the engine is `y` once its writes in flight have
landed (the model's number of the next store aside), and memory is as before but for the bytes given (where a place is given twice,
the first counts). -/
def StoreGoes (c : Instr) (s : State) (e : Nat) (y : EngS) (ws : List (Nat × Byte)) : Prop :=
  ∃ u, Leads c s u ∧ u = { s with eng := u.eng, fresh := u.fresh, mem := u.mem, damaged := u.damaged } ∧
    (∀ k, k ≠ e → eng u k = eng s k) ∧ (eng u e).rest = { y with seq := (eng u e).seq }.rest ∧ MemIs s u e ws

end Sys2Proof.Machine
end

