-- ==== Sys2Proof/Safety/Vector.lean ====
section
/-! DEFINITION. What the slot B instructions are to do, as tables of results for an engine with nothing in flight. -/

namespace Sys2Proof.Machine

/-- What a slot B instruction leaves: bits of a vector register (name, mask, value), a predicate, a G register, an accumulator
with its overflowing lanes, sticky bits of SST and FST, and coprocessor states. -/
structure BOut where
  vec : Option (Nat × Nat × Nat) := none
  pred : Option (Nat × Nat) := none
  scal : Option (Nat × Word) := none
  acc : Option (Nat × Nat) := none
  sst : Nat := 0
  fst : Nat := 0
  vst : Nat := 0
  cp0 : Option Cp0S := none
  cp1 : Option Cp1S := none
  cp3 : Option Cp3S := none

/-- A predicate as a destination: writes of P0 are discarded (R150). -/
def setPreg (x : EngS) (n v : Nat) : EngS := if n = 0 then x else { x with pred := x.pred.set n (BitVec.ofNat 512 v) }

/-- The engine with the results of a slot B instruction. -/
def BOut.apply (o : BOut) (x : EngS) : EngS :=
  let x := match o.vec with
    | some (k, m, v) => withVec x k m v
    | none => x
  let x := match o.pred with
    | some (n, v) => setPreg x n v
    | none => x
  let x := match o.scal with
    | some (r, v) => setSreg x r v
    | none => x
  let x := match o.acc with
    | some (n, v) => { x with acc := x.acc.set n (BitVec.ofNat 2560 v), accN := x.accN.set n (BitVec.ofNat 2560 v) }
    | none => x
  let x := stick (stick (stick (stick x Sr.SST o.sst) Sr.FST o.fst) Sr.VST_LO (o.vst % 2 ^ 32)) Sr.VST_HI (o.vst / 2 ^ 32)
  { x with cp0 := o.cp0.getD x.cp0, cp1 := o.cp1.getD x.cp1, cp3 := o.cp3.getD x.cp3 }

/-- A value of a table: the engine, and what the instruction leaves; none in the second place where the form is not defined. -/
abbrev BSpec := Option (Fin 1024 × (EngS → Option BOut))

/-! ## Element arithmetic (R154, R194, R195) -/

/-- Part `j` of a vector operand. -/
def partOf (t : VTy) (v j : Nat) : Nat := bits v (j * (8 * t.part)) (8 * t.part)

/-- A vector from its parts. -/
def ofParts (w : Nat) (l : List Nat) : Nat := packN w l

/-- A saturated part, and whether it saturated. -/
def satTo (w : Nat) (v : Int) : Nat × Bool := (wrapN w (clampTo w v).1, (clampTo w v).2)

/-- The parts of an instruction that works part by part, on active elements only. -/
def partwise (x : EngS) (t vd va vb pg : Nat) (f : VTy → Nat → Nat → Nat → Nat × Bool) (ok : VTy → Bool) : Option BOut :=
  ((x.ty t).filter ok).map fun ty =>
    let r := fun j => f ty j (partOf ty (vreg x va) j) (partOf ty (vreg x vb) j)
    { vec := some (vd, ty.mask (preg x pg), ofParts (8 * ty.part) ((upto ty.parts).map fun j => (r j).1))
      sst := if (upto ty.parts).any fun j => ty.active (preg x pg) (if ty.cx then j / 2 else j) && (r j).2 then 2 else 0 }

/-- A signed part. -/
abbrev sg (t : VTy) (a : Nat) : Int := sgn (8 * t.part) a

/-- Truth of a condition of VCMPcc (R195): EQ, NE, LT, LE, LTU. -/
def vcond (cond w a b : Nat) : Bool :=
  if cond = 0 then decide (a = b) else if cond = 1 then decide (a ≠ b) else if cond = 2 then decide (sgn w a < sgn w b)
  else if cond = 3 then decide (sgn w a ≤ sgn w b) else decide (a < b)

/-- The instructions that work part by part. -/
def partsOf : Instr → BSpec
  | .vaddVsub e sub vd va vb pg t => some (e, fun x => partwise x t vd va vb pg (fun ty _ a b =>
      (wrapN (8 * ty.part) (if sub then (a : Int) - b else a + b), false)) fun _ => true)
  | .vaddsVsubs e sub vd va vb pg t => some (e, fun x => partwise x t vd va vb pg (fun ty _ a b =>
      satTo (8 * ty.part) (if sub then sg ty a - sg ty b else sg ty a + sg ty b)) fun _ => true)
  | .vandVorVxorVandn e op vd va vb pg t => some (e, fun x =>
      if t ≠ 0 then none else partwise x t vd va vb pg (fun _ _ a b =>
        (if op = 0 then a &&& b else if op = 1 then a ||| b else if op = 2 then a ^^^ b else a - (a &&& b), false)) fun _ => true)
  | .vmov e false vd va pg t => some (e, fun x =>
      if t ≠ 0 then none else partwise x t vd va va pg (fun _ _ a _ => (a, false)) fun _ => true)
  | .vminVmax e mx vd va vb pg t => some (e, fun x => partwise x t vd va vb pg (fun ty _ a b =>
      (wrapN (8 * ty.part) (if mx then max (sg ty a) (sg ty b) else min (sg ty a) (sg ty b)), false)) fun _ => true)
  | .vabsVneg e false neg vd va pg t => some (e, fun x => partwise x t vd va va pg (fun ty _ a _ =>
      satTo (8 * ty.part) (if neg then -sg ty a else ((sg ty a).natAbs : Int))) fun _ => true)
  | .vconj e false vd va pg t => some (e, fun x => partwise x t vd va va pg (fun ty j a _ =>
      if j % 2 = 1 then satTo (8 * ty.part) (-sg ty a) else (a, false)) fun ty => ty.cx)
  | .vshlVshrVshrl e op vd va n pg t => some (e, fun x => partwise x t vd va va pg (fun ty _ a _ =>
      (if op = 0 then a * 2 ^ n.val % 2 ^ (8 * ty.part) else if op = 1 then wrapN (8 * ty.part) (sg ty a / 2 ^ n.val)
       else a / 2 ^ n.val, false)) fun ty => decide (n.val < 8 * ty.part))
  | .vshls e vd va n pg t => some (e, fun x => partwise x t vd va va pg (fun ty _ a _ =>
      satTo (8 * ty.part) (sg ty a * 2 ^ n.val)) fun _ => true)
  | .vshrr e vd va n pg t => some (e, fun x => partwise x t vd va va pg (fun ty _ a _ =>
      (wrapN (8 * ty.part) ((2 * sg ty a + 2 ^ n.val) / 2 ^ (n.val + 1)), false)) fun _ => true)
  | .vnormVexp e false ex vd va pg t => some (e, fun x => partwise x t vd va va pg (fun ty _ a _ =>
      let r := redundant (8 * ty.part) (sg ty a)
      (if ex then 8 * ty.part - 1 - r else r, false)) fun _ => true)
  | .vcmpccV e cond vd va vb pg t => some (e, fun x =>
      if 5 ≤ cond.val then none else partwise x t vd va vb pg (fun ty _ a b =>
        (if vcond cond (8 * ty.part) a b then 2 ^ (8 * ty.part) - 1 else 0, false)) fun _ => true)
  | _ => none

/-! ## Widths, permutes, selection (R154, R155, R194) -/

/-- Element `i` of a vector operand. -/
def elemAt (t : VTy) (v i : Nat) : Nat := bits v (i * (8 * t.size)) (8 * t.size)

/-- Elements `0` to `n − 1` of a result, all of them written. -/
def allElems (t : VTy) (vd n : Nat) (f : Nat → Nat) : BOut :=
  { vec := some (vd, 2 ^ (n * (8 * t.size)) - 1, packN (8 * t.size) ((upto n).map f)) }

/-- The active elements of a result. -/
def activeElems (t : VTy) (vd p : Nat) (f : Nat → Nat) : BOut :=
  { vec := some (vd, t.mask p, packN (8 * t.size) ((upto t.n).map f)) }

/-- The instructions that change the width of elements or move them. -/
def movesOf : Instr → BSpec
  | .vnrw e h vd va n pg t => some (e, fun x =>
      let ty : VTy := ⟨if h then 2 else 1, false, x.count⟩
      let w := 8 * ty.part
      if t ≠ 0 ∨ 512 < 2 * ty.len ∨ 2 * w ≤ n.val then none
      else
        let r := fun i => satTo w ((2 * sgn (2 * w) (bits (vreg x va) (i * (2 * w)) (2 * w)) + 2 ^ n.val) / 2 ^ (n.val + 1))
        some { activeElems ty vd (preg x pg) (fun i => (r i).1) with
          sst := if (upto ty.n).any fun i => ty.active (preg x pg) i && (r i).2 then 2 else 0 })
  | .vwid e false w vd va pg t => some (e, fun x =>
      let ty : VTy := ⟨if w then 4 else 2, false, x.count⟩
      let h := 4 * ty.part
      if t ≠ 0 ∨ 512 < ty.len then none
      else some (activeElems ty vd (preg x pg) fun i => wrapN (2 * h) (sgn h (bits (vreg x va) (i * h) h))))
  | .vsel e vd va vb pn t => some (e, fun x =>
      if t ≠ 0 then none else (x.ty 0).map fun ty =>
        allElems ty vd ty.n fun i => if ty.active (preg x pn) i then elemAt ty (vreg x va) i else elemAt ty (vreg x vb) i)
  | .vzip e false vd va vb t => some (e, fun x => ((x.ty t).filter fun ty => decide (2 * ty.len ≤ 512)).map fun ty =>
      allElems ty vd (2 * ty.n) fun i => elemAt ty (if i % 2 = 0 then vreg x va else vreg x vb) (i / 2))
  | .vuzp e false odd vd va t => some (e, fun x => ((x.ty t).filter fun ty => decide (2 * ty.len ≤ 512)).map fun ty =>
      allElems ty vd ty.n fun i => elemAt ty (vreg x va) (2 * i + odd.toNat))
  | .vperm e vd va vi pg t => some (e, fun x => ((x.ty t).filter fun ty => decide (2 * ty.n ≤ 512)).map fun ty =>
      activeElems ty vd (preg x pg) fun i => elemAt ty (vreg x va) (bits (vreg x vi) (16 * i) 16 % ty.n))
  | .vdup e false vd va k pg t => some (e, fun x => ((x.ty t).filter fun ty => decide ((k.val + 1) * ty.size ≤ 512)).map fun ty =>
      activeElems ty vd (preg x pg) fun _ => elemAt ty (vreg x va) k)
  | .vsld e false vd va vb k => some (e, fun x => ((x.ty 0).filter fun ty => decide (k.val ≤ ty.n)).map fun ty =>
      allElems ty vd ty.n fun i => if i + k.val < ty.n then elemAt ty (vreg x va) (i + k) else elemAt ty (vreg x vb) (i + k - ty.n))
  | _ => none

/-! ## Predicates (R152, R153, R195) -/

/-- A predicate with every bit of element `i` set to its truth, for elements of `k` bytes. -/
def predOf (k n : Nat) (f : Nat → Bool) : Nat := packN k ((upto n).map fun i => if f i then 2 ^ k - 1 else 0)

/-- The instructions with a predicate or a G register as destination. -/
def predsOf : Instr → BSpec
  | .vcmpccP e false cond pd va vb pg t => some (e, fun x =>
      if 5 ≤ cond.val then none else (x.ty t).map fun ty =>
        { pred := some (pd, predOf ty.part ty.parts fun j =>
            ty.active (preg x pg) (if ty.cx then j / 2 else j) &&
              vcond cond (8 * ty.part) (partOf ty (vreg x va) j) (partOf ty (vreg x vb) j)) })
  | .pandPorPxorPandn e false op pd pa pb => some (e, fun x => some
      { pred := some (pd, if op = 0 then preg x pa &&& preg x pb else if op = 1 then preg x pa ||| preg x pb
          else if op = 2 then preg x pa ^^^ preg x pb else preg x pa - (preg x pa &&& preg x pb)) })
  | .pnot e false pd pa => some (e, fun x => (x.ty 0).map fun ty =>
      { pred := some (pd, packN 1 ((upto ty.len).map fun i => if bitAt (preg x pa) i then 0 else 1)) })
  | .pwhile e false pd gs gt => some (e, fun x => (x.ty 0).map fun ty =>
      { pred := some (pd, predOf ty.size ty.n fun i => decide ((sreg x gs).toNat + i < (sreg x gt).toNat)) })
  | .pcnt e false gd pa => some (e, fun x => (x.ty 0).map fun ty =>
      { scal := some (gd, BitVec.ofNat 32 ((upto ty.n).countP (ty.active (preg x pa)))) })
  | .pfirst e false gd pa => some (e, fun x => (x.ty 0).map fun ty =>
      { scal := some (gd, BitVec.ofNat 32 (((upto ty.n).find? fun i => !ty.active (preg x pa) i).getD ty.n)) })
  | .pmovToV e false vd pa => some (e, fun x => some { vec := some (vd, 2 ^ 512 - 1, preg x pa) })
  | .pmovToP e false pd va => some (e, fun x => some { pred := some (pd, vreg x va % 2 ^ 512) })
  | _ => none

/-! ## Accumulators (R131, R132, R165 to R168) -/

/-- A lane of an accumulator, as the signed number it holds. -/
def laneOf (v j : Nat) : Int := sgn 40 (bits v (40 * j) 40)

/-- A lane of an accumulator takes the sum of a beat (R132): with VCTL.WRAP modulo 2^40, else saturated; and whether the exact
value left the range. -/
def laneTake (wrap : Bool) (v : Int) : Int × Bool :=
  (if wrap then sgn 40 (wrapN 40 v) else (clampTo 40 v).1, (clampTo 40 v).2)

/-- A lane after the beats of a MAC: kind 0 adds, 1 subtracts, 2 replaces. -/
def laneRun (kind : Nat) (wrap : Bool) : Int → List Int → Int × Bool
  | v, [] => (v, false)
  | v, c :: cs =>
    let r := laneTake wrap (if kind = 1 then v - c else v + c)
    let q := laneRun kind wrap r.1 cs
    (q.1, r.2 || q.2)

/-- A MAC of operand type `ty` with the contribution of each beat to each lane. -/
def macOut (x : EngS) (kind ac : Nat) (ty : VTy) (term : Nat → Nat → Int) : Option BOut :=
  if kind = 3 ∨ 512 < ty.len then none
  else
    let r := fun j => laneRun kind (bitAt (x.srN Sr.VCTL) 0) (if kind = 2 then 0 else laneOf (x.accN.getD ac 0).toNat j)
      ((upto (beatsOf ty.len)).map fun i => term i j)
    some { acc := some (ac, packN 40 ((upto 64).map fun j => wrapN 40 (r j).1))
           vst := packN 1 ((upto 64).map fun j => if (r j).2 then 1 else 0) }

/-- The accumulator instructions. -/
def accsOf : Instr → BSpec
  | .vmacVmsuVmpy e false kind ac va vb pg form => some (e, fun x =>
      let ty := macTy x form
      macOut x kind ac ty fun i j => macTerm form (vreg x va) (vreg x vb) 0 i j (ty.active (preg x pg)))
  | .vmacsVmsusVmpys e false kind ac va vb pg form k => some (e, fun x =>
      let ty := macTy x (form + 5)
      if form = 2 ∧ 8 ≤ k.val then none
      else macOut x kind ac ty fun i j => macTerm (form + 5) (vreg x va) (vreg x vb) k i j (ty.active (preg x pg)))
  | .vrac e false vd ac ty bk sh => some (e, fun x =>
      let w := 8 * 2 ^ ty.val
      if ty = 3 ∨ 8 ≤ bk.val * 2 ^ ty.val then none
      else
        let r := fun j => satTo w ((2 * laneOf (x.acc.getD ac 0).toNat j + 2 ^ sh.val) / 2 ^ (sh.val + 1))
        some { vec := some (vd, (2 ^ (64 * w) - 1) * 2 ^ (64 * w * bk.val),
                 packN w ((upto 64).map fun j => (r j).1) * 2 ^ (64 * w * bk.val))
               sst := if (upto 64).any fun j => (r j).2 then 2 else 0 })
  | .vacclr e false ac => some (e, fun _ => some { acc := some (ac, 0) })
  | .vacmov e false acd acs => some (e, fun x => some { acc := some (acd, (x.acc.getD acs 0).toNat) })
  | .vracx e false vd ac => some (e, fun x => some
      { vec := some (vd, 2 ^ 4096 - 1, packN 64 ((upto 64).map fun j => wrapN 64 (laneOf (x.acc.getD ac 0).toNat j))) })
  | .vwac e false ac vs => some (e, fun x => some
      { acc := some (ac, packN 40 ((upto 64).map fun j => bits (vreg x vs) (64 * j) 40)) })
  | _ => none

/-! ## Block floating point (R170 to R172) -/

/-- The VL type where it is 16-bit. -/
def bfpTy (x : EngS) : Option VTy := (x.ty 0).filter fun t => decide (t.part = 2)

/-- The largest EXP among the parts of block `b` of `g` elements. -/
def blockExp (t : VTy) (g b v : Nat) : Nat :=
  (((upto t.n).filter fun i => decide (i / g = b)).flatMap fun i => (upto (t.size / 2)).map fun k =>
    15 - redundant 16 (sgn 16 (bits v (i * (8 * t.size) + 16 * k) 16))).foldl max 0

/-- Field `j` of m bits of a byte string, most significant bit first, from the value that the bytes make in little-endian order. -/
def msbField (m j v : Nat) : Nat :=
  (upto m).foldl (fun a i => 2 * a + bits v ((j * m + i) / 8 * 8 + (7 - (j * m + i) % 8)) 1) 0

/-- Shift of a part of SHRB by `r`, which is limited to ±15 (R171). -/
def shifted (m : Nat) (r a : Int) : Int × Bool :=
  let r := max (-15) (min 15 r)
  clampTo m (if 0 ≤ r then (2 * a + 2 ^ r.toNat) / 2 ^ (r.toNat + 1) else a * 2 ^ (-r).toNat)

/-- The block floating-point instructions but VPKM. -/
def bfpOf : Instr → BSpec
  | .expb e false vd va g24 m1 => some (e, fun x => (bfpTy x).map fun ty =>
      let g := if g24 then 24 else 12
      let n := (ty.n + g - 1) / g
      { vec := some (vd, 2 ^ (16 * n) - 1, packN 16 ((upto n).map fun b => blockExp ty g b (vreg x va) + 1 - (m1.val + 1))) })
  | .shrb e false vd va vs g24 m1 => some (e, fun x => (bfpTy x).map fun ty =>
      let g := if g24 then 24 else 12
      let r := fun j => shifted (m1.val + 1)
        (sgn 16 (bits (vreg x vs) (16 * ((if ty.cx then j / 2 else j) / g)) 16)) (sgn 16 (partOf ty (vreg x va) j))
      { vec := some (vd, 2 ^ (8 * ty.len) - 1, packN 16 ((upto ty.parts).map fun j => wrapN 16 (r j).1))
        sst := if (upto ty.parts).any fun j => (r j).2 then 2 else 0 })
  | .vupkm e false vd va m1 => some (e, fun x => (bfpTy x).map fun ty =>
      { vec := some (vd, 2 ^ (8 * ty.len) - 1, packN 16 ((upto ty.parts).map fun j =>
          wrapN 16 (sgn (m1.val + 1) (msbField (m1.val + 1) j (vreg x va))))) })
  | _ => none

/-! ## Floating point (R137 to R139, R198) -/

/-- The operand of a precision in an F register. -/
def fop (x : EngS) (p : Bool) (k : Nat) : Nat := vreg x k % 2 ^ (fmtOf p).width

/-- A floating-point result with flags, where IEEE 754 leaves none of them open. -/
def fout (fd : Nat) (r : FRes) : Option BOut :=
  if r.open' = 0 then some { vec := some (fd, 2 ^ 64 - 1, r.v), fst := r.fl } else none

/-- The floating-point instructions; none where a value or flag is left open. -/
def floatsOf : Instr → BSpec
  | .faddFsubFmul e false p op fd fa fb => some (e, fun x =>
      let m := fmtOf p
      let a := m.decode (fop x p fa)
      let b := m.decode (fop x p fb)
      fout fd (if op = 0 then m.add a b else if op = 1 then m.add a b.neg else m.mul a b))
  | .fma e p fd fa fb fc => some (e, fun x =>
      let m := fmtOf p
      fout fd (m.fma (m.decode (fop x p fa)) (m.decode (fop x p fb)) (m.decode (fop x p fc))))
  | .fdiv e false p fd fa fb => some (e, fun x =>
      let m := fmtOf p
      fout fd (m.div (m.decode (fop x p fa)) (m.decode (fop x p fb))))
  | .fsqrt e false p fd fa => some (e, fun x =>
      let m := fmtOf p
      fout fd (m.sqrt (m.decode (fop x p fa))))
  | .fminFmax e false p mx fd fa fb => some (e, fun x =>
      let m := fmtOf p
      let a := m.decode (fop x p fa)
      let b := m.decode (fop x p fb)
      if a.isNan && b.isNan then fout fd { v := m.nan, fl := if a.isS || b.isS then 16 else 0 }
      else if a.isNan then (if a.isS then none else fout fd { v := fop x p fb })
      else if b.isNan then (if b.isS then none else fout fd { v := fop x p fa })
      else if fop x p fa = fop x p fb then fout fd { v := fop x p fa }
      else if a.lt b then fout fd { v := if mx then fop x p fb else fop x p fa }
      else if b.lt a then fout fd { v := if mx then fop x p fa else fop x p fb }
      else none)
  | .fabsFneg e false p neg fd fa => some (e, fun x =>
      let top := 2 ^ ((fmtOf p).width - 1)
      let a := fop x p fa
      fout fd { v := if neg then (if a < top then a + top else a - top) else a % top })
  | .fmov e false p fd fa => some (e, fun x => fout fd { v := fop x p fa })
  | .fcmp e false p cond gd fa fb => some (e, fun x =>
      let m := fmtOf p
      let a := m.decode (fop x p fa)
      let b := m.decode (fop x p fb)
      let un := a.isNan || b.isNan
      if 4 ≤ cond.val then none
      else
        let v := if cond = 0 then !un && (!a.lt b && !b.lt a) else if cond = 1 then !un && a.lt b
          else if cond = 2 then !un && !b.lt a else un
        some { scal := some (gd, truth v)
               fst := if a.isS || b.isS || (un && (decide (cond = 1) || decide (cond = 2))) then 16 else 0 })
  | .fcvt e false p code d a => some (e, fun x =>
      let m := fmtOf p
      if code = 1 ∨ code = 2 ∨ code = 3 then
        let q := (m.decode (fop x p a)).toFixed (if code = 1 then 15 else if code = 2 then 31 else 0) (if code = 1 then 16 else 32)
        some { scal := some (d, BitVec.ofInt 32 q.1), fst := q.2 }
      else if code = 4 then
        let r := m.ofFixed (sgn 16 (sreg x a).toNat) 15
        fout d { v := r.v, fl := r.fl % 2 }
      else if code = 5 ∨ code = 6 then
        let r := m.ofFixed (sreg x a).toInt (if code = 5 then 31 else 0)
        fout d { v := r.v, fl := r.fl % 2 }
      else none)
  | .fmvgf e false fd gs => some (e, fun x => fout fd { v := (sreg x gs).toNat })
  | .fmvfg e false gd fa => some (e, fun x => some { scal := some (gd, BitVec.ofNat 32 (vreg x fa % 2 ^ 32)) })
  | _ => none

/-! ## Coprocessors (R209, R214 to R222) -/

/-- A complex 4 × 4 matrix register as its elements. -/
def cmAt (c : Cp0S) (i r k : Nat) : Int × Int :=
  let v := (c.cm.getD i 0).toNat
  (sgn 16 (bits v (32 * (4 * r + k)) 16), sgn 16 (bits v (32 * (4 * r + k) + 16) 16))

/-- The conjugate of a complex number. -/
abbrev conjOf (z : Int × Int) : Int × Int := (z.1, -z.2)

/-- The product of two complex numbers. -/
def cmulI (a b : Int × Int) : Int × Int := (a.1 * b.1 - a.2 * b.2, a.1 * b.2 + a.2 * b.1)

/-- An entry of a product of matrices. -/
def prodAt (a b : Nat → Nat → Int × Int) (r k : Nat) : Int × Int :=
  let t := fun j => cmulI (a r j) (b j k)
  ((t 0).1 + (t 1).1 + (t 2).1 + (t 3).1, (t 0).2 + (t 1).2 + (t 2).2 + (t 3).2)

/-- A matrix register from entries that saturate to Q1.15, with CMSTAT.SAT where one does. -/
def setMat (c : Cp0S) (i : Nat) (m : Nat → Nat → Int × Int) : Cp0S :=
  let ps := (upto 16).flatMap fun j => [(m (j / 4) (j % 4)).1, (m (j / 4) (j % 4)).2]
  { c with cm := c.cm.set i (BitVec.ofNat 512 (packN 16 (ps.map fun v => (satTo 16 v).1)))
           stat := if ps.any fun v => (satTo 16 v).2 then c.stat ||| 1 else c.stat }

/-- A sum of products shifted right by 15 and CMCTL.SHIFT with rounding (R215). -/
def scaled (c : Cp0S) (z : Int × Int) : Int × Int :=
  let n := 15 + c.ctl.toNat % 16
  ((2 * z.1 + 2 ^ n) / 2 ^ (n + 1), (2 * z.2 + 2 ^ n) / 2 ^ (n + 1))

/-- MA takes a product: 32 lanes of 40 bits that saturate, with CMSTAT.MASAT where one does (R214). -/
def addMat (c : Cp0S) (m : Nat → Nat → Int × Int) : Cp0S :=
  let l := fun j => sgn 40 (bits c.ma.toNat (40 * j) 40) + (if j % 2 = 0 then (m (j / 8) (j / 2 % 4)).1 else (m (j / 8) (j / 2 % 4)).2)
  { c with ma := BitVec.ofNat 1280 (packN 40 ((upto 32).map fun j => wrapN 40 (clampTo 40 (l j)).1))
           stat := if (upto 32).any fun j => (clampTo 40 (l j)).2 then c.stat ||| 4 else c.stat }

/-- The instructions of the matrix unit but the factorisations: what they make of its state. -/
def matrixOf : Instr → Option (Fin 1024 × (EngS → Option (Cp0S → Cp0S)))
  | .cmzero e false cd => some (e, fun _ => some fun c => { c with cm := c.cm.set cd 0 })
  | .cmident e false cd => some (e, fun _ => some fun c => setMat c cd fun r k => (if r = k then 0x7FFF else 0, 0))
  | .cmmov e false cd ca => some (e, fun _ => some fun c => { c with cm := c.cm.set cd (c.cm.getD ca 0) })
  | .cmherm e false cd ca => some (e, fun _ => some fun c => setMat c cd fun r k => conjOf (cmAt c ca k r))
  | .cmaddCmsub e false sub cd ca cb => some (e, fun _ => some fun c => setMat c cd fun r k =>
      if sub then ((cmAt c ca r k).1 - (cmAt c cb r k).1, (cmAt c ca r k).2 - (cmAt c cb r k).2)
      else ((cmAt c ca r k).1 + (cmAt c cb r k).1, (cmAt c ca r k).2 + (cmAt c cb r k).2))
  | .cmdiag e false cd ca => some (e, fun _ => some fun c => setMat c cd fun r k =>
      ((cmAt c ca r k).1 + (if r = k then sgn 16 c.sigma.toNat else 0), (cmAt c ca r k).2))
  | .cmmul e false cd ca cb => some (e, fun _ => some fun c => setMat c cd fun r k => scaled c (prodAt (cmAt c ca) (cmAt c cb) r k))
  | .cmmulh e false cd ca cb => some (e, fun _ => some fun c => setMat c cd fun r k =>
      scaled c (prodAt (fun i j => conjOf (cmAt c ca j i)) (cmAt c cb) r k))
  | .cmmulbh e false cd ca cb => some (e, fun _ => some fun c => setMat c cd fun r k =>
      scaled c (prodAt (cmAt c ca) (fun i j => conjOf (cmAt c cb j i)) r k))
  | .cmmac e false ca cb => some (e, fun _ => some fun c => addMat c (prodAt (cmAt c ca) (cmAt c cb)))
  | .cmmach e false ca cb => some (e, fun _ => some fun c => addMat c (prodAt (fun i j => conjOf (cmAt c ca j i)) (cmAt c cb)))
  | .cmclra e false => some (e, fun _ => some fun c => { c with ma := 0 })
  | .cmrda e false cd sh => some (e, fun _ => if 32 ≤ sh.val then none else some fun c => setMat c cd fun r k =>
      let v := fun i => (2 * sgn 40 (bits c.ma.toNat (40 * i) 40) + 2 ^ sh.val) / 2 ^ (sh.val + 1)
      (v (2 * (4 * r + k)), v (2 * (4 * r + k) + 1)))
  | .cmld e false cd va j => some (e, fun x => if 8 ≤ j.val then none else some fun c =>
      { c with cm := c.cm.set cd (BitVec.ofNat 512 (bits (vreg x va) (512 * j.val) 512)) })
  | _ => none

/-- The next `n` bits of the scrambling sequence from the two registers of CP1 (R220), and the registers after them. -/
def goldRun : Nat → Nat → Nat → List Bool × Nat × Nat
  | 0, a, b => ([], a, b)
  | n + 1, a, b =>
    let r := goldRun n (goldStep1 a) (goldStep2 b)
    ((bitAt a 0 != bitAt b 0) :: r.1, r.2)

/-- CP1 with its sequence registers moved on by `n` bits. -/
def moved (c : Cp1S) (n : Nat) : Cp1S :=
  let r := goldRun n (c.x1.toNat % 2 ^ 31) (c.x2.toNat % 2 ^ 31)
  { c with x1 := BitVec.ofNat 32 r.2.1, x2 := BitVec.ofNat 32 r.2.2 }

/-- The next `n` bits of the sequence. -/
def nextBits (c : Cp1S) (n : Nat) : List Bool := (goldRun n (c.x1.toNat % 2 ^ 31) (c.x2.toNat % 2 ^ 31)).1

/-- Bytes whose bits, most significant first, are a string, the last byte filled with zeros. -/
def byteString (l : List Bool) : Nat :=
  packN 8 ((bitsToBytes ((l.length + 7) / 8) (l ++ List.replicate 7 false)).map (·.toNat))

/-- CP1 after `n` bits of an operand have gone into the running CRC, in the bit order of its polynomial (R219). -/
def crcAfter (c : Cp1S) (v n : Nat) : Cp1S :=
  let p := c.cfg.toNat % 8
  let bit := fun k => if p = 6 then bitAt v k else bitAt v (k / 8 * 8 + (7 - k % 8))
  { c with crc := BitVec.ofNat 32 (((upto n).map bit).foldl (crcBit p) (c.crc.toNat % 2 ^ (crcPoly p).1)) }

/-- MTC into a port whose state is the engine's (R209, R218, R223, R229). -/
def transferTo (x : EngS) (port cr : Nat) (v : Nat) : Option BOut :=
  match port, cr with
  | 0, 0 => some { cp0 := some { x.cp0 with ctl := BitVec.ofNat 32 (v % 16) } }
  | 0, 1 => some { cp0 := some { x.cp0 with sigma := BitVec.ofNat 32 (v % 65536) } }
  | 0, 2 => some { cp0 := some { x.cp0 with stat := x.cp0.stat &&& BitVec.ofNat 32 (2 ^ 32 - 1 - v % 8) } }
  | 0, 3 => some { cp0 := some x.cp0 }
  | 1, 0 =>
    let q := if v % 8 = 7 then x.cp1.cfg.toNat % 8 else v % 8
    some { cp1 := some { x.cp1 with cfg := BitVec.ofNat 32 q, crc := BitVec.ofNat 32 (if q = 6 then 0xFFFFFFFF else 0) } }
  | 1, 1 => some { cp1 := some { x.cp1 with crc := BitVec.ofNat 32 v } }
  | 1, 2 => some { cp1 := some (moved { x.cp1 with x1 := 1, x2 := BitVec.ofNat 32 (v % 2 ^ 31) } 1600) }
  | 1, 3 => some { cp1 := some { x.cp1 with x1 := BitVec.ofNat 32 (v % 2 ^ 31) } }
  | 1, 4 => some { cp1 := some { x.cp1 with x2 := BitVec.ofNat 32 (v % 2 ^ 31) } }
  | 1, 5 => some { cp1 := some { x.cp1 with stat := x.cp1.stat &&& BitVec.ofNat 32 (2 ^ 32 - 1 - v % 2) } }
  | 1, 6 => some { cp1 := some x.cp1 }
  | 3, 0 =>
    let q := if v % 16 ∈ [1, 2, 4, 6, 8, 10] then v % 16 else x.cp3.cfg.toNat % 16
    let k := if v / 256 % 128 = 0 then x.cp3.cfg.toNat / 256 % 128 else v / 256 % 128
    some { cp3 := some { x.cp3 with cfg := BitVec.ofNat 32 (q + 16 * (v / 16 % 2) + 256 * k) } }
  | 3, 1 => some { cp3 := some { x.cp3 with scale := BitVec.ofNat 32 (v % 65536) } }
  | 3, 2 => some { cp3 := some x.cp3 }
  | 3, 3 => some { cp3 := some { x.cp3 with stat := x.cp3.stat &&& BitVec.ofNat 32 (2 ^ 32 - 1 - v % 2) } }
  | 3, 4 => some { cp3 := some x.cp3 }
  | _, _ => none

/-- The transfers between G registers and coprocessor registers; CP3 needs the run's grant (R199). -/
def transfersOf : Instr → BSpec
  | .mtc e false port cr gs => some (e, fun x =>
      if port = 3 ∧ x.grant = false then none else transferTo x port cr (sreg x gs).toNat)
  | .mfc e false port cr gd => some (e, fun x =>
      if port = 2 ∨ (port = 3 ∧ x.grant = false) ∨ crExists port cr = false then none
      else some { scal := some (gd, BitVec.ofNat 32 (mfcValue x port cr))
                  cp3 := if port = 3 ∧ cr = 2 then some { x.cp3 with ref := x.cp3.ref &&& 0xFFFFFFFC } else none })
  | _ => none

/-- The floating-point instructions with an F result whose flags or value may be left open: engine, Fd. -/
def openFloat : Instr → Option (Fin 1024 × Fin 32)
  | .faddFsubFmul e false _ _ fd _ _ => some (e, fd)
  | .fma e _ fd _ _ _ => some (e, fd)
  | .fdiv e false _ fd _ _ => some (e, fd)
  | .fsqrt e false _ fd _ => some (e, fd)
  | .fminFmax e false _ _ fd _ _ => some (e, fd)
  | .fcvt e false _ code fd _ => if code = 0 then some (e, fd) else none
  | _ => none

/-- The instructions of the bit unit. -/
def bitUnitOf : Instr → BSpec
  | .bucrc e false va gn => some (e, fun x =>
      let n := (sreg x gn).toNat
      if 512 < n then none else some { cp1 := some (crcAfter x.cp1 (vreg x va) (8 * n)) })
  | .bucrcb e false va gn => some (e, fun x =>
      let n := (sreg x gn).toNat
      if 4096 < n then none else some { cp1 := some (crcAfter x.cp1 (vreg x va) n) })
  | .buseq e false vd gn => some (e, fun x =>
      let n := (sreg x gn).toNat
      if n = 0 ∨ 512 < n then none
      else some { vec := some (vd, 2 ^ (8 * n) - 1, byteString (nextBits x.cp1 (8 * n))), cp1 := some (moved x.cp1 (8 * n)) })
  | .buscr e false vd va gn => some (e, fun x =>
      let n := (sreg x gn).toNat
      if n = 0 ∨ 512 < n then none
      else some { vec := some (vd, 2 ^ (8 * n) - 1, byteString (nextBits x.cp1 (8 * n)) ^^^ vreg x va % 2 ^ (8 * n))
                  cp1 := some (moved x.cp1 (8 * n)) })
  | .buscrl e false vd va gn => some (e, fun x =>
      let n := (sreg x gn).toNat
      if n = 0 ∨ 512 < n then none
      else
        let r := fun i => let b := sgn 8 (bits (vreg x va) (8 * i) 8)
          if (nextBits x.cp1 n).getD i false then clampTo 8 (-b) else (b, false)
        let c := moved x.cp1 n
        some { vec := some (vd, 2 ^ (8 * n) - 1, packN 8 ((upto n).map fun i => wrapN 8 (r i).1))
               cp1 := some (if (upto n).any fun i => (r i).2 then { c with stat := c.stat ||| 1 } else c) })
  | .buskip e false gn => some (e, fun x => some { cp1 := some (moved x.cp1 (sreg x gn).toNat) })
  | .bubil e false vd va gl qm => some (e, fun x =>
      let l := (sreg x gl).toNat
      if qm.val ∉ [1, 2, 4, 6, 8, 10] ∨ l = 0 ∨ 4096 < l * qm then none
      else
        let bit := fun k => bitAt (vreg x va) (k / 8 * 8 + (7 - k % 8))
        some { vec := some (vd, 2 ^ (8 * ((l * qm + 7) / 8)) - 1,
                 byteString ((upto (l * qm)).map fun k => bit (k % qm.val * l + k / qm.val))) })
  | .bubdl e false vd va gl qm => some (e, fun x =>
      let l := (sreg x gl).toNat
      if qm.val ∉ [1, 2, 4, 6, 8, 10] ∨ l = 0 ∨ 512 < l * qm then none
      else some { vec := some (vd, 2 ^ (8 * (l * qm)) - 1,
                    packN 8 ((upto (l * qm)).map fun k => bits (vreg x va) (8 * (k % l * qm + k / l)) 8)) })
  | .cmst e false vd ca j => some (e, fun x =>
      if 8 ≤ j.val then none
      else some { vec := some (vd, (2 ^ 512 - 1) * 2 ^ (512 * j.val), (x.cp0.cm.getD ca 0).toNat * 2 ^ (512 * j.val)) })
  | _ => none

/-- Slot B words that no instruction has in that form: UNDEF when their bundle issues. -/
def undefBOf : Instr → Option (Fin 1024)
  | .nop e true true => some e
  | .vmov e true _ _ _ _ => some e
  | .vabsVneg e true _ _ _ _ _ => some e
  | .vconj e true _ _ _ _ => some e
  | .vwid e true _ _ _ _ _ => some e
  | .vnormVexp e true _ _ _ _ _ => some e
  | .vzip e true _ _ _ _ => some e
  | .vuzp e true _ _ _ _ => some e
  | .vdup e true _ _ _ _ _ => some e
  | .vsld e true _ _ _ _ => some e
  | .vcmpccV e cond _ _ _ _ _ => if 5 ≤ cond.val then some e else none
  | .vcmpccP e bad cond _ _ _ _ _ => if bad = true ∨ 5 ≤ cond.val then some e else none
  | .vaddVsub e _ _ _ _ _ t => if t = 7 then some e else none
  | .vaddsVsubs e _ _ _ _ _ t => if t = 7 then some e else none
  | .vandVorVxorVandn e _ _ _ _ _ t => if t ≠ 0 then some e else none
  | .pandPorPxorPandn e true _ _ _ _ => some e
  | .pnot e true _ _ => some e
  | .pwhile e true _ _ _ => some e
  | .pcnt e true _ _ => some e
  | .pfirst e true _ _ => some e
  | .pmovToV e true _ _ => some e
  | .pmovToP e true _ _ => some e
  | .vmacVmsuVmpy e bad kind _ _ _ _ _ => if bad = true ∨ kind = 3 then some e else none
  | .vmacsVmsusVmpys e bad kind _ _ _ _ form k => if bad = true ∨ kind = 3 ∨ (form = 2 ∧ 8 ≤ k.val) then some e else none
  | .vrac e bad _ _ ty bk _ => if bad = true ∨ ty = 3 ∨ 8 ≤ bk.val * 2 ^ ty.val then some e else none
  | .vacclr e true _ => some e
  | .vacmov e true _ _ => some e
  | .vracx e true _ _ => some e
  | .vwac e true _ _ => some e
  | .expb e true _ _ _ _ => some e
  | .shrb e true _ _ _ _ _ => some e
  | .vpkm e true _ _ _ => some e
  | .vupkm e true _ _ _ => some e
  | .faddFsubFmul e true _ _ _ _ _ => some e
  | .fdiv e true _ _ _ _ => some e
  | .fsqrt e true _ _ _ => some e
  | .fminFmax e true _ _ _ _ _ => some e
  | .fabsFneg e true _ _ _ _ => some e
  | .fmov e true _ _ _ => some e
  | .fcmp e bad _ cond _ _ _ => if bad = true ∨ 4 ≤ cond.val then some e else none
  | .fcvt e bad _ code _ _ => if bad = true ∨ 7 ≤ code.val then some e else none
  | .fmvgf e true _ _ => some e
  | .fmvfg e true _ _ => some e
  | .mtc e bad port cr _ => if bad = true ∨ port = 2 ∨ crExists port cr = false then some e else none
  | .mfc e bad port cr _ => if bad = true ∨ port = 2 ∨ crExists port cr = false then some e else none
  | .cpsave e bad port _ => if bad = true ∨ port = 2 then some e else none
  | .cpload e bad port _ => if bad = true ∨ port = 2 then some e else none
  | .cmrda e bad _ sh => if bad = true ∨ 32 ≤ sh.val then some e else none
  | .cmld e bad _ _ j => if bad = true ∨ 8 ≤ j.val then some e else none
  | .cmst e bad _ _ j => if bad = true ∨ 8 ≤ j.val then some e else none
  | .dmap e true _ _ _ => some e
  | _ => none

end Sys2Proof.Machine
end

