-- ==== Sys2Proof/Certificates/Slice0/Obligations.lean ====
section
/-! DEFINITION. Statements about the machine. -/

open Sys2Proof Sys2Proof.Machine

/-! ## Steps -/

/-- A step performs the command at the front of the queue on the state with the rest of the queue. What passes on an empty queue is the model's
choice (log 1): one Tc of the time base while it counts, and nothing else when no command or write waits and no reset is due. -/
def Obligations.Steps : Prop :=
  (∀ (c : Instr) (s : State), step { s with pending := c :: s.pending } = exec c s) ∧
  (∀ s : State, s.pending = [] → allStarted s = true → s.mgt.late = [] → s.mgt.warmAt = none → ∃ t, step s = .next t ∧ Settled (tick s) t ∧
     (s.tim.counting = false → tick s = s) ∧
     (s.tim.counting = true → raw s ≠ 2 ^ 48 - 1 → let u := { s with tim := { s.tim with raw := s.tim.raw + 1 } }
       timD u < 2 ^ 44 → tick s = u))

/-! ## Signal engines: slot A -/

/-- R185, R136: a scalar instruction in a legal form writes its result into its destination (nothing for G0), sets SST.SSAT when it saturates,
moves the PC on by 8 and changes nothing else. R94, R95: the result of a scalar instruction has landed when the next bundle issues; that of a
multiply has not, and the next bundle still reads the old value. -/
def Obligations.ScalarArithmetic : Prop :=
  (∀ (c : Instr) (s : State) (e : Fin 1024) (rd : Fin 64) (f : EngS → Word × Bool),
     scalarOf c = some (e, rd, f) → calm s e = true → EngGoes c s e (afterScalar (eng s e) rd (f (eng s e)))) ∧
  (∀ (c : Instr) (s : State) (e : Fin 1024) (rd : Fin 64) (f : EngS → Word × Bool),
     scalarOf c = some (e, rd, f) → calm s e = true →
     Ends c s fun u =>
       (isMultiply c = false → (eng u e).fl = [] ∧ (eng u e).scal = (setSreg (eng s e) rd (f (eng s e)).1).scal) ∧
       (isMultiply c = true → (eng u e).scal = (eng s e).scal ∧
         ∃ t v, exec c s = .next t ∧ Leads (.nop e false false) t v ∧
           (eng v e).scal = (setSreg (eng s e) rd (f (eng s e)).1).scal))

/-- R186, R124, R128, R115: a control instruction in a legal form leads its engine to the PC, G31, ESTAT and loop registers of its rule, and
changes nothing else. -/
def Obligations.ControlFlow : Prop :=
  ∀ (c : Instr) (s : State) (e : Fin 1024) (f : EngS → Option EngS) (y : EngS),
    controlOf c = some (e, f) → calm s e = true → f (eng s e) = some y → EngGoes c s e y

/-- R178, R180, R200: an undefined slot A word, and an undefined slot B word when its bundle issues, raise a precise UNDEF: the bundle changes
nothing but that cause 1 with the bundle's address is taken. R119, R120, R186: BRK is taken at its own bundle with EADDR 0; TRAP after its
bundle has completed, with EPC the next bundle and EADDR its operand; RTE without EXL, and a LOOP whose last bundle does not lie after it, raise
ILLEGAL; an engine whose PC is not below the image size raises FETCH. -/
def Obligations.ExceptionsRaised : Prop :=
  ((∀ (c : Instr) (s : State) (e : Fin 1024), undefOf c = some e → calm s e = true →
     EngGoes c s e (withExc (eng s e) 1 (eng s e).pc 0)) ∧
   (∀ (c : Instr) (s : State) (e : Fin 1024), undefBOf c = some e → calm s e = true →
     BundleGoes c s e (withExc (eng s e) 1 (eng s e).pc 0))) ∧
  ((∀ (s : State) (e : Fin 1024), calm s e = true →
     EngGoes (.brk e false) s e (withExc (eng s e) 8 (eng s e).pc 0)) ∧
   (∀ (s : State) (e : Fin 1024) (imm : Fin 256), calm s e = true →
     EngGoes (.trap e false imm) s e (withExc (eng s e).on 9 (eng s e).on.pc imm)) ∧
   (∀ (s : State) (e : Fin 1024), calm s e = true → bitAt ((eng s e).srN Sr.ESTAT) 2 = false →
     EngGoes (.rte e false) s e (withExc (eng s e) 2 (eng s e).pc 0)) ∧
   (∀ (s : State) (e : Fin 1024) (n : Fin 4) (rot g : Bool) (count : BitVec 12) (last : BitVec 10), calm s e = true →
     n ≠ 3 → (g = true → count.toNat < 32) →
     (last = 0 ∨ ((eng s e).pc + 8 * last.toNat) % 2 ^ 15 < ((eng s e).pc + 8) % 2 ^ 15) →
     EngGoes (.loop e n rot g count last) s e (withExc (eng s e) 2 (eng s e).pc 0)) ∧
   (∀ (c : Instr) (s : State) (e : Fin 1024) (rd : Fin 64) (f : EngS → Word × Bool), scalarOf c = some (e, rd, f) →
     (eng s e).ready = true → s.pwr.clocksStopped = false → (eng s e).slotB = none → (eng s e).impAcc = none →
     (eng s e).accov = none → (eng s e).size ≤ (eng s e).pc →
     EngGoes c s e (withExc (eng s e) 3 (eng s e).pc 0)))

/-- R121, R120, R126: entering a handler saves EPC, ECAUSE and EADDR, moves IE to PIE, clears IE, sets EXL and goes to CODE × 32; when EXL is
already set, or that address is not below the image size, the engine halts with an illegal-state fault. R122, R123, R119: an interrupt is taken
at a bundle boundary when its EIP and EIE bits are set, IE is 1, EXL is 0 and engine code has written ESTAT since task entry; of several the
lowest code is taken. The timer sets EIP.TIMER as ECYC reaches ECMP. -/
def Obligations.HandlerEntry : Prop :=
  (∀ (s : State) (e : Fin 1024) (c : EExc), (eng s e).exc = some c →
     let x := (eng s e).drain
     Ends (.handlerEntry e) s fun u => OnlyEngine s u e ∧
       (bitAt (x.srN Sr.ESTAT) 2 = false → c.code * 32 < x.size →
         eng u e =
           let y := (x.setSr Sr.EPC c.epc).setSr Sr.ECAUSE (c.code + if c.imprecise then 16 else 0)
           let y := match c.eaddr with
             | some a => y.setSr Sr.EADDR a
             | none => y
           { y.setSr Sr.ESTAT (2 * bits (x.srN Sr.ESTAT) 0 1 + 4) with pc := c.code * 32, exc := none }) ∧
       (bitAt (x.srN Sr.ESTAT) 2 = true ∨ x.size ≤ c.code * 32 → (eng s e).fault = none →
         eng u e = { x with exc := none, fault := some (3, 12, 0), slotB := none, frozen := none })) ∧
  ((∀ (s : State) (e : Fin 1024) (i : Fin 4),
     let x := eng s e
     x.ready = true → x.slotB = none → x.early = false → bitAt (x.srN Sr.ESTAT) 0 = true → bitAt (x.srN Sr.ESTAT) 2 = false →
     x.impAcc = none → x.accov = none → bitAt (x.srN Sr.EIP) i = true → bitAt (x.srN Sr.EIE) i = true →
     (∀ j, j < i.val → (bitAt (x.srN Sr.EIP) j && bitAt (x.srN Sr.EIE) j) = false) →
     Ends (.interruptAccept e) s fun u => OnlyEngine s u e ∧ eng u e = withExc x (12 + i) x.pc 0) ∧
   (∀ (s : State) (e : Fin 1024), let x := eng s e
     Ends (.irqTimer e) s fun u => OnlyEngine s u e ∧
       eng u e = ((x.setSr Sr.ECYC_LO (x.srN Sr.ECMP)).setSr Sr.ECYC_HI
         (x.srN Sr.ECYC_HI + if x.srN Sr.ECMP < x.srN Sr.ECYC_LO then 1 else 0)).setSr Sr.EIP (x.srN Sr.EIP ||| 2)))

/-- R140, R9, R15: MTS writes the writable bits of a special register, clears the bits written 1 of a W1C one and leaves a read-only one alone;
a reserved ESIZE, or a COUNT whose operand would exceed 512 bytes, leaves its field of VL. MFS reads the register; EID is the engine's number,
and a read of ECYC_LO holds ECYC_HI for the next read of it. -/
def Obligations.SpecialRegisters : Prop :=
  (∀ (s : State) (e : Fin 1024) (sr : Fin 128) (rs : Fin 64), calm s e = true → srExists sr = true → sr.val ≠ Sr.VL →
    let x := eng s e
    let y := if srMask sr = 0 then x else x.setSr sr (mtsWord sr (x.srN sr) (sreg x rs).toNat)
    EngGoes (.mts e false sr rs) s e { y.on with early := if sr.val = Sr.ESTAT then false else x.early }) ∧
  (∀ (s : State) (e : Fin 1024) (rs : Fin 64), calm s e = true →
    let x := eng s e
    let v := (sreg x rs).toNat
    let es := if bits v 10 2 = 3 then bits (x.srN Sr.VL) 10 2 else bits v 10 2
    let n := if bits v 0 10 * 2 ^ es * (1 + bits v 12 1) ≤ 512 then bits v 0 10 else bits (x.srN Sr.VL) 0 10
    EngGoes (.mts e false 21 rs) s e (x.setSr Sr.VL (n + 1024 * es + 4096 * bits v 12 1 + x.srN Sr.VL / 2 ^ 13 * 2 ^ 13)).on) ∧
  (∀ (s : State) (e : Fin 1024) (sr : Fin 128) (rd : Fin 64), calm s e = true → srExists sr = true →
    let x := eng s e
    (sr.val ≠ Sr.EID → sr.val ∉ [Sr.ECYC_LO, Sr.ECYC_HI, Sr.ETIME_LO, Sr.ETIME_HI] →
      EngGoes (.mfs e false rd sr) s e (setSreg x rd (x.sr.getD sr 0)).on) ∧
    (sr.val = Sr.EID → EngGoes (.mfs e false rd sr) s e (setSreg x rd (BitVec.ofNat 32 e)).on) ∧
    (sr.val = Sr.ECYC_LO →
      EngGoes (.mfs e false rd sr) s e { setSreg x rd (x.sr.getD Sr.ECYC_LO 0) with
        pc := (x.pc + 8) % 2 ^ 15, cycHi := some (x.sr.getD Sr.ECYC_HI 0) }) ∧
    (sr.val = Sr.ECYC_HI →
      EngGoes (.mfs e false rd sr) s e (setSreg x rd (x.cycHi.getD (x.sr.getD Sr.ECYC_HI 0))).on) ∧
    (sr.val = Sr.ETIME_LO ∨ sr.val = Sr.ETIME_HI → ∃ v u, Leads (.mfs e false rd sr) s u ∧
      (∀ k, k ≠ e.val → eng u k = eng s k) ∧
      (eng u e).rest = { setSreg x rd v with pc := (x.pc + 8) % 2 ^ 15, timHi := (eng u e).timHi }.rest ∧
      (sr.val = Sr.ETIME_HI → ∀ h, x.timHi = some h → v = h)))

/-! ## Signal engines: loads and stores -/

/-- R104, R110, R189, R190: LD and ST of an engine's own X, Y and instruction memory, in every size and addressing mode: the address of the
mode, sign or zero extension, the update of An, the bytes stored and no other. R114, R104: a misaligned LD or ST raises ALIGN, and one with a
byte outside the regions of R104 or in a disabled window raises ACCESS, with EADDR the access address; the bundle changes nothing else. -/
def Obligations.ScalarMemory : Prop :=
  ((∀ (s : State) (e : Fin 1024) (rt : Fin 64) (an : Fin 16) (mode sz : Fin 8) (disp : BitVec 10), calm s e = true →
     memForm mode sz rt disp.toNat = true → ¬(2 ≤ mode.val ∧ sz.val < 5 ∧ rt.val = 32 + an.val) →
     let x := eng s e
     let c := accessFor x mode an disp.toNat (disp.toInt * accBytes sz)
     c.aligned (accBytes sz) = true → ownBytes c (accBytes sz) = true → ownGood s e c (accBytes sz) = true →
     EngGoes (.ld e rt an mode sz disp) s e (loaded (withUpd x c.upd) sz rt (ownRead s e c (accBytes sz))).on) ∧
   (∀ (s : State) (e : Fin 1024) (rt : Fin 64) (an : Fin 16) (mode sz : Fin 8) (disp : BitVec 10), calm s e = true →
     memForm mode sz rt disp.toNat = true → sz ≠ 1 → sz ≠ 3 →
     let x := eng s e
     let c := accessFor x mode an disp.toNat (disp.toInt * accBytes sz)
     c.aligned (accBytes sz) = true → ownBytes c (accBytes sz) = true →
     StoreGoes (.st e rt an mode sz disp) s e (withUpd x c.upd).on
       (((upto (accBytes sz)).map c.byte).zip (storedBytes x sz rt)))) ∧
  (∀ (s : State) (e : Fin 1024) (rt : Fin 64) (an : Fin 16) (mode sz : Fin 8) (disp : BitVec 10), calm s e = true →
     memForm mode sz rt disp.toNat = true →
     let x := eng s e
     let c := accessFor x mode an disp.toNat (disp.toInt * accBytes sz)
     let code := if c.aligned (accBytes sz) then 5 else 4
     (c.aligned (accBytes sz) = false ∨ ((upto (accBytes sz)).any fun j => (place x e (c.byte j)).isNone) = true) →
     (¬(2 ≤ mode.val ∧ sz.val < 5 ∧ rt.val = 32 + an.val) →
       EngGoes (.ld e rt an mode sz disp) s e (withExc x code x.pc c.addr)) ∧
     (sz ≠ 1 → sz ≠ 3 → EngGoes (.st e rt an mode sz disp) s e (withExc x code x.pc c.addr)))

/-- R156, R160, R161: contiguous and structure loads and stores of an engine's own memories: every active element of every register comes from,
or goes to, the bytes of its record; inactive elements and other bytes stay; a first-faulting load without a fault is as the ordinary one. -/
def Obligations.VectorMemory : Prop :=
  (∀ (c : Instr) (s : State) (e : Fin 1024) (m : VMem), vloadOf c = some (e, m) → calm s e = true →
    ∀ ty, (eng s e).ty 0 = some ty → m.legal = true →
    let x := eng s e
    let a := accessFor x m.mode m.an m.disp m.imm
    a.aligned ty.part = true → ownRecs ty (preg x m.pg) a m.n = true → goodRecs s e ty (preg x m.pg) a m.n = true →
    EngGoes c s e (loadRecs s e ty (preg x m.pg) a m.vd m.n (withUpd x a.upd)).on) ∧
  (∀ (c : Instr) (s : State) (e : Fin 1024) (m : VMem), vstoreOf c = some (e, m) → calm s e = true →
    ∀ ty, (eng s e).ty 0 = some ty → m.legal = true →
    let x := eng s e
    let a := accessFor x m.mode m.an m.disp m.imm
    a.aligned ty.part = true → ownRecs ty (preg x m.pg) a m.n = true →
    StoreGoes c s e (withUpd x a.upd).on (storeRecs x ty (preg x m.pg) a m.vd m.n))

/-- R163: a gather writes every active element from the place of its index and a scatter every active element to it, of overlapping elements the
highest; inactive elements and other bytes stay. R157, R160: an element outside the regions of R104 raises VFAULT with VFX naming the lowest
one; in a first-faulting load it cuts the predicate and the load instead, sets VFX and raises nothing. -/
def Obligations.GatherScatter : Prop :=
  ((∀ (s : State) (e : Fin 1024) (ff : Bool) (vd : Fin 32) (an : Fin 16) (vi : Fin 32) (pg : Fin 8), calm s e = true →
     (ff = true → pg ≠ 0) →
     ∀ ty, (eng s e).ty 0 = some ty → ty.size ≠ 1 → 2 * ty.n ≤ 512 →
     let x := eng s e
     let at' := gatherAddr x ty an vi
     (∀ i, ty.active (preg x pg) i = true → at' i % ty.part = 0 ∧ at' i + ty.size ≤ 0x20000) →
     (∀ i, ty.active (preg x pg) i = true → damagedIn s (emBase e + at' i) ty.size = false) →
     EngGoes (if ff then .vgathFf e false vd an vi pg else .vgath e false vd an vi pg) s e
       (withVec x vd (ty.mask (preg x pg)) (packN (8 * ty.size) ((upto ty.n).map fun i =>
         leNat (memGetN s.mem (emBase e + at' i) ty.size)))).on) ∧
   (∀ (s : State) (e : Fin 1024) (vs : Fin 32) (an : Fin 16) (vi : Fin 32) (pg : Fin 8), calm s e = true →
     ∀ ty, (eng s e).ty 0 = some ty → ty.size ≠ 1 → 2 * ty.n ≤ 512 →
     let x := eng s e
     let at' := gatherAddr x ty an vi
     (∀ i, ty.active (preg x pg) i = true → at' i % ty.part = 0 ∧ at' i + ty.size ≤ 0x20000) →
     StoreGoes (.vscat e false false vs an vi pg) s e x.on
       ((((upto ty.n).filter (ty.active (preg x pg))).reverse).flatMap fun i =>
         ((upto ty.size).map (at' i + ·)).zip (leBytes ty.size (elemAt ty (vreg x vs) i))))) ∧
  ((∀ (s : State) (e : Fin 1024) (vd : Fin 32) (an : Fin 16) (pg : Fin 8) (disp : BitVec 11) (i : Nat), calm s e = true →
     ∀ ty, (eng s e).ty 0 = some ty →
     let x := eng s e
     let a := accessFor x 0 an disp.toNat disp.toInt
     a.aligned ty.part = true → ty.active (preg x pg) i = true → (∀ j, j < i → a.addr + (j + 1) * ty.size ≤ 0x28000) →
     0x28000 ≤ a.addr + i * ty.size → a.addr + ty.len ≤ 0x100000 →
     (∀ j, j < i → damagedIn s (emBase e + a.addr + j * ty.size) ty.size = false) →
     EngGoes (.vld e vd an 0 pg disp) s e
       ((withExc x 6 x.pc (a.addr + i * ty.size)).setSr Sr.VFX (512 + i)) ∧
     (pg ≠ 0 → EngGoes (.vldFf e vd an 0 pg disp) s e
       ((withVec { x with pred := x.pred.set pg (BitVec.ofNat 512 (preg x pg % 2 ^ (i * ty.size))) } vd
         (ty.mask (preg x pg % 2 ^ (i * ty.size))) (leNat (memGetN s.mem (emBase e + a.addr) (i * ty.size)))).setSr Sr.VFX
           (512 + i + x.srN Sr.VFX / 2 ^ 10 * 2 ^ 10)).on)))

/-- R106: a load from tile memory freezes its bundle, with nothing else changed, until the response brings the data; a store to tile memory is
posted and changes memory at its response, and nothing else; a store whose request is lost (TIMEOUT) is an engine fault at its local address. -/
def Obligations.TileMemory : Prop :=
  (∀ (s : State) (e : Fin 1024) (rt : Fin 64) (an : Fin 16) (mode sz : Fin 8) (disp : BitVec 10), calm s e = true →
    memForm mode sz rt disp.toNat = true → ¬(2 ≤ mode.val ∧ sz.val < 5 ∧ rt.val = 32 + an.val) →
    let x := eng s e
    let c := accessFor x mode an disp.toNat (disp.toInt * accBytes sz)
    let dev := tileBase (e / 8) + (c.byte 0 - 0x100000)
    c.aligned (accBytes sz) = true → 0x100000 ≤ c.byte 0 → c.byte 0 < 0x200000 → x.stores = [] → domSt s (e / 64) ≠ 1 →
    damagedIn s dev (accBytes sz) = false →
    ∃ u t, Leads (.ld e rt an mode sz disp) s u ∧ OnlyEngine s u e ∧ eng u e = { x with frozen := (eng u e).frozen } ∧
      exec (.ld e rt an mode sz disp) s = .next t ∧
      EngGoes (.engineLoadResponse e .delivered) t e
        (loaded (withUpd x c.upd) sz rt (leNat (memGetN s.mem dev (accBytes sz)))).on) ∧
  (∀ (s : State) (e : Fin 1024) (rt : Fin 64) (an : Fin 16) (mode sz : Fin 8) (disp : BitVec 10), calm s e = true →
    memForm mode sz rt disp.toNat = true → sz ≠ 1 → sz ≠ 3 →
    let x := eng s e
    let c := accessFor x mode an disp.toNat (disp.toInt * accBytes sz)
    c.aligned (accBytes sz) = true → 0x100000 ≤ c.byte 0 → c.byte 0 < 0x200000 →
    EngGoes (.st e rt an mode sz disp) s e
      { (withUpd x c.upd).on with
        seq := x.seq + 1
        stores := x.stores ++ [{ seq := x.seq, addr := c.byte 0, dev := tileBase (e / 8) + (c.byte 0 - 0x100000),
                                 data := storedBytes x sz rt, win := false }] }) ∧
  (∀ (s : State) (e : Fin 1024) (w : EStore) (rest : List EStore) (t o : Nat), (eng s e).stores = w :: rest → w.win = false →
    target w.dev = .tmem t o → domSt s (t / 8) ≠ 1 →
    Ends (.engineStoreResponse e .delivered) s fun u =>
      u = { s with eng := u.eng, mem := u.mem, damaged := u.damaged } ∧ eng u e = { eng s e with stores := rest } ∧
      (∀ k, k ≠ e.val → eng u k = eng s k) ∧
      ∀ a, memGet u.mem a = if w.dev ≤ a ∧ a < w.dev + w.data.length then w.data.getD (a - w.dev) 0 else memGet s.mem a) ∧
  (∀ (s : State) (e : Fin 1024) (w : EStore) (rest : List EStore), (eng s e).stores = w :: rest → w.win = true →
    (eng s e).base ≤ w.seq → (eng s e).task ≠ none → (eng s e).fault = none →
    Ends (.engineStoreResponse e .requestLost) s fun u =>
      (eng u e).fault = some (5, siteOf w.addr, w.addr) ∧ u.mem = s.mem)

/-! ## Signal engines: slot B -/

/-- R194, R195, R151: a slot B instruction that works part by part gives every active element the value of its operation, leaves inactive
elements, bytes beyond the operand and every other register as they are, and sets SST.VSAT exactly when a part of an active element saturates.
R154, R155, R194: narrowing, widening, selection, interleaving, permutes, duplication and the slide. R152, R153: the instructions that write
predicates write all 512 bits of them; PCNT and PFIRST write a G register. -/
def Obligations.VectorOperations : Prop :=
  ((∀ (c : Instr) (s : State) (e : Fin 1024) (f : EngS → Option BOut) (o : BOut),
      partsOf c = some (e, f) → calm s e = true → f (eng s e) = some o → BundleGoes c s e (o.apply (eng s e)).on) ∧
   (∀ (c : Instr) (s : State) (e : Fin 1024) (f : EngS → Option BOut) (o : BOut),
      movesOf c = some (e, f) → calm s e = true → f (eng s e) = some o → BundleGoes c s e (o.apply (eng s e)).on)) ∧
  (∀ (c : Instr) (s : State) (e : Fin 1024) (f : EngS → Option BOut) (o : BOut),
     predsOf c = some (e, f) → calm s e = true → f (eng s e) = some o → BundleGoes c s e (o.apply (eng s e)).on)

/-- R131, R132, R165 to R168: the accumulator instructions; with VCTL.ACCTRAP set, lanes that overflow also leave an ACCOV that falls due with
the address of the MAC's bundle. R170 to R172: block exponents, block shifts and the packing of mantissas of m bits, most significant bit first,
the last byte filled with zeros. -/
def Obligations.Accumulators : Prop :=
  (∀ (c : Instr) (s : State) (e : Fin 1024) (f : EngS → Option BOut) (o : BOut),
     accsOf c = some (e, f) → calm s e = true → f (eng s e) = some o →
     (bitAt ((eng s e).srN Sr.VCTL) 1 = false ∨ o.vst = 0 → BundleGoes c s e (o.apply (eng s e)).on) ∧
     (bitAt ((eng s e).srN Sr.VCTL) 1 = true → o.vst ≠ 0 →
       ∃ t v w, exec c s = .next t ∧ Leads (.nop e false false) t v ∧ (eng v e).rest.fl = [w] ∧ w.dst = .accov ∧
         w.val = (eng s e).pc ∧ { (eng v e).rest with fl := [] } = { (o.apply (eng s e)).on.rest with fl := [] })) ∧
  ((∀ (c : Instr) (s : State) (e : Fin 1024) (f : EngS → Option BOut) (o : BOut),
     bfpOf c = some (e, f) → calm s e = true → f (eng s e) = some o → BundleGoes c s e (o.apply (eng s e)).on) ∧
   (∀ (s : State) (e : Fin 1024) (vd va : Fin 32) (m1 : Fin 16) (ty : VTy), calm s e = true → bfpTy (eng s e) = some ty →
     let m := m1.val + 1
     let bytes := (ty.parts * m + 7) / 8
     ∃ v, BundleGoes (.vpkm e false vd va m1) s e
         (({ vec := some (vd, 2 ^ (8 * bytes) - 1, v) } : BOut).apply (eng s e)).on ∧
       (∀ j, j < ty.parts → msbField m j v = partOf ty (vreg (eng s e) va) j % 2 ^ m) ∧
       ∀ k, ty.parts * m ≤ k → k < 8 * bytes → bitAt v (k / 8 * 8 + (7 - k % 8)) = false))

/-- R137 to R139, R198: a floating-point instruction writes its result into bits 63 to 0 of Fd (or a G register) and sets the flags of FST.
Where IEEE 754 or the spec leaves a flag or a value open, the instruction completes all the same, and only Fd and FST change (log entry 111).
R137: rounding a number that the format holds gives that number, with no flag, and its bit pattern back. -/
def Obligations.FloatingPoint : Prop :=
  ((∀ (c : Instr) (s : State) (e : Fin 1024) (f : EngS → Option BOut) (o : BOut),
     floatsOf c = some (e, f) → calm s e = true → f (eng s e) = some o → BundleGoes c s e (o.apply (eng s e)).on) ∧
   (∀ (c : Instr) (s : State) (e : Fin 1024) (fd : Fin 32), openFloat c = some (e, fd) → calm s e = true →
     ∃ v fl, BundleGoes c s e (({ vec := some (fd, 2 ^ 64 - 1, v), fst := fl } : BOut).apply (eng s e)).on)) ∧
  (∀ (p : Bool) (v : Nat) (n : Bool) (m : Nat) (q : Int), v < 2 ^ (fmtOf p).width → (fmtOf p).decode v = .fin n m q → m ≠ 0 →
     (fmtOf p).round n m 1 q = { v := v, fl := 0, open' := 0 })

/-! ## Coprocessors -/

/-- R214 to R217: the instructions of the matrix unit: transposes, sums, the diagonal, products with CMCTL.SHIFT and rounding, accumulation into
MA, its readout, loads from a vector segment. The factorisations, whose internal order the spec leaves open (log entry 7), change their
destination and CMSTAT alone; those of CMCHOL and CMINVL are lower triangular. R219 to R222: the running CRC, the scrambling sequence and its
use, the interleaver and its inverse, CMST. -/
def Obligations.MatrixAndBitUnit : Prop :=
  ((∀ (c : Instr) (s : State) (e : Fin 1024) (f : EngS → Option (Cp0S → Cp0S)) (g : Cp0S → Cp0S),
     matrixOf c = some (e, f) → calm s e = true → f (eng s e) = some g →
     BundleGoes c s e { (eng s e).on with cp0 := g (eng s e).cp0 }) ∧
   (∀ (s : State) (e : Fin 1024) (op : Fin 3) (cd ca : Fin 16), calm s e = true →
     ∃ d : Cp0S, BundleGoes (if op = 0 then .cmchol e false cd ca else if op = 1 then .cminvl e false cd ca
         else .cminv e false cd ca) s e { (eng s e).on with cp0 := d } ∧
       d = { (eng s e).cp0 with cm := d.cm, stat := d.stat } ∧
       (∀ i, i ≠ cd.val → d.cm.getD i 0 = (eng s e).cp0.cm.getD i 0) ∧
       (op ≠ 2 → ∀ r k, r < k → k < 4 → cmAt d cd r k = (0, 0)) ∧
       (op ≠ 2 → ∀ r, r < 4 → (cmAt d cd r r).2 = 0))) ∧
  (∀ (c : Instr) (s : State) (e : Fin 1024) (f : EngS → Option BOut) (o : BOut),
     bitUnitOf c = some (e, f) → calm s e = true → f (eng s e) = some o → BundleGoes c s e (o.apply (eng s e)).on)

/-- R209, R210: MTC and MFC; CPSAVE stores the state image of its port in X or Y and nothing else; CPLOAD takes the state of its port from such
an image; a misaligned area raises ALIGN. R206, R208: the end of a port's computation makes the state that its confirmed instructions lead to
the port's state; a parity error in the unit then is an engine fault of kind 1 at the unit's site. -/
def Obligations.CoprocessorTransfers : Prop :=
  ((∀ (c : Instr) (s : State) (e : Fin 1024) (f : EngS → Option BOut) (o : BOut),
     transfersOf c = some (e, f) → calm s e = true → f (eng s e) = some o → BundleGoes c s e (o.apply (eng s e)).on) ∧
   (∀ (s : State) (e : Fin 1024) (port : Fin 4) (an : Fin 16), calm s e = true → port ≠ 2 → (port = 3 → (eng s e).grant = true) →
     let x := eng s e
     let a := (sreg x (32 + an)).toNat
     a % 64 = 0 → (a + imageSize port ≤ 0x10000 ∨ (0x10000 ≤ a ∧ a + imageSize port ≤ 0x20000)) →
     (∃ t, exec (.cpsave e false port an) s = .next t ∧ t.mem = s.mem ∧
       StoreGoes (.nop e false false) t e x.on (((upto (imageSize port)).map (a + ·)).zip (imageOf x port))) ∧
     (damagedIn s (emBase e + a) (imageSize port) = false →
       let bs := memGetN s.mem (emBase e + a) (imageSize port)
       BundleGoes (.cpload e false port an) s e
         (if port = 0 then { x.on with cp0 := cp0Of bs } else if port = 1 then { x.on with cp1 := cp1Of bs }
          else { x.on with cp3 := cp3Of x.cp3 bs }))) ∧
   (∀ (s : State) (e : Fin 1024) (port : Fin 4) (an : Fin 16), calm s e = true → port ≠ 2 → (port = 3 → (eng s e).grant = true) →
     let a := (sreg (eng s e) (32 + an)).toNat
     a % 64 ≠ 0 →
     BundleGoes (.cpsave e false port an) s e (withExc (eng s e) 4 (eng s e).pc a) ∧
     BundleGoes (.cpload e false port an) s e (withExc (eng s e) 4 (eng s e).pc a))) ∧
  (∀ (s : State) (e : Fin 1024) (parity : Bool),
     let x := eng s e
     (∀ c, x.cp0N = some c → Ends (.coprocessorDone e 0 parity) s fun u => OnlyEngine s u e ∧
       (parity = false → eng u e = { x with cp0 := c, cp0N := none }) ∧
       (parity = true → x.fault = none → (eng u e).fault = some (1, 9, 0) ∧ (eng u e).cp0 = x.cp0 ∧ (eng u e).cp0N = none)) ∧
     (∀ c, x.cp1N = some c → Ends (.coprocessorDone e 1 parity) s fun u => OnlyEngine s u e ∧
       (parity = false → eng u e = { x with cp1 := c, cp1N := none }) ∧
       (parity = true → x.fault = none → (eng u e).fault = some (1, 10, 0) ∧ (eng u e).cp1 = x.cp1 ∧ (eng u e).cp1N = none)) ∧
     (∀ c, x.cp3N = some c → Ends (.coprocessorDone e 3 parity) s fun u => OnlyEngine s u e ∧
       (parity = false → eng u e = { x with cp3 := c, cp3N := none }) ∧
       (parity = true → x.fault = none → (eng u e).fault = some (1, 11, 0) ∧ (eng u e).cp3 = x.cp3 ∧ (eng u e).cp3N = none)))

/-- R225 to R228: an accepted DMAP writes the LLRs of its symbols, clears DMREF.REASON and keeps the tile's CP3 busy until CP3_FREE; one that
CP3 refuses because another engine keeps it busy raises UNDEF, and DMREF tells the reason and counts. -/
def Obligations.Demapper : Prop :=
  (∀ (s : State) (e : Fin 1024) (vd va vb : Fin 32), calm s e = true →
    let x := eng s e
    let cfg := x.cp3.cfg.toNat
    let qm := cfg % 16
    let n := x.count
    x.grant = true → qm ∈ [1, 2, 4, 6, 8, 10] → cfg / 256 % 128 ≠ 0 → bits (x.srN Sr.VL) 10 3 = 5 → n * qm ≤ 512 → 4 * n ≤ 512 →
    (bitAt cfg 4 = true ∨ vb = 0) →
    let busy := (cp3U s (e / 8)).busy
    unitSt s (uCp3 (e / 8)) = 0 → fenced s (uCp3 (e / 8)) = false →
    let r := fun j => clipTo (cfg / 256 % 128) (llrValue qm (j % qm) (x.cp3.scale.toNat % 2 ^ 16)
      (if bitAt cfg 4 then bits (vreg x vb) (16 * (j / qm)) 16 else 2 ^ 15)
      (sgn 16 (bits (vreg x va) (32 * (j / qm)) 16)) (sgn 16 (bits (vreg x va) (32 * (j / qm) + 16) 16)))
    ∃ u t, Leads (.dmap e false vd va vb) s u ∧ OnlyEngine s u e ∧ eng u e = { x with slotB := (eng u e).slotB } ∧
      exec (.dmap e false vd va vb) s = .next t ∧
      Ends (.nop e false false) t fun v =>
        v = { t with eng := v.eng, fresh := v.fresh, cp3 := v.cp3 } ∧ (∀ k, k ≠ e.val → eng v k = eng s k) ∧
        (busy = none ∨ busy = some e.val →
          cp3U v (e / 8) = ⟨some e, e % 8⟩ ∧ (∀ k, k ≠ e.val / 8 → cp3U v k = cp3U s k) ∧
          (eng v e).rest = (({
            vec := some (vd, 2 ^ (8 * (n * qm)) - 1, packN 8 ((upto (n * qm)).map fun j => wrapN 8 (r j).1))
            cp3 := some { x.cp3 with
              ref := x.cp3.ref &&& 0xFFFFFFFC
              stat := if (upto (n * qm)).any fun j => (r j).2 then x.cp3.stat ||| 1 else x.cp3.stat } } : BOut).apply x).on.rest) ∧
        (∀ b, busy = some b → b ≠ e.val → v.cp3 = s.cp3 ∧
          (eng v e).rest = (withExc { x with cp3 := { x.cp3 with
            ref := BitVec.ofNat 32 (1 + x.cp3.ref.toNat / 4 % 2 ^ 14 * 4 + (x.cp3.ref.toNat / 2 ^ 16 + 1) % 2 ^ 16 * 2 ^ 16) } }
              1 x.pc 0).rest)) ∧
  (∀ (s : State) (t : Fin 128), Ends (.cp3Free t) s fun u => u = { s with cp3 := u.cp3 } ∧
    cp3U u t = { cp3U s t with busy := none } ∧ ∀ k, k ≠ t.val → cp3U u k = cp3U s k)

/-! ## Timelines -/

/-- R49, R50: at a boundary TL_NEXT advances by TL_PERIOD plus the signed TL_ADJ, TL_SLOTNUM by one, an ADJ that was not 0 goes to 0 and sets
ADJ_DONE; the palettes of the timeline whose slot start has come become active, the running CXUs that follow the timeline have a SYNC pending,
and nothing else changes. -/
def Obligations.TimelineBoundary : Prop :=
  ∀ (s : State) (n : Fin 64), tlRuns s n = true → reached (copyMax s 20 % 2 ^ 48) (tlNext s n) = true →
    (tl s n).prepared = true → (tl s n).chosen = none →
    let adj := sgn 8 (fld s (Reg.TL_ADJ n) F.TL_ADJ_ADJ)
    Ends (.tlBoundary n) s fun u =>
      rd64 u (Reg.TL_NEXT_LO n) = wrapN 48 ((tlNext s n : Int) + tlPeriod s n + adj) ∧
      rd u (Reg.TL_SLOTNUM n) = rd s (Reg.TL_SLOTNUM n) + 1 ∧
      (adj ≠ 0 → fld u (Reg.TL_ADJ n) F.TL_ADJ_ADJ = 0 ∧ rd u (Reg.TL_EVT n) = rd s (Reg.TL_EVT n) ||| 16) ∧
      (adj = 0 → rd u (Reg.TL_ADJ n) = rd s (Reg.TL_ADJ n) ∧ rd u (Reg.TL_EVT n) = rd s (Reg.TL_EVT n)) ∧
      SameRegsBut [Reg.TL_NEXT_LO n, Reg.TL_NEXT_HI n, Reg.TL_SLOTNUM n, Reg.TL_ADJ n, Reg.TL_EVT n] s u ∧
      tl u n = { tl s n with prepared := false } ∧ (∀ k, k ≠ n.val → tl u k = tl s k) ∧
      u.tln.pals = s.tln.pals.map (fun p =>
        if p.tl = n.val ∧ p.active = false ∧ reached (copyMax s 20 % 2 ^ 48) p.start = true then { p with active := true } else p) ∧
      (∀ k : Fin 32, cxu u k =
        if cxuRun s k = true ∧ isSet s (Reg.CXU_SYNC k) F.CXU_SYNC_TL_EN = true ∧ fld s (Reg.CXU_SYNC k) F.CXU_SYNC_TL = n then
          { cxu s k with tlSyncs := (cxu s k).tlSyncs ++ [tlNext s n] }
        else cxu s k) ∧
      u = { s with regs := u.regs, cxu := u.cxu, tln := { s.tln with tls := u.tln.tls, pals := u.tln.pals } }

/-- R56: at the prepare point of a slot an empty ring without a held repeat entry gives an empty slot, counted; a valid entry whose slot number
is the coming one is consumed, replaces the held repeat entry, and is chosen for the slot with TL_ADV as it stands; before its time a prepare
point does nothing. R57: the entry chosen at a prepare point is INVALID when a reserved bit is set, its palette is not validated for the owner,
or the horizon exceeds four periods, and its slot is reported; a palette that passes, here one without INGRESS buffers and JOIN records, is
bound: it joins the palettes with its slot, its start and the header read, and every EGRESS buffer gets a transmit binding at slot start plus
its TIME minus TL_ADV. -/
def Obligations.PreparePoint : Prop :=
  ((∀ (s : State) (n : Fin 64), prepareDue s n = false → Leads (.tlPreparePoint n) s s) ∧
   (∀ (s : State) (n : Fin 64), prepareDue s n = true → noRelease s = true → (tl s n).chosen = none → (tl s n).held = none →
     tlHead s n = tlTail s n →
     Ends (.tlPreparePoint n) s fun u =>
       rd u (Reg.TL_EMPTY_CNT n) = rd s (Reg.TL_EMPTY_CNT n) + 1 ∧ rd u (Reg.TL_EVT n) = rd s (Reg.TL_EVT n) ||| 2 ∧
       SameRegsBut [Reg.TL_EMPTY_CNT n, Reg.TL_EVT n] s u ∧
       tl u n = { tl s n with prepared := true, adv := fld s (Reg.TL_ADV n) F.TL_ADV_VALUE } ∧ (∀ k, k ≠ n.val → tl u k = tl s k) ∧
       u = { s with regs := u.regs, tln := { s.tln with tls := u.tln.tls } }) ∧
   (∀ (s : State) (n : Fin 64) (b : List Byte), prepareDue s n = true → noRelease s = true → (tl s n).chosen = none →
     tlHead s n ≠ tlTail s n →
     (let s1 := updTl s n fun t => { t with prepared := true, adv := fld s (Reg.TL_ADV n) F.TL_ADV_VALUE }
      fabRead s1 (tlnIssuer (tlOwner s n)) (ringBase s n + tlHead s n * 32) 32 = (OKAY, b, s1)) →
     let e := decodeRing b (feature s (tlOwner s n) 4)
     e.valid = true → e.slot = tlSlot s n →
     Ends (.tlPreparePoint n) s fun u =>
       (tl u n).chosen = some (e, tlSlot s n, tlNext s n) ∧ (tl u n).held = (if e.rep then some e else none) ∧
       (tl u n).prepared = true ∧ (tl u n).adv = fld s (Reg.TL_ADV n) F.TL_ADV_VALUE ∧ (∀ k, k ≠ n.val → tl u k = tl s k) ∧
       u.regs = (setFld s (Reg.TL_HEAD n) F.TL_HEAD_INDEX ((tlHead s n + 1) % ringSize s n)).regs ∧
       u = { s with regs := u.regs, fresh := u.fresh, tln := { s.tln with tls := u.tln.tls } })) ∧
  ((∀ (s : State) (n : Fin 64), (tl s n).chosen = none → noRelease s = true → Leads (.paletteBind n) s s) ∧
   (∀ (s : State) (n : Fin 64) (e : RingEntry) (slot start : Nat), (tl s n).chosen = some (e, slot, start) →
     (e.rsv = true ∨ (s.hif.valid.any fun v => decide (v.addr = e.pal ∧ v.func = tlOwner s n)) = false ∨
       4 * tlPeriod s n < (readHdr s e.pal).horizon) →
     Leads (.paletteBind n) s (releaseSettle (refuseSlot
       (evt (inc (updTl s n fun t => { t with chosen := none }) (Reg.TL_INVAL_CNT n)) (Reg.TL_EVT n) F.TL_EVT_INVALID) n slot e.stat 2))) ∧
   (∀ (s : State) (n : Fin 64) (e : RingEntry) (slot start : Nat), (tl s n).chosen = some (e, slot, start) → noRelease s = true →
     e.rsv = false → (s.hif.valid.any fun v => decide (v.addr = e.pal ∧ v.func = tlOwner s n)) = true →
     let h := readHdr s e.pal
     let p : Pal :=
       { key := s.tln.nextKey, tl := n, slot := slot, start := start, addr := e.pal, param := e.param, stat := e.stat, adv := (tl s n).adv
         period := tlPeriod s n, hdr := h }
     h.horizon ≤ 4 * tlPeriod s n →
     (s.tln.pals.filter fun p => decide (p.tl = n.val) && p.live).length < 4 → (s.tln.pals.filter Pal.live).length < 256 →
     (∀ i, i < h.bufs → (bufEnt s p i).kind ≠ kINGRESS ∧ bindOk s (tlOwner s n) p (bufEnt s p i) = true) →
     (∀ i, i < h.tasks → (decodeRec (recBytes s p i)).cls ≠ 4) →
     Ends (.paletteBind n) s fun u =>
       u.tln.pals = s.tln.pals ++ [p] ∧ u.tln.nextKey = s.tln.nextKey + 1 ∧ tl u n = { tl s n with chosen := none } ∧
       (∀ k, k ≠ n.val → tl u k = tl s k) ∧
       (u.lnk.tx.map fun d => (d.pal, d.buf, d.slot, d.t)) = (s.lnk.tx.map fun d => (d.pal, d.buf, d.slot, d.t)) ++
         ((upto h.bufs).filter fun i => decide ((bufEnt s p i).kind = kEGRESS)).map (fun i =>
           (p.key, i, slot, wrapN 48 ((start : Int) + (bufEnt s p i).time - (tl s n).adv))) ∧
       u = { s with
         tln := { s.tln with nextKey := u.tln.nextKey, pals := u.tln.pals, tls := u.tln.tls }
         lnk := { s.lnk with tx := u.lnk.tx } }))

/-- R52, R53, R54, R566: TL_CTL.EN going to 1 loads TL_NEXT from TL_START and skips whole periods, counted in TL_SLOTNUM, until it lies in the
future; TLN_CTL.EN going to 1 does so from TL_NEXT for every enabled timeline; either going to 0 changes nothing else; a write of TL_TAIL counts
in direct mode only. -/
def Obligations.TimelineControl : Prop :=
  (∀ (s : State) (w : Requester) (n : Fin 64), direct s w (Reg.TL_CTL n) = true → isSet s (Reg.TL_CTL n) F.TL_CTL_EN = false →
    rd64 s (Reg.TL_START_LO n) < 2 ^ 48 → 0 < tlPeriod s n →
    let now := (copyNow s 20).1
    let x := rd64 s (Reg.TL_START_LO n)
    Ends (.tlEnable w n) s fun u =>
      rd u (Reg.TL_CTL n) = rd s (Reg.TL_CTL n) ||| 1 ∧ (tl u n).prepared = false ∧
      (∃ k, rd64 u (Reg.TL_NEXT_LO n) = (x + k * tlPeriod s n) % 2 ^ 48 ∧
        rd u (Reg.TL_SLOTNUM n) = rd s (Reg.TL_SLOTNUM n) + BitVec.ofNat 32 k ∧ (reached now x = false → k = 0)) ∧
      reached now (tlNext u n) = false ∧
      SameRegsBut [Reg.TL_CTL n, Reg.TL_NEXT_LO n, Reg.TL_NEXT_HI n, Reg.TL_SLOTNUM n] (taken s w) u ∧
      u.tln.pals = s.tln.pals ∧ u.mem = s.mem) ∧
  (∀ (s : State) (w : Requester) (n : Fin 64), direct s w (Reg.TL_CTL n) = true →
    Leads (.tlDisable w n) s (setFld (taken s w) (Reg.TL_CTL n) F.TL_CTL_EN 0)) ∧
  (∀ (s : State) (w : Requester), direct s w Reg.TLN_CTL = true → isSet s Reg.TLN_CTL F.TLN_CTL_EN = false →
    Ends (.tlnEnable w) s fun u =>
      isSet u Reg.TLN_CTL F.TLN_CTL_EN = true ∧
      ∀ n : Fin 64,
        (isSet s (Reg.TL_CTL n) F.TL_CTL_EN = false →
          rd64 u (Reg.TL_NEXT_LO n) = tlNext s n ∧ rd u (Reg.TL_SLOTNUM n) = rd s (Reg.TL_SLOTNUM n)) ∧
        (isSet s (Reg.TL_CTL n) F.TL_CTL_EN = true → tlNext s n < 2 ^ 48 →
          ∃ k, rd64 u (Reg.TL_NEXT_LO n) = (tlNext s n + k * tlPeriod s n) % 2 ^ 48 ∧
            rd u (Reg.TL_SLOTNUM n) = rd s (Reg.TL_SLOTNUM n) + BitVec.ofNat 32 k)) ∧
  (∀ (s : State) (w : Requester), direct s w Reg.TLN_CTL = true →
    Leads (.tlnDisable w) s (setFld (taken s w) Reg.TLN_CTL F.TLN_CTL_EN 0)) ∧
  (∀ (s : State) (w : Requester) (n : Fin 64) (v : Word), direct s w (Reg.TL_TAIL n) = true →
    Leads (.tlTailWrite w n v) s
      (if tlDirect s n then setFld (taken s w) (Reg.TL_TAIL n) F.TL_TAIL_INDEX (getF v F.TL_TAIL_INDEX % ringSize s n) else taken s w))

/-! ## Tasks -/

/-- R68, R69: the next record of the first palette that is not held goes to the queue of its tile, which is its HOME tile when that is up, has
room and is not at risk; when every tile of its mask is full its palette is held; a held palette goes on once a place exists. R70, R71, R64,
R81: a parked task goes to a tile that is up; a task's START makes it started, and a JOIN whose predecessors are all done resolves as done; at
its CLOSE an INGRESS buffer is closed, and counted when it lacks sections; a thief takes one task from the first victim that has one for it. -/
def Obligations.TaskDelivery : Prop :=
  ((∀ (s : State) (p : Pal) (t : Nat), s.tln.handed = [] →
     (s.tln.pals.find? fun p => !p.held && decide (p.next < p.hdr.tasks)) = some p →
     let k := taskKey p.key p.next
     let r := decodeRec (recBytes s p p.next)
     (task s k).phase = .pending → recFault s p p.next (recBytes s p p.next) = none → cascades s p.key r = false →
     placedAt s p r = some t →
     Ends .recordDelivery s fun u => Delivered s u k t r ∧
       u.tln.pals = s.tln.pals.map fun q => if q.key = p.key then { q with next := p.next + 1 } else q) ∧
   (∀ (s : State) (p : Pal) (r : TaskRec), r.home < 128 → bitAt r.mask r.home = true → tileUp s r.home = true →
     hasRoom s r.home r.prio = true → atRisk s p r.home = false → placedAt s p r = some r.home) ∧
   (∀ (s : State) (p : Pal), s.tln.handed = [] →
     (s.tln.pals.find? fun p => !p.held && decide (p.next < p.hdr.tasks)) = some p →
     let r := decodeRec (recBytes s p p.next)
     (task s (taskKey p.key p.next)).phase = .pending → recFault s p p.next (recBytes s p p.next) = none →
     cascades s p.key r = false → placedFull s p r = true →
     Leads .recordDelivery s (updPal (evt s (Reg.TSU_EVT r.home) F.TSU_EVT_QFULL) p.key fun q => { q with held := true })) ∧
   (∀ (s : State) (ref : PalRef) (p : Pal), palAt s ref.tl ref.slot.toNat = some p → p.held = true →
     (s.tln.handed.filter fun k => decide (k / 8192 = p.key)) = [] →
     Leads (.qfullRelease ref) s
       (if placedFull s p (decodeRec (recBytes s p p.next)) then s else updPal s p.key fun q => { q with held := false }))) ∧
  ((∀ (s : State) (ref : TaskRef) (p q : Pal) (t : Nat), palAt s ref.tl ref.slot.toNat = some p →
     let k := taskKey p.key ref.id
     palOf s k = some q → (task s k).phase = .parked → placedAt s q (task s k).tr = some t →
     Ends (.parkedTaskDelivery ref) s fun u => Delivered s u k t (task s k).tr ∧ u.tln.pals = s.tln.pals) ∧
   (∀ (s : State) (ref : TaskRef) (p q : Pal), palAt s ref.tl ref.slot.toNat = some p →
     let k := taskKey p.key ref.id
     let t := task s k
     palOf s k = some q → t.started = false → t.phase ≠ .pending → t.phase ≠ .done → t.phase ≠ .missed → t.phase ≠ .join →
     calmPal s p.key = true →
     reached (copyMax s (if t.phase = .queued then t.tile / 8 else 20) % 2 ^ 48) (absStart q t.tr) = true →
     Leads (.taskStartTime ref) s (updTask s k fun t => { t with started := true })) ∧
   (∀ (s : State) (ref : TaskRef) (p q : Pal), palAt s ref.tl ref.slot.toNat = some p →
     let k := taskKey p.key ref.id
     let t := task s k
     palOf s k = some q → t.started = false → t.phase = .join → t.recoatRun = false →
     (s.tln.tasks.all fun e => decide (e.1 / 8192 ≠ p.key) || decide (e.1 = k) ||
       (decide (e.2.phase ≠ .missed) && decide (e.2.phase ≠ .join))) = true →
     predsOver s p.key t.tr = true → reached (copyMax s 20 % 2 ^ 48) (absStart q t.tr) = true →
     Ends (.taskStartTime ref) s fun u => (task u k).phase = .done ∧ u.regs = s.regs ∧ u.mem = s.mem ∧ u.eng = s.eng) ∧
   (∀ (s : State) (ref : PalRef) (i : Fin 16384) (p : Pal), palAt s ref.tl ref.slot.toNat = some p → p.told = false →
     let b := buf s (bufKey p.key i)
     b.ingress = true → b.closed = false → reached (copyMax s 23 % 2 ^ 48) b.close = true →
     Ends (.ingressClose ref i) s fun u =>
       buf u (bufKey p.key i) = { b with closed := true } ∧
       u.tln.pals = (if bufComplete s p.key i then s.tln.pals
         else s.tln.pals.map fun q => if q.key = p.key then { q with ingressInc := q.ingressInc + 1 } else q) ∧
       (∀ e ∈ u.lnk.rx, ∀ d ∈ e.2, d.pal = p.key → d.buf = i → d.closed = true) ∧
       u = { s with tln := { s.tln with pals := u.tln.pals, bufs := u.tln.bufs }, lnk := { s.lnk with rx := u.lnk.rx } }) ∧
   (∀ (s : State) (t : Fin 128) (cls : Fin 4) (v k : Nat), tileUp s t = true → holdsReady s t cls = false →
     (cls = 3 ∨ ((tileEngs t).any fun e => engReady s e && runsClass s e cls) = true) →
     ((victims s t).find? fun v => (tileQueue s v).any (stealable s t v cls)) = some v →
     (tileQueue s v).filter (stealable s t v cls) = [k] → (task s k).stolen = false →
     Ends (.steal t cls) s fun u =>
       task u k = { task s k with tile := t, stolen := true, enq := (copyNow s (t / 8)).1 } ∧ (∀ j, j ≠ k → task u j = task s j) ∧
       rd u (Reg.TSU_STEAL_OUT_CNT v) = rd s (Reg.TSU_STEAL_OUT_CNT v) + 1 ∧
       rd u (Reg.TSU_STEAL_IN_CNT t) = rd s (Reg.TSU_STEAL_IN_CNT t) + 1 ∧
       SameRegsBut [Reg.TSU_STEAL_OUT_CNT v, Reg.TSU_STEAL_IN_CNT t] s u ∧
       u.tln.pals = s.tln.pals.map (fun q => if q.key = k / 8192 then { q with stolen := q.stolen + 1 } else q) ∧
       u = { s with
         regs := u.regs, fresh := s.fresh + 1, tim := { s.tim with copies := u.tim.copies }
         tln := { s.tln with tasks := u.tln.tasks, pals := u.tln.pals } }))

/-- R72 to R76: the only ready task that an engine may run is bound to its buffers and runs on the engine from its program's ENTRY when the
image is there; otherwise the engine is held for it until the image has been brought from the tile's program cache. -/
def Obligations.TaskDispatch : Prop :=
  (∀ (s : State) (t : Fin 128) (i : Fin 8) (k : Nat) (p : Pal) (as ws : List Nat),
    let e := t.val * 8 + i.val
    let r := (task s k).tr
    let refs := resolveRefs s p r
    mayDispatch s t = true → engReady s e = true →
    ((tileQueue s t).filter fun k => taskReady s k && runsClass s e (task s k).tr.cls) = [k] → palOf s k = some p →
    refs.all (refOk s p.hdr.func) = true → allocate t refs [] = some (as, ws) →
    let t' := { task s k with
      refs := refs, g2 := missedMask s p r, prog := progEnt s p r.prog, eng := some e, reason := 0, requeue := false }
    Ends (.taskDispatch t i) s fun u =>
      rd u (Reg.TSU_DISP_CNT t) = rd s (Reg.TSU_DISP_CNT t) + 1 ∧ SameRegsBut [Reg.TSU_DISP_CNT t] s u ∧ u.mem = s.mem ∧
      (∀ j, j ≠ k → task u j = task s j) ∧ (∀ x, x ≠ e → eng u x = eng s x) ∧
      (imageThere s e (progEnt s p r.prog) = true →
        task u k = { t' with phase := .running, limitFrom := (task u k).limitFrom } ∧
        Entered (eng u e) p k t' (absDeadline s p r) as ws) ∧
      (imageThere s e (progEnt s p r.prog) = false →
        task u k = { t' with phase := .loading } ∧
        eng u e = { eng s e with st := 3, task := some k, run := false, image := none })) ∧
  (∀ (s : State) (e : Fin 1024) (k : Nat) (p : Pal) (x : Nat × Nat × Nat) (as ws : List Nat),
    let t := task s k
    (eng s e).task = some k → t.phase = .loading → palOf s k = some p →
    ((pcache s (e / 8)).find? fun x => decide (x.1 = t.prog.1 ∧ t.prog.2.1 ≤ x.2.2)) = some x →
    firstDamage s (tileBase (e / 8) + x.2.1) t.prog.2.1 = none → allocate (e / 8) t.refs [] = some (as, ws) →
    Ends (.programLoadDone e) s fun u =>
      (∀ j, j < t.prog.2.1 → memGet u.mem (emBase e + 0x20000 + j) = memGet s.mem (tileBase (e / 8) + x.2.1 + j)) ∧
      (∀ a, a < emBase e + 0x20000 ∨ emBase e + 0x20000 + t.prog.2.1 ≤ a → memGet u.mem a = memGet s.mem a) ∧
      u.regs = s.regs ∧ (∀ y, y ≠ e.val → eng u y = eng s y) ∧ (∀ j, j ≠ k → task u j = task s j) ∧
      task u k = { t with phase := .running, eng := some e.val, limitFrom := (task u k).limitFrom } ∧
      (eng u e).image = some t.prog.1 ∧ Entered (eng u e) p k t (absDeadline u p t.tr) as ws)

/-- R77, R83, R87, R254: at TEND, with every store answered and every job finished, a task that is on time is done and its EGRESS and HOST
outputs are committed, one that is late is missed with reason DEADLINE; the engine is READY. A HARQ commit header is written by its response,
and a lost one counts as COMMIT_ERR while the task is done all the same. R89: once the last task of a palette has resolved its status block is
written, its SLOT_DONE posted, and its tasks are gone; so is the palette, unless an INGRESS buffer of it is open. -/
def Obligations.TaskCompletion : Prop :=
  ((∀ (s : State) (e : Fin 1024) (k : Nat) (p : Pal),
     let x := eng s e
     let late := Machine.dist (copyNow s (e / 64)).1 (absDeadline s p (task s k).tr)
     x.task = some k → (task s k).phase = .running → x.run = true → x.ended = true → x.slotB = none → x.fault = none → x.exc = none →
     (x.stores.any fun w => decide (x.base ≤ w.seq)) = false → jobsLeft s e = false → discards s (uEng e) = false → x.st ≠ 0 →
     x.storeErr = false → (task s k).charge = none → palOf s k = some p → (task s k).recoatRun = false →
     (late ≤ 0 → calmPal s (k / 8192) = true → (task s k).commits = [] →
       (∀ o ∈ (task s k).tr.outs, ∀ i, o = some i → (bufEnt s p i).kind ≠ kHARQ) →
       Ends (.taskCompletion e) s fun u =>
         (task u k).phase = .done ∧ Freed (eng u e) ∧ u.regs = s.regs ∧ u.mem = s.mem ∧ (∀ j, j ≠ k → task u j = task s j) ∧
         (∀ o ∈ (task s k).tr.outs, ∀ i, o = some i → (bufEnt s p i).kind = kEGRESS ∨ (bufEnt s p i).kind = kHOST →
           (buf u (bufKey p.key i)).committed = true) ∧
         (u.tln.pals.map fun q => q.done) = s.tln.pals.map fun q => q.done + if q.key = p.key then 1 else 0) ∧
     (0 < late → aloneIn s k = true → p.tl < 64 → (task s k).tile < 128 →
       Ends (.taskCompletion e) s fun u => MissedHere s u p k 1 ∧ Freed (eng u e) ∧ u.mem = s.mem)) ∧
   (∀ (s : State) (ref : TaskRef) (p q : Pal) (a : Nat) (bs : List Byte), palAt s ref.tl ref.slot.toNat = some p →
     let k := taskKey p.key ref.id
     palOf s k = some q → (task s k).phase = .committing → (task s k).commits = [(a, bs)] → (task s k).recoatRun = false →
     calmPal s p.key = true →
     (∀ s', fabWrite s (supIssuer (task s k).tile q.hdr.func) a bs = (OKAY, s') →
       Ends (.harqCommitResponse ref false true) s fun u => (task u k).phase = .done ∧ u.mem = s'.mem ∧ u.regs = s'.regs) ∧
     Ends (.harqCommitResponse ref true false) s fun u =>
       (task u k).phase = .done ∧ u.mem = s.mem ∧ isSet u (Reg.TSU_EVT (task s k).tile) F.TSU_EVT_COMMIT_ERR = true)) ∧
  (∀ (s : State) (ref : PalRef) (p : Pal) (now c : Nat) (s' : State), palAt s ref.tl ref.slot.toNat = some p → p.resolved = some now →
     p.told = false →
     fabWrites 40 s (tlnIssuer (tlOwner s p.tl)) (statAddr p.stat p.slot) (statHead p.slot 0 now (some p) ++ reasonBytes s p) = (c, s') →
     Ends (.slotDone ref) s fun u =>
       u.mem = s'.mem ∧ (p.tl, p.slot) ∈ u.hif.reported ∧ (∀ e ∈ u.tln.tasks, e.1 / 8192 ≠ p.key) ∧
       (s.tln.tasks.filter fun e => decide (e.1 / 8192 ≠ p.key)) = u.tln.tasks ∧
       ((s.tln.bufs.any fun e => decide (e.1 / 16384 = p.key) && e.2.ingress && !e.2.closed) = false → ∀ q ∈ u.tln.pals, q.key ≠ p.key))

/-- R83, R127, R79: at its deadline a queued task is missed with reason DEADLINE, and a running one is stopped: its engine is asked to halt. A
halted engine gives its bundle address to ECP_PC and is READY; its task is missed with the reason it was stopped for, or goes back to its queue
when it was preempted. -/
def Obligations.TaskStop : Prop :=
  (∀ (s : State) (ref : TaskRef) (p q : Pal), palAt s ref.tl ref.slot.toNat = some p →
    let k := taskKey p.key ref.id
    let t := task s k
    palOf s k = some q → ref.id < q.hdr.tasks → t.phase = .queued ∨ t.phase = .running → t.recoatRun = false →
    reached (copyMax s (t.tile / 8) % 2 ^ 48) (absDeadline s q t.tr) = true →
    (t.phase = .queued → aloneIn s k = true → q.tl < 64 → t.tile < 128 →
      Ends (.taskDeadline ref) s fun u => MissedHere s u q k 1 ∧ u.mem = s.mem ∧ u.eng = s.eng) ∧
    (∀ e, t.phase = .running → t.eng = some e → (s.job.list.all fun j => decide (j.q < 4)) = true →
      Ends (.taskDeadline ref) s fun u =>
        task u k = { t with phase := .stopping, reason := 1 } ∧ isSet u (Reg.TSU_EVT t.tile) F.TSU_EVT_DL_STOP = true ∧
        eng u e = { eng s e with halt := true, st := if (eng s e).st = 3 then 4 else (eng s e).st } ∧ u.mem = s.mem)) ∧
  (∀ (s : State) (e : Fin 1024) (k : Nat) (p : Pal),
    let x := eng s e
    x.halt = true → cancelDone s e = true → unitSt s (uEng e) = 0 → x.st ≠ 0 → x.task = some k → (task s k).eng = some e.val →
    (task s k).phase = .stopping → (task s k).recoatRun = false → waitingRecoat s e = none → palOf s k = some p → aloneIn s k = true →
    p.tl < 64 → (task s k).tile < 128 →
    ((task s k).requeue = false → (task s k).reason ≠ 0 →
      Ends (.engineHalted e) s fun u =>
        MissedHere s u p k (task s k).reason ∧ Freed (eng u e) ∧ fld u (Reg.ECP_PC (e / 8) (e % 8)) F.ECP_PC_ADDR = x.pc / 8 % 2 ^ 12) ∧
    ((task s k).requeue = true → domLive s ((task s k).tile / 8) = true →
      Ends (.engineHalted e) s fun u =>
        (task u k).phase = .queued ∧ (task u k).eng = none ∧ (task u k).requeue = false ∧ Freed (eng u e) ∧ u.mem = s.mem))

/-! ## DMA -/

/-- R342, R343: a supervisor dispatches its only ready DMA-class task when a channel is free for every pair; the task waits for the entries of
its PARAM buffers, or its channels start at once. The read of an entry gives a pair its address and its COUNT; the last one starts the channels,
and an entry that cannot be had, or is not good, ends the task as missed. -/
def Obligations.DmaTasks : Prop :=
  (∀ (s : State) (t : Fin 128) (k : Nat) (p : Pal), mayDispatch s t = true →
    ((tileQueue s t).filter fun k => decide ((task s k).tr.cls = 3) && taskReady s k) = [k] → palOf s k = some p →
    let r := (task s k).tr
    let refs := resolveRefs s p r
    (pairsOf r).length ≤ (dmaChannels s t).length → refs.all (refOk s p.hdr.func) = true →
    let ps := ((pairsOf r).zip (dmaChannels s t)).map fun x => makePair s p r x.1 x.2
    let s1 := updTask (inc s (Reg.TSU_DISP_CNT t)) k fun x =>
      { x with refs := refs, pairs := ps, phase := .loading, eng := none, reason := 0 }
    Leads (.dmaTaskDispatch t) s (if ps.any fun x => x.needIn || x.needOut then s1 else startDma s1 k p)) ∧
  (∀ (s : State) (ref : TaskRef) (j : Fin 4) (out : Bool) (p q : Pal) (x : DmaPair), palAt s ref.tl ref.slot.toNat = some p →
    let k := taskKey p.key ref.id
    let t := task s k
    let iss := supIssuer t.tile q.hdr.func
    let a := if out then x.dst else x.src
    palOf s k = some q → t.phase = .loading → t.eng = none → (t.pairs.find? fun x => decide (x.j = j.val)) = some x →
    (if out then x.needOut else x.needIn) = true →
    Leads (.paramEntryRead ref j out true) s (resolve (nocFail s iss a TIMEOUT) k 9) ∧
    ∀ c b s', fabRead s iss a 16 = (c, b, s') →
      (c = PARERR → Leads (.paramEntryRead ref j out false) s (resolve s' k 7)) ∧
      (c ≠ PARERR → c ≠ OKAY ∨ leAt b 12 4 ≠ 0 ∨ 16777216 < leAt b 8 4 →
        Leads (.paramEntryRead ref j out false) s (resolve s' k 9)) ∧
      (c = OKAY → leAt b 12 4 = 0 → leAt b 8 4 ≤ 16777216 →
        let y := if out then { x with dst := leAt b 0 8, cout := leAt b 8 4, needOut := false }
          else { x with src := leAt b 0 8, cin := leAt b 8 4, needIn := false }
        let s1 := updTask s' k fun t => { t with pairs := t.pairs.map fun z => if z.j = j.val then y else z }
        Leads (.paramEntryRead ref j out false) s
          (if (task s1 k).pairs.any fun x => x.needIn || x.needOut then s1 else startDma s1 k q)))

/-- R326, R328, R334, R338: START of an idle channel begins the transfer that its registers describe, or the fetch of the first descriptor of a
chain; a transfer of 0 bytes is done at once, and one outside the address space halts with BAD_DESC. STOP of a running channel, and its stop
timeout, drain it with STOPPED. -/
def Obligations.DmaControl : Prop :=
  (∀ (s : State) (w : Requester) (c : Fin 128) (v : Word), direct s w (chReg c Reg.CH_CTRL) = true →
    (rd s (chReg c Reg.CH_CTRL)).toNat < 2 ^ 30 → startable s c = true → (chDisp s c = false ∨ ∃ t, w = .sup t) → freeChan s c = true →
    let good := rangeOk (getF v F.CH_CTRL_SRC_HOST = 1) (chSrc s c) (chCount s c) &&
      rangeOk (getF v F.CH_CTRL_DST_HOST = 1) (chDst s c) (chCount s c)
    (good = true → chCount s c ≠ 0 → chCfg s c F.CH_CFG_REQ_EN = 0 →
      Ends (.dmaStart w c v) s fun u => chState u c = 1 ∧ chErr u c = 0 ∧ rd u (chReg c Reg.CH_DONE_BYTES) = 0 ∧
        rd u (chReg c Reg.CH_DESC_CNT) = 0 ∧ (chan u c).active = true ∧ u.mem = s.mem ∧ u.hostMem = s.hostMem) ∧
    (good = true → chCount s c = 0 →
      Ends (.dmaStart w c v) s fun u => chState u c = 0 ∧ chErr u c = 0 ∧ isSet u (chReg c Reg.CH_EVT) F.CH_EVT_DONE = true ∧
        u.mem = s.mem ∧ u.hostMem = s.hostMem) ∧
    (good = false →
      Ends (.dmaStart w c v) s fun u => chState u c = 4 ∧ chErr u c = eBADDESC ∧ isSet u (chReg c Reg.CH_EVT) F.CH_EVT_ERROR = true ∧
        u.mem = s.mem ∧ u.hostMem = s.hostMem) ∧
    Ends (.dmaChainStart w c v) s fun u => chState u c = 1 ∧ chErr u c = 0 ∧ (chan u c).fetch = true ∧
      rd u (chReg c Reg.CH_DESC_CNT) = 0 ∧ u.mem = s.mem ∧ u.hostMem = s.hostMem) ∧
  (∀ (s : State) (w : Requester) (c : Fin 128) (v : Word), direct s w (chReg c Reg.CH_CTRL) = true → chBusy s c = true →
    noDmaTask s = true →
    Ends (.dmaStop w c v) s fun u =>
      chState u c = 3 ∧ chErr u c = (if chErr s c = 0 then eSTOPPED else chErr s c) ∧
      chan u c = { chan s c with poly := 7, active := false, data := [] } ∧ u.mem = s.mem ∧ u.hostMem = s.hostMem) ∧
  (∀ (s : State) (c : Fin 128), chBusy s c = true → (chan s c).stopAt = true → noDmaTask s = true →
    Ends (.dmaStopTimeout c) s fun u =>
      chState u c = 3 ∧ chErr u c = (if chErr s c = 0 then eSTOPPED else chErr s c) ∧
      chan u c = { chan s c with poly := 7, active := false, data := [] } ∧
      SameRegsBut [chReg c Reg.CH_STATUS] s u ∧ u = { s with regs := u.regs, dma := u.dma })

/-- R334, R336, R337, R332, R339, R340: a descriptor read is loaded into the channel's registers; an access of the transfer is answered: a
read's bytes enter the CRC, a write's bytes are in memory and counted; when all are answered the channel is done, or halts with its error; a
request word sets the level, and a channel that waits for it runs on. R348: a DMA engine that faults is fenced; its sixteen channels are FENCED
with FAULT, and nothing of them is left outstanding. -/
def Obligations.DmaProgress : Prop :=
  ((∀ (s : State) (c : Fin 128) (b : List Byte) (s' : State), (chan s c).fetch = true → chErr s c = 0 → chState s c = 1 →
     noDmaTask s = true →
     chRead .delivered s c (chCtl s c F.CH_CTRL_NEXT_HOST = 1) (rd64 s (chReg c Reg.CH_DESC_LO)) 64 = (OKAY, b, s') →
     chDescOk s' c b = true → chCfg s c F.CH_CFG_REQ_EN = 0 → leAt b 0x10 4 ≠ 0 →
     Ends (.dmaDescriptorFetched c .delivered) s fun u =>
       chSrc u c = leAt b 0 8 ∧ chDst u c = leAt b 8 8 ∧ chCount u c = leAt b 0x10 4 ∧ (chan u c).fetch = false ∧
       (chan u c).next = leAt b 0x18 8 ∧ (chan u c).active = true ∧ u.mem = s'.mem ∧ u.hostMem = s'.hostMem) ∧
   (∀ (s : State) (c : Fin 128) (off n : Nat) (rest : List (Nat × Nat)) (bs : List Byte) (s' : State), (chan s c).reads = (off, n) :: rest →
     chBusy s c = true → chErr s c = 0 → noDmaTask s = true →
     chRead .delivered s c (chCtl s c F.CH_CTRL_SRC_HOST = 1) (chSrc s c + off) n = (OKAY, bs, s') →
     Ends (.dmaAccessResponse c false .delivered) s fun u =>
       (chan u c).crc = (if (chan s c).poly = 7 then (chan s c).crc else crcBytes (chan s c).poly (chan s c).crc bs) ∧
       u.mem = s'.mem ∧ u.hostMem = s'.hostMem) ∧
   (∀ (s : State) (c : Fin 128) (off : Nat) (bs : List Byte) (rest : List (Nat × List Byte)) (s' : State),
     (chan s c).writes = (off, bs) :: rest → (chan s c).wb = false → chBusy s c = true → chErr s c = 0 → noDmaTask s = true →
     (if chCtl s c F.CH_CTRL_DST_HOST = 1 then (OKAY, hostWrite s ((chDst s c + off) % 2 ^ 64) bs)
       else writeVia .delivered s (dmaIssuer s c) ((chDst s c + off) % 2 ^ 48) bs) = (OKAY, s') →
     rd s' (chReg c Reg.CH_STATUS) = rd s (chReg c Reg.CH_STATUS) → chCount s' c = chCount s c → unitSt s' (uDma (c / 16)) = 0 →
     s'.dma = s.dma → noDmaTask s' = true →
     Ends (.dmaAccessResponse c true .delivered) s fun u =>
       rd u (chReg c Reg.CH_DONE_BYTES) = BitVec.ofNat 32 (min (off + bs.length) (chCount s c)) ∧ (chan u c).wDone = off + bs.length ∧
       u.mem = s'.mem ∧ u.hostMem = s'.hostMem) ∧
   (∀ (s : State) (c : Fin 128), chState s c = 3 → (chan s c).reads = [] → (chan s c).writes = [] → (chan s c).fetch = false →
     freeChan s c = true →
     Ends (.dmaDrainDone c) s fun u =>
       (chErr s c = 0 → chState u c = 0 ∧ isSet u (chReg c Reg.CH_EVT) F.CH_EVT_DONE = true ∧
         (chChain s c = false → chCount s c ≠ 0 → crcStores s c 1 = true →
           rd u (chReg c Reg.CH_CRC_RESULT) = BitVec.ofNat 32 (crcRead (chan s c).poly (chan s c).crc))) ∧
       (chErr s c ≠ 0 → chState u c = 4 ∧ chErr u c = chErr s c ∧ isSet u (chReg c Reg.CH_EVT) F.CH_EVT_ERROR = true ∧
         rd u (Reg.DMA_ERR_CNT (c / 16)) = rd s (Reg.DMA_ERR_CNT (c / 16)) + 1) ∧ u.mem = s.mem ∧ u.hostMem = s.hostMem) ∧
   (∀ (s : State) (c : Fin 128) (p : Poster) (v : Word),
     let a := 0x200000000000 + c.val / 32 * 0x100000000 + 0x60000000 + c.val / 16 % 2 * 0x10000 + c.val % 16 * 0x40
     precheck s (posterIssuer s p) a 4 true = (OKAY, false) →
     Leads (.dmaRequestWordWrite c p v) s (setFld (wakeIdle s (16 + c / 32)) (chReg c Reg.CH_STATUS) F.CH_STATUS_LEVEL (v.toNat % 2))) ∧
   (∀ (s : State) (c : Fin 128), chState s c = 2 → isSet s (chReg c Reg.CH_STATUS) F.CH_STATUS_LEVEL = true → (chan s c).active = true →
     (chan s c).wrOff ≠ (chan s c).total → (chan s c).data = [] → noDmaTask s = true →
     Ends (.dmaWaitreqResume c) s fun u => chState u c = 1 ∧ u.mem = s.mem ∧ u.hostMem = s.hostMem ∧ u.eng = s.eng)) ∧
  (∀ (s : State) (d : Fin 8) (illegal : Bool), discards s (uDma d) = false → domLive s (16 + d / 2) = true →
     (∀ c, c < 16 → freeChan s (d * 16 + c) = true) →
     Ends (.dmaUnitFault d illegal) s fun u =>
       (∀ c, c < 16 → fld u (Reg.CH_STATUS d c) F.CH_STATUS_STATE = 5 ∧ fld u (Reg.CH_STATUS d c) F.CH_STATUS_ERR = eFAULT ∧
         (chan u (d * 16 + c)).active = false ∧ (chan u (d * 16 + c)).reads = [] ∧ (chan u (d * 16 + c)).writes = []) ∧
       fenced u (uDma d) = true ∧ unitSt u (uDma d) ≠ 0 ∧
       rd u (Reg.DMA_ERR_CNT d) = rd s (Reg.DMA_ERR_CNT d) + 16 ∧ u.mem = s.mem ∧ u.hostMem = s.hostMem)

/-! ## Faults of engines and tiles -/

/-- R491, R498, R512, R314: an engine's fault is recorded in its control port, with the steward and with the recorder, counted unless it is a
limit or reports damage in tile memory or a window; the engine is fenced and asked to halt, and its unit is out of service. A task that ran
there is recoated on a target that is READY. -/
def Obligations.EngineFault : Prop :=
  ∀ (s : State) (e : Fin 1024) (parity : Bool) (site : Fin 16) (addr : Word) (kind st a : Nat),
    faultOf s e parity site addr.toNat = some (kind, st, a) → kind < 16 → st < 16 → discards s (uEng e) = false →
    (unit s (uEng e)).mute = 0 → jobsIn s = true → waitingRecoat s e = none →
    let r := Reg.ECP_FLT (e / 8) (e % 8)
    ((eng s e).task = none →
      Ends (.engineFault e parity site addr) s fun u =>
        fld u r F.ECP_FLT_KIND = kind ∧ fld u r F.ECP_FLT_SITE = st ∧
        fld u r F.ECP_FLT_FCNT = (fld s r F.ECP_FLT_FCNT + 1) % 2 ^ 16 ∧
        rd u (Reg.ECP_FADDR (e / 8) (e % 8)) = BitVec.ofNat 32 a ∧
        fld u (Reg.ECP_PC (e / 8) (e % 8)) F.ECP_PC_ADDR = (eng s e).pc / 8 % 2 ^ 12 ∧
        rd u (Reg.STW_FLT_CNT (e / 64)) = rd s (Reg.STW_FLT_CNT (e / 64)) + 1 ∧
        isSet u (Reg.STW_EVT (e / 64)) F.STW_EVT_FAULT = true ∧
        rd u Reg.RAS_ENG_FLT_CNT =
          rd s Reg.RAS_ENG_FLT_CNT + (if kind = 2 ∨ (kind = 1 ∧ (st = 13 ∨ st = 14)) then 0 else 1) ∧
        fenced u (uEng e) = true ∧ unitSt u (uEng e) ≠ 0 ∧ eng u e = { eng s e with halt := true, fault := none } ∧
        (∀ x, x ≠ e.val → eng u x = eng s x) ∧ u.mem = s.mem) ∧
    (∀ k x, (eng s e).task = some k → (task s k).phase = .running → (task s k).recoatRun = false →
      isSet s Reg.RAS_CTL F.RAS_CTL_RECOAT_EN = true → chooseTarget s k e = some x → spareTask s x = none → (kind ≠ 1 ∨ st < 13) →
      Ends (.engineFault e parity site addr) s fun u =>
        (task u k).phase = .recoat ∧ (task u k).target = some x ∧ (task u k).faulty = e ∧ (task u k).recoatRun = true ∧
        rd u Reg.RAS_RECOAT_CNT = rd s Reg.RAS_RECOAT_CNT + 1 ∧ isSet u Reg.RAS_EVT F.RAS_EVT_RECOAT = true ∧
        (eng u e).task = none ∧ (eng u e).halt = true ∧ (eng u x).task = some k ∧ (eng u x).st = 3 ∧ (eng u x).run = false)

/-- R481, R491, R78, R492, R495: an engine that has not halted in time is reset; the expiry of a task's limit is counted and is a fault of kind
LIMIT, which is not counted against the engine, and the expiry of a recoat run is recorded against its program. A recoated task runs on its
target from the start once the fence, the cancellation and the load are complete. -/
def Obligations.RecoatAndLimit : Prop :=
  (∀ (s : State) (e : Fin 1024), (eng s e).halt = true → unitSt s (uEng e) ≠ 0 →
    Ends (.haltTimeout e) s fun u =>
      (eng u e).run = false ∧ (eng u e).halt = false ∧ (eng u e).frozen = none ∧ (eng u e).slotB = none ∧ (eng u e).exc = none ∧
      (∀ w ∈ (eng u e).stores, w ∈ (eng s e).stores) ∧ (∀ x, x ≠ e.val → eng u x = eng s x) ∧
      u = { s with eng := u.eng, fresh := u.fresh }) ∧
  (∀ (s : State) (e : Fin 1024) (k : Nat) (p : Pal),
    let t := task s k
    (eng s e).task = some k → palOf s k = some p → t.phase = .running → (eng s e).run = true →
    0 ≤ Machine.dist (copyMax s (e / 64) % 2 ^ 48) (t.limitFrom + runLimit s t (e / 8)) → t.shortLimit = false → jobsIn s = true →
    waitingRecoat s e = none →
    (t.recoatRun = false → isSet s Reg.RAS_CTL F.RAS_CTL_RECOAT_EN = false → discards s (uEng e) = false → aloneIn s k = true →
      p.tl < 64 → t.tile < 128 →
      Ends (.tskLimitExpiry e) s fun u =>
        rd u (Reg.TSU_LIMIT_CNT (e / 8)) = rd s (Reg.TSU_LIMIT_CNT (e / 8)) + 1 ∧
        fld u (Reg.ECP_FLT (e / 8) (e % 8)) F.ECP_FLT_KIND = 2 ∧ rd u Reg.RAS_ENG_FLT_CNT = rd s Reg.RAS_ENG_FLT_CNT ∧
        (task u k).phase = .missed ∧ (task u k).reason = 9 ∧ fenced u (uEng e) = true ∧ (eng u e).halt = true) ∧
    (t.recoatRun = true → t.eng = some e.val →
      Ends (.tskLimitExpiry e) s fun u =>
        rd u (Reg.TSU_LIMIT_CNT (e / 8)) = rd s (Reg.TSU_LIMIT_CNT (e / 8)) + 1 ∧
        rd u Reg.RAS_PROG_OVR_CNT = rd s Reg.RAS_PROG_OVR_CNT + 1 ∧ isSet u Reg.RAS_EVT F.RAS_EVT_PROG_OVR = true ∧
        task u k = { t with phase := .stopping, reason := 8, charge := none } ∧ (eng u e).halt = true)) ∧
  (∀ (s : State) (ref : TaskRef) (p q : Pal) (x : Nat) (as ws : List Nat), palAt s ref.tl ref.slot.toNat = some p →
    let k := taskKey p.key ref.id
    let t := task s k
    palOf s k = some q → t.phase = .recoat → t.target = some x → t.loaded = true → (eng s x).task = some k → (eng s x).run = false →
    (fence s (uEng t.faulty)).st = 3 → cancelDone s t.faulty = true → (eng s t.faulty).halt = false →
    allocate (x / 8) t.refs [] = some (as, ws) →
    Ends (.recoatDispatch ref) s fun u =>
      rd u (Reg.TSU_DISP_CNT (x / 8)) = rd s (Reg.TSU_DISP_CNT (x / 8)) + 1 ∧ SameRegsBut [Reg.TSU_DISP_CNT (x / 8)] s u ∧
      task u k = { t with tile := x / 8, phase := .running, eng := some x, limitFrom := (task u k).limitFrom } ∧
      Entered (eng u x) q k t (absDeadline s q t.tr) as ws ∧ (∀ y, y ≠ x → eng u y = eng s y) ∧ u.mem = s.mem)

/-- R496, R502, R512: a lost tile and its eight engines are fenced and out of service. A fenced engine returns through the ready handshake with
its memories cleared, its generation advanced and its fence lifted. HALT and RESET act through the control port, and DOORBELL sets EIP.DOORBELL. -/
def Obligations.TileLossAndReturn : Prop :=
  (∀ (s : State) (t : Fin 128) (kind : TileFault), (fence s (uTile t)).st = 0 → s.tln.tasks = [] →
    (∀ e, e / 8 = t.val → (eng s e).task = none) → jobsIn s = true →
    (kind = .limit → unitSt s (uTile t) ≠ 0) → (kind ≠ .limit → discards s (uTile t) = false ∧ (unit s (uTile t)).mute = 0) →
    Ends (.tileLost t kind) s fun u =>
      fenced u (uTile t) = true ∧ unitSt u (uTile t) ≠ 0 ∧ isSet u (Reg.STW_EVT (t / 8)) F.STW_EVT_TILE_LOST = true ∧
      (∀ e, e / 8 = t.val → fenced u (uEng e) = true ∧ unitSt u (uEng e) ≠ 0 ∧ eng u e = { eng s e with halt := true }) ∧
      (∀ e, e / 8 ≠ t.val → eng u e = eng s e) ∧ u.mem = s.mem ∧
      (kind ≠ .limit → rd u Reg.RAS_TILE_FLT_CNT = rd s Reg.RAS_TILE_FLT_CNT + 1)) ∧
  (∀ (s : State) (e : Fin 1024),
    let x := uEng e
    unitSt s x = 1 → (fence s x).st = 3 → (eng s e).halt = false → cancelDone s e = true → unitSt s (uTile (e / 8)) = 0 →
    domLive s (e / 64) = true → (unit s x).gen = (unit s x).shadowGen → nothingWaits s = true →
    Ends (.readyHandshake (BitVec.ofNat 16 x) true true false) s fun u =>
      unitSt u x = 0 ∧ fenced u x = false ∧ (unit u x).gen = ((unit s x).gen + 1) % 256 ∧
      rd u (Reg.STW_HS_CNT (e / 64)) = rd s (Reg.STW_HS_CNT (e / 64)) + 1 ∧
      (∀ a, emBase e ≤ a → a < emBase e + 0x28000 → memGet u.mem a = 0) ∧
      (∀ a, a < emBase e ∨ emBase e + 0x28000 ≤ a → memGet u.mem a = memGet s.mem a) ∧
      eng u e = { st := 2, seq := (eng s e).seq, stores := (eng s e).stores } ∧ (∀ y, y ≠ e.val → eng u y = eng s y)) ∧
  (∀ (s : State) (w : Requester) (e : Fin 1024), direct s w (Reg.ECP_CTL (e / 8) (e % 8)) = true →
    rd s (Reg.ECP_CTL (e / 8) (e % 8)) = 0 → unitSt s (uEng e) = 0 → (eng s e).st = 2 ∨ (eng s e).st = 3 →
    (Ends (.ecpHalt w e) s fun u => (eng u e).halt = true ∧ (eng u e).st = (if (eng s e).st = 3 then 4 else 2) ∧ u.mem = s.mem) ∧
    ((eng s e).task = none → waitingRecoat s e = none →
      Ends (.ecpReset w e) s fun u => (eng u e).run = false ∧ (eng u e).halt = false ∧ (eng u e).fl = [] ∧ unitSt u (uEng e) = 1 ∧
        fenced u (uEng e) = true ∧ (unit u (uEng e)).total = (unit s (uEng e)).total ∧ u.mem = s.mem) ∧
    (Ends (.ecpDoorbell w e) s fun u => (eng u e).sr = ((eng s e).setSr Sr.EIP ((eng s e).srN Sr.EIP ||| 1)).sr ∧ u.mem = s.mem ∧
      u.tln = s.tln))

/-! ## Jobs of the coding and FFT units -/

/-- R232, R234, R253, R289: a descriptor written to a job port is accepted and queued when posting is enabled, the descriptor passes its checks
and the queue has room; otherwise the job ends with REJECTED or BAD_DESC. A write that the fabric refuses posts nothing. R239, R257, R258: the
last write of a cancelled job is performed and the job is gone. A parity error, an illegal state or the watchdog fences a unit and is counted;
the job that ran there is queued again, once, for another unit, or ends with FAULT. -/
def Obligations.JobPosting : Prop :=
  (∀ (s : State) (q : Fin 4) (p : Poster) (d0 : BitVec 512), ∀ x ∈ postCmds q p d0,
     let c := x.1
     let k := x.2.1.code
     let d := x.2.2
     let iss := posterIssuer s p
     let j : JobS := { id := s.job.next, q := q, kind := k, eng := iss.eng, func := iss.func, desc := d }
     let full := decide (queueCap k ≤ (queued s q k).length)
     let post := isSet s (jCtl q k) F.FEC_CTL_POST_EN
     (portCode s q x.2.1 p ≠ OKAY → Ends c s fun u => u.job = s.job ∧ u.mem = s.mem ∧ u.eng = s.eng) ∧
     (portCode s q x.2.1 p = OKAY → post = true → descOk k d = true → full = false →
       Leads c s { wakeIdle s (16 + q) with job := { list := s.job.list ++ [j], next := s.job.next + 1 } }) ∧
     (portCode s q x.2.1 p = OKAY → post = false ∨ descOk k d = false ∨ full = true →
       let status := if post = true ∧ descOk k d = false then jBADDESC else jREJECTED
       Ends c s fun u =>
         JobEnded s u j status ∧ u.job.next = s.job.next + 1 ∧ u.mem = s.mem ∧ (dF d 0 4 1 = 0 → u.eng = s.eng) ∧
         (status = jREJECTED →
           rd u (jobReg q k (Reg.FEC_REJECT_CNT 0) (Reg.FFT_REJECT_CNT 0)) =
             rd s (jobReg q k (Reg.FEC_REJECT_CNT 0) (Reg.FFT_REJECT_CNT 0)) + 1 ∧ isSet u (jEvt q k) F.FEC_EVT_REJECT = true) ∧
         (status = jBADDESC → isSet u (jEvt q k) F.FEC_EVT_BAD_DESC = true))) ∧
  ((∀ (s : State) (e : Fin 1024) (j : JobS) (a : Nat) (bs : List Byte) (rest : List (Nat × List Byte)),
     (s.job.list.filter fun j => decide (j.eng = some e.val) && j.cancelled) = [j] → job? s j.id = some j → j.phase = .writing →
     j.writes = (a, bs) :: rest →
     Leads (.jobCancelComplete e) s (dropJob (writeVia .delivered s j.issuer a bs).2 j.id)) ∧
   (∀ (s : State) (q : Fin 4) (k : JobKind) (i : Fin 8) (illegal : Bool), i.val < unitsOf k.code → domLive s (16 + q) = true →
     let x := jobUnit q k.code i
     discards s x = false → (unit s x).mute = 0 →
     let cnt := jobReg q k.code (Reg.FEC_FAULT_CNT 0) (Reg.FFT_FAULT_CNT 0)
     let Faulted (kind : Nat) (u : State) : Prop :=
       rd u cnt = rd s cnt + 1 ∧ isSet u (jEvt q k.code) F.FEC_EVT_UNIT_FAULT = true ∧ (unit u x).kind = kind ∧
       rd u Reg.RAS_UNIT_FLT_CNT = rd s Reg.RAS_UNIT_FLT_CNT + 1 ∧ fenced u x = true ∧ unitSt u x ≠ 0 ∧ u.mem = s.mem
     (runsOn s q k.code i = none →
       (Ends (.fecUnitFault q k i illegal) s fun u => Faulted (if illegal then 3 else 1) u ∧ u.job = s.job ∧ u.eng = s.eng) ∧
       Leads (.jobWatchdog q k i) s s) ∧
     (∀ j, runsOn s q k.code i = some j → j.phase = .work →
       ∀ c ∈ [(Instr.fecUnitFault q k i illegal, if illegal then 3 else 1), (Instr.jobWatchdog q k i, 9)],
         (isSet s (jCtl q k.code) F.FEC_CTL_REPLAY_EN = true → j.replayed = false →
           ((upto (unitsOf k.code)).any fun n => decide (n ≠ i.val) && unitUp s q k.code n) = true →
           Ends c.1 s fun u => Faulted c.2 u ∧ OtherJobs s u j.id ∧
             { id := j.id, q := q, kind := k.code, eng := j.eng, func := j.func, desc := j.desc, replayed := true } ∈ u.job.list) ∧
         (isSet s (jCtl q k.code) F.FEC_CTL_REPLAY_EN = false ∨ j.replayed = true ∨
           ((upto (unitsOf k.code)).any fun n => decide (n ≠ i.val) && unitUp s q k.code n) = false → noTaskOf s j = true →
           Ends c.1 s fun u => Faulted c.2 u ∧ JobEnded s u j jFAULT))))

/-- R235, R236, R237, R240: a READY unit takes the first job of its queue, which starts to read, or ends with LATE when its START_BY has passed.
Each answered read adds its bytes; the work then gives the writes; the last answered write, or the work when it writes nothing, ends the job
with OK, an error response with ACCESS or PARERR. The job is over when its record is answered, and NOTIFY sets EIP.NOTIFY. -/
def Obligations.JobRun : Prop :=
  (∀ (s : State) (q : Fin 4) (k : JobKind) (i : Nat) (j : JobS),
    firstFrom (fun i => unitUp s q k.code i && (runsOn s q k.code i).isNone) (unitsOf k.code) 0 = some i →
    fenced s (uDom (16 + q)) = false → s.pwr.clocksStopped = false →
    let t := (copyNow s (16 + q)).1
    let late := decide (j.f 0 5 1 = 0 ∧ 0 < sgn 32 (t % 2 ^ 32 + 2 ^ 32 - j.f 4 0 32))
    firstJob t (queued s q k.code) = some j →
    (late = false → Ends (.jobStart q k) s fun u =>
      ({ j with unit := some i, ran := some i, stale := false, newbuf := false, soft := none }.enter 0) ∈ u.job.list ∧ OtherJobs s u j.id ∧
      fld u (unitReg q k.code i) F.FEC_UNIT_JOBS = (fld s (unitReg q k.code i) F.FEC_UNIT_JOBS + 1) % 2 ^ 16 ∧
      SameRegsBut [unitReg q k.code i] s u ∧ u.mem = s.mem ∧ u.eng = s.eng) ∧
    (late = true → Ends (.jobStart q k) s fun u => JobEnded s u j jLATE ∧ isSet u (jEvt q k.code) F.FEC_EVT_LATE = true ∧ u.mem = s.mem)) ∧
  (∀ (s : State) (i : Fin 16384) (d : Delivery) (j : JobS), s.job.list[i.val]? = some j → job? s j.id = some j →
    (∀ st a n rest c bs s', j.phase = .reading st → j.reads = (a, n) :: rest → readVia d s j.issuer a n = (c, bs, s') →
      (c ≠ OKAY → noTaskOf s j = true → Ends (.jobAccessResponse i d) s fun u =>
        JobEnded s u j (if c = PARERR then jPARERR else jACCESS) ∧ u.mem = s'.mem) ∧
      (c = OKAY → rest ≠ [] → Leads (.jobAccessResponse i d) s (setJob s' { j with reads := rest, got := j.got ++ bs })) ∧
      (c = OKAY → rest = [] → 2 ≤ st → Ends (.jobAccessResponse i d) s fun u =>
        { j with reads := [], got := j.got ++ bs, phase := .work } ∈ u.job.list ∧ OtherJobs s u j.id ∧ u.mem = s'.mem)) ∧
    (∀ a bs rest c s', j.phase = .writing → j.cancelled = false → j.writes = (a, bs) :: rest → writeVia d s j.issuer a bs = (c, s') →
      (c = OKAY → rest ≠ [] → Leads (.jobAccessResponse i d) s (setJob s' { j with writes := rest })) ∧
      (c = OKAY → rest = [] → j ∈ s'.job.list →
        Ends (.jobAccessResponse i d) s fun u => JobEnded s' u j jOK ∧ u.mem = s'.mem) ∧
      (c ≠ OKAY → j ∈ s'.job.list →
        Ends (.jobAccessResponse i d) s fun u => JobEnded s' u j jACCESS ∧ u.mem = s'.mem)) ∧
    (∀ a bs rest e c s', j.phase = .record → j.writes = (a, bs) :: rest → writeVia d s j.issuer a bs = (c, s') → j.eng = some e →
      Ends (.jobAccessResponse i d) s fun u =>
        (∀ x ∈ u.job.list, x.id ≠ j.id) ∧ OtherJobs s' u j.id ∧ u.mem = s'.mem ∧
        (eng u e).sr = if j.f 0 4 1 = 1 then ((eng s e).setSr Sr.EIP ((eng s e).srN Sr.EIP ||| 8)).sr else (eng s e).sr)) ∧
  (∀ (s s' : State) (i : Fin 16384) (j j' : JobS), s.job.list[i.val]? = some j → job? s j.id = some j → j.phase = .work →
    s.pwr.clocksStopped = false → jobWork s j = some (j', s') →
    (j'.writes ≠ [] → Leads (.jobFinish i) s (setJob s' { j' with phase := .writing })) ∧
    (j'.writes = [] → Ends (.jobFinish i) s fun u => JobEnded s u j jOK ∧ u.mem = s.mem))

/-! ## Carrier extraction units -/

/-- R275, R276, R278, R279, R284: EN going to 1 samples and checks the configuration and starts the unit with a SYNC, or sets CFG_ERR; EN going
to 0 stops it at its next sample; GO requests a SYNC. A switch request is checked, waits for its time or starts a fade, or is held or dropped. A
write of a bank in use is refused and recorded. -/
def Obligations.CxuControl : Prop :=
  (∀ (s : State) (w : Requester) (n : Fin 32), direct s w (Reg.CXU_CTL n) = true →
    (isSet s (Reg.CXU_CTL n) F.CXU_CTL_EN = false →
      let x := cxuSampled s n
      (unitSt s (uCxu n) ≠ 0 → Leads (.cxuEnable w n) s (setFld (taken s w) (Reg.CXU_CTL n) F.CXU_CTL_EN 1)) ∧
      (unitSt s (uCxu n) = 0 → cxuGood s n x = false →
        Leads (.cxuEnable w n) s
          (evt (setFld (taken s w) (Reg.CXU_CTL n) F.CXU_CTL_EN 1) (Reg.CXU_STAT n) F.CXU_STAT_CFG_ERR)) ∧
      (unitSt s (uCxu n) = 0 → cxuGood s n x = true →
        Ends (.cxuEnable w n) s fun u =>
          rd u (Reg.CXU_CTL n) = rd s (Reg.CXU_CTL n) ||| 1 ∧ cxuRun u n = true ∧ isSet u (Reg.CXU_STAT n) F.CXU_STAT_CFG_ERR = false ∧
          isSet u (Reg.CXU_STAT n) F.CXU_STAT_LEVEL = false ∧ inUse u n = fld s (Reg.CXU_BANK n) F.CXU_BANK_START ∧ swSt u n = 0 ∧
          isSet u (Reg.CXU_BANK n) F.CXU_BANK_HELD = false ∧ rd u (Reg.CXU_SEQ n) = 0 ∧
          rd u (Reg.CXU_GDELAY n) = BitVec.ofNat 32 (groupDelay u n x) ∧
          cxu u n = { x with
            syncGo := true, stop := false, queue := [], blk := {}, tlSyncs := [], gapNext := false, satNext := false, slipNext := false
            outN := 0 } ∧
          (∀ m, m ≠ n.val → cxu u m = cxu s m) ∧ u.mem = s.mem ∧
          SameRegsBut [Reg.CXU_CTL n, Reg.CXU_STAT n, Reg.CXU_BANK n, Reg.CXU_SEQ n, Reg.CXU_GDELAY n] (taken s w) u)) ∧
    (isSet s (Reg.CXU_CTL n) F.CXU_CTL_EN = true →
      let s1 := setFld (taken s w) (Reg.CXU_CTL n) F.CXU_CTL_EN 0
      Leads (.cxuDisable w n) s (if cxuRun s n then updCxu s1 n fun x => { x with stop := true } else s1))) ∧
  (∀ (s : State) (w : Requester) (n : Fin 32), direct s w (Reg.CXU_SYNC n) = true →
    Leads (.cxuSyncGo w n) s (if cxuRun s n then updCxu (taken s w) n fun x => { x with syncGo := true } else taken s w)) ∧
  (∀ (s : State) (w : Requester) (n : Fin 32) (v : Word), direct s w (Reg.CXU_BANK n) = true → cxuRun s n = true →
    (swSt s n = 0 → bankOk s n (1 - inUse s n) (cxu s n) = true → getF v F.CXU_BANK_SW_AT = 1 →
      Ends (.cxuBankSwitch w n v) s fun u => swSt u n = 1 ∧ inUse u n = inUse s n ∧ u.cxu = s.cxu ∧
        SameRegsBut [Reg.CXU_BANK n] (taken s w) u ∧ u.mem = s.mem) ∧
    (swSt s n = 0 → bankOk s n (1 - inUse s n) (cxu s n) = true → getF v F.CXU_BANK_SW_AT = 0 →
      Ends (.cxuBankSwitch w n v) s fun u => swSt u n = 2 ∧ inUse u n = inUse s n ∧ (cxu u n).fadeI = 0 ∧
        (cxu u n).fadeLog = fld u (Reg.CXU_BANK n) F.CXU_BANK_FADE_LOG2 ∧ SameRegsBut [Reg.CXU_BANK n] (taken s w) u ∧ u.mem = s.mem) ∧
    (swSt s n = 0 → bankOk s n (1 - inUse s n) (cxu s n) = false →
      Ends (.cxuBankSwitch w n v) s fun u => swSt u n = 0 ∧ inUse u n = inUse s n ∧
        isSet u (Reg.CXU_EVT n) F.CXU_EVT_BANK_ERR = true ∧ u.cxu = s.cxu) ∧
    (swSt s n = 1 ∨ (2 ≤ swSt s n ∧ isSet s (Reg.CXU_BANK n) F.CXU_BANK_HELD = true) →
      Ends (.cxuBankSwitch w n v) s fun u => rd u (Reg.CXU_SWDROP_CNT n) = rd s (Reg.CXU_SWDROP_CNT n) + 1 ∧ swSt u n = swSt s n ∧
        u.cxu = s.cxu) ∧
    (2 ≤ swSt s n → isSet s (Reg.CXU_BANK n) F.CXU_BANK_HELD = false →
      Ends (.cxuBankSwitch w n v) s fun u => isSet u (Reg.CXU_BANK n) F.CXU_BANK_HELD = true ∧ swSt u n = swSt s n ∧ u.cxu = s.cxu)) ∧
  (∀ (s : State) (w : Requester) (n : Fin 32) (bankB : Bool) (k : Option (Fin 384)) (v : Word),
    let a := bankReg n bankB k
    let b := bankB.toNat
    direct s w a = true →
    (bankBusy s n b = true →
      Ends (.cxuCoefWrite w n bankB k v) s fun u =>
        rd u a = rd s a ∧ isSet u (Reg.CXU_EVT n) F.CXU_EVT_WREFUSE = true ∧
        (isSet s (Reg.CXU_EVT n) F.CXU_EVT_WREFUSE = false → rd u (Reg.CXU_WREF_ADDR n) = BitVec.ofNat 32 a) ∧
        SameRegsBut [Reg.CXU_EVT n, Reg.CXU_WREF_ADDR n] (taken s w) u ∧ u.cxu = s.cxu) ∧
    (bankBusy s n b = false → k.isSome = true →
      Ends (.cxuCoefWrite w n bankB k v) s fun u => fld u a F.CXU_COEFA_H = v.toNat % 2 ^ 18 ∧ SameRegsBut [a] (taken s w) u ∧ u.cxu = s.cxu) ∧
    (bankBusy s n b = false → k = none → 1 ≤ getF v F.CXU_BANKA_CFG_N → getF v F.CXU_BANKA_CFG_N ≤ 384 →
      let good := inBudget (max (getF v F.CXU_BANKA_CFG_N) (bankN s n (1 - b))) (rateCfg s n).1 (rateCfg s n).2.1 (rateCfg s n).2.2
      (good = true → Ends (.cxuCoefWrite w n bankB k v) s fun u =>
        bankN u n b = getF v F.CXU_BANKA_CFG_N ∧ fld u a F.CXU_BANKA_CFG_MINPH = getF v F.CXU_BANKA_CFG_MINPH ∧
        SameRegsBut [a] (taken s w) u ∧ u.cxu = s.cxu) ∧
      (good = false → Ends (.cxuCoefWrite w n bankB k v) s fun u =>
        rd u a = rd s a ∧ isSet u (Reg.CXU_STAT n) F.CXU_STAT_CFG_ERR = true ∧ isSet u (Reg.CXU_EVT n) F.CXU_EVT_WREFUSE = true ∧
        u.cxu = s.cxu)))

/-- R264, R265, R268, R270, R272, R281, R284, R285: a write of the input window adds 16 samples. A sample that is taken is mixed and enters the
chain, shown here for no half-band stage; every D-th one gives an output, the bank's sum shifted and saturated, which is written to the ring.
The sample after a disable closes the block and stops the unit; a SYNC starts the NCO anew and counts the partial outputs. A block's header is
written; a fault discards what is in progress and fences the unit. -/
def Obligations.CxuStream : Prop :=
  (∀ (s : State) (n : Fin 32) (p : Poster) (d : BitVec 512), (precheck s (posterIssuer s p) (cxuWindow n) 64 true).1 = OKAY →
    let s1 := wakeIdle s (16 + n / 8)
    Leads (.cxuMemWrite n p d) s
      (if cxuRun s n && (cxu s n).isMem then updCxu s1 n fun x => { x with queue := x.queue ++ memSamples d } else s1)) ∧
  (∀ (s : State) (n : Fin 32), cxuRun s n = false ∨ fenced s (uCxu n) = true ∨ s.pwr.clocksStopped = true ∨ (cxu s n).queue = [] →
    Leads (.cxuSample n) s s) ∧
  (∀ (s : State) (n : Fin 32) (i : CxIn) (rest : List CxIn), cxuRun s n = true → fenced s (uCxu n) = false →
    s.pwr.clocksStopped = false → (cxu s n).queue = i :: rest →
    let x := cxu s n
    let y := if getF x.ctl F.CXU_CTL_NCO_EN = 1 then (mix x.acc i.x).1 else i.x
    let fir := (y :: x.fir).take 384
    (x.stop = true → Ends (.cxuSample n) s fun u =>
      cxuRun u n = false ∧ (cxu u n).queue = [] ∧ (cxu u n).stop = false ∧
      rd u (Reg.CXU_SEQ n) = rd s (Reg.CXU_SEQ n) + (if x.blk.n = 0 then 0 else 1)) ∧
    (x.stop = false → x.syncGo = true → swSt s n ≠ 2 → Ends (.cxuSample n) s fun u =>
      (cxu u n).syncGo = false ∧ (cxu u n).acc = rd s (Reg.CXU_NCO_PHASE0 n) + rd s (Reg.CXU_NCO_FREQ n) ∧
      rd u (Reg.CXU_PARTIAL_CNT n) = rd s (Reg.CXU_PARTIAL_CNT n) + BitVec.ofNat 32 (partials s n x)) ∧
    (∀ t, x.stop = false → x.syncGo = false → x.tlSyncs = [] → x.time = some t → x.isMem = true ∨ i.first = false → x.hb = 0 →
      (x.u % x.d ≠ 0 → Ends (.cxuSample n) s fun u =>
        (cxu u n).time = some ((t + x.iper) % cxMod) ∧ (cxu u n).acc = x.acc + rd s (Reg.CXU_NCO_FREQ n) ∧ (cxu u n).queue = rest ∧
        (cxu u n).fir = fir ∧ (cxu u n).u = x.u + 1 ∧ (∀ m, m ≠ n.val → cxu u m = cxu s m) ∧ u = { s with cxu := u.cxu }) ∧
      (x.u % x.d = 0 → swSt s n = 0 → x.left = 0 → getF x.outCfg F.CXU_OUT_CFG_MODE = 0 →
        isSet s (Reg.CXU_PWR_CFG n) F.CXU_PWR_CFG_EN = false → x.blk.n + 1 ≠ x.blkLen →
        let z := (outParts x.shift (firSum fir ((upto (bankN s n (inUse s n))).map fun k => (k, coef s n (inUse s n) k))).1).1
        Ends (.cxuSample n) s fun u =>
          u.mem = (fabWrite s (cxuIssuer n) (x.out + 4 * x.outN % 2 ^ getF x.outCfg F.CXU_OUT_CFG_LOG2RING)
            (leBytes 2 (wrapN 16 z.1) ++ leBytes 2 (wrapN 16 z.2))).2.mem ∧
          (cxu u n).fir = fir ∧ (cxu u n).queue = rest ∧ (cxu u n).outN = x.outN + 1 ∧ (cxu u n).blk.n = x.blk.n + 1 ∧
          (∀ m, m ≠ n.val → cxu u m = cxu s m)))) ∧
  (∀ (s : State) (n : Fin 32),
    ((cxu s n).hdrs = [] → Leads (.cxuBlockHeader n) s s) ∧
    ∀ a h rest, (cxu s n).hdrs = (a, h) :: rest →
      Leads (.cxuBlockHeader n) s (fabWrite (updCxu s n fun x => { x with hdrs := rest }) (cxuIssuer n) a h).2) ∧
  (∀ (s : State) (n : Fin 32) (illegal : Bool), discards s (uCxu n) = false → domLive s (16 + n / 8) = true → (unit s (uCxu n)).mute = 0 →
    Ends (.cxuUnitFault n illegal) s fun u =>
      isSet u (Reg.CXU_EVT n) F.CXU_EVT_FAULT = true ∧ cxuRun u n = false ∧ (cxu u n).queue = [] ∧ (cxu u n).hdrs = [] ∧
      (cxu u n).blk = {} ∧ rd u (Reg.CXU_SEQ n) = rd s (Reg.CXU_SEQ n) + (if (cxu s n).blk.n = 0 then 0 else 1) ∧
      (unit u (uCxu n)).kind = (if illegal then 3 else 1) ∧ rd u Reg.RAS_UNIT_FLT_CNT = rd s Reg.RAS_UNIT_FLT_CNT + 1 ∧
      fenced u (uCxu n) = true ∧ unitSt u (uCxu n) ≠ 0 ∧ u.mem = s.mem)

/-! ## The fabric -/

/-- R299, R305, R311, R312, R314, R315: a read of memory that its checks let pass is answered with the bytes there, a write stores the enabled
bytes and no others; a refused request is answered with its code and changes no memory, a poisoned one with PARERR. An answer to a port that has
timed out is counted and dropped. -/
def Obligations.FabricRequests : Prop :=
  (∀ (s : State) (rclass : Fin 8) (f : Fin 32) (src : Fin 176) (ssub : Fin 8) (tag : Fin 128) (a : BitVec 48) (m : BitVec 8)
      (data : BitVec 2048) (be : BitVec 256) (bad : Bool),
    let n := m.toNat + 1
    let iss := packetIssuer rclass f src ssub
    let port := sourcePort src ssub
    isMemory a.toNat = true → s.noc.lines = [] → s.noc.late.contains (port, tag.val) = false →
    let Stored (u : State) : Prop :=
      (∀ i, i < n → memGet u.mem (a.toNat + i) =
        if bitAt be.toNat ((a.toNat + i) % 256) then packetByte data (a.toNat + i) else memGet s.mem (a.toNat + i)) ∧
      (∀ x, x < a.toNat ∨ a.toNat + n ≤ x → memGet u.mem x = memGet s.mem x)
    ((precheck s iss a.toNat n false).1 = OKAY → firstDamage s a.toNat n = none →
      Ends (.targetRequest 0 rclass f src ssub tag a m data be false bad) s fun u =>
        u.out = .resp tag OKAY (loadN s a.toNat n) :: s.out ∧ u.mem = s.mem) ∧
    (∀ c out, precheck s iss a.toNat n false = (c, out) → c ≠ OKAY →
      Ends (.targetRequest 0 rclass f src ssub tag a m data be false bad) s fun u =>
        u.out = .resp tag c [] :: s.out ∧ u.mem = s.mem ∧
        (c = DENIED → rd u Reg.NOC_DENIED_CNT = rd s Reg.NOC_DENIED_CNT + 1) ∧
        (out = true → rd u Reg.RAS_DENIED_CNT = rd s Reg.RAS_DENIED_CNT + 1)) ∧
    (Ends (.targetRequest 0 rclass f src ssub tag a m data be true bad) s fun u => u.out = .resp tag PARERR [] :: s.out ∧ u.mem = s.mem) ∧
    ((precheck s iss a.toNat n true).1 = OKAY →
      (Ends (.targetRequest 1 rclass f src ssub tag a m data be false bad) s fun u => Stored u ∧ u.out = .resp tag OKAY [] :: s.out) ∧
      (Ends (.targetRequest 2 rclass f src ssub tag a m data be false bad) s fun u => Stored u ∧ u.out = s.out) ∧
      (Ends (.targetRequest 1 rclass f src ssub tag a m data be true bad) s fun u =>
        u.mem = s.mem ∧ u.out = .resp tag PARERR [] :: s.out) ∧
      (Ends (.targetRequest 2 rclass f src ssub tag a m data be true bad) s fun u =>
        u.mem = s.mem ∧ u.out = s.out ∧ rd u Reg.NOC_FENCE_DROP = rd s Reg.NOC_FENCE_DROP + 1)) ∧
    (∀ c out, precheck s iss a.toNat n true = (c, out) → c ≠ OKAY →
      (Ends (.targetRequest 1 rclass f src ssub tag a m data be false bad) s fun u => u.mem = s.mem ∧ u.out = .resp tag c [] :: s.out) ∧
      (Ends (.targetRequest 2 rclass f src ssub tag a m data be false bad) s fun u =>
        u.mem = s.mem ∧ u.out = s.out ∧ (c = FENCED → rd u Reg.NOC_FENCE_DROP = rd s Reg.NOC_FENCE_DROP + 1)))) ∧
  (∀ (s : State) (f : Fin 32) (src : Fin 176) (ssub : Fin 8) (tag : Fin 128) (a : BitVec 48) (lost : Bool),
    Ends (.responseTimeout f src ssub tag a lost) s fun u =>
      u.out = .resp tag TIMEOUT [] :: s.out ∧ rd u Reg.NOC_TIMEOUT_CNT = rd s Reg.NOC_TIMEOUT_CNT + 1 ∧
      isSet u Reg.NOC_EVT F.NOC_EVT_TIMEOUT = true ∧ (lost = false → (sourcePort src ssub, tag.val) ∈ u.noc.late) ∧ u.mem = s.mem) ∧
  (∀ (s : State) (rclass : Fin 8) (f : Fin 32) (src : Fin 176) (ssub : Fin 8) (tag : Fin 128) (a : BitVec 48) (m : BitVec 8)
      (data : BitVec 2048) (be : BitVec 256) (bad : Bool), (sourcePort src ssub, tag.val) ∈ s.noc.late →
    Ends (.targetRequest 0 rclass f src ssub tag a m data be true bad) s fun u =>
      u.out = s.out ∧ rd u Reg.NOC_LATE_RSP_CNT = rd s Reg.NOC_LATE_RSP_CNT + 1 ∧ (sourcePort src ssub, tag.val) ∉ u.noc.late)

/-- R313, R316, R317: a fence goes from OPEN through NOTICE and DRAINING to FENCED as it is requested, acknowledged and drained; a lift opens it
once FENCED and its unit is back, and is held before. The home of the control region grants a line to one cache with the others invalidated, or
shared; a cache gives up a line, writing dirty data back; a snooped holder gives its dirty data to memory and keeps the line shared or not at
all. -/
def Obligations.FencesAndCaches : Prop :=
  (∀ (s : State) (u : BitVec 16), let x := u.toNat
    (ownFence x = true → (fence s x).st = 0 → Ends (.fenceRequest u) s fun v =>
      fence v x = { st := 1 } ∧ (∀ y, y ≠ x → fence v y = fence s y) ∧ v.mem = s.mem ∧ v.eng = s.eng ∧
      (∀ n, unitSector x = some n → rd v (Reg.STW_FENCE_CNT n) = rd s (Reg.STW_FENCE_CNT n) + 1)) ∧
    (unitExists x = true → (fence s x).st = 1 →
      Leads (.fenceNoticeAck u) s (setFence s x { fence s x with st := 2 })) ∧
    (unitExists x = true → (fence s x).st = 2 → (fence s x).heldLift = false → scopeQuiet s x = true →
      Ends (.fenceDrained u) s fun v => fence v x = { st := 3, heldLift := false } ∧ (∀ y, y ≠ x → fence v y = fence s y) ∧ v.mem = s.mem ∧
        (∀ n, unitSector x = some n → isSet v (Reg.STW_EVT n) F.STW_EVT_FENCED = true)) ∧
    (ownFence x = true → (fence s x).st = 2 → (fence s x).heldLift = true → scopeQuiet s x = true →
      Ends (.fenceDrained u) s fun v => fence v x = {} ∧ v.mem = s.mem) ∧
    (unitExists x = true → (fence s x).st = 2 → scopeQuiet s x = false → Leads (.fenceDrained u) s s) ∧
    (ownFence x = true → (fence s x).st = 3 → unitSt s x = 0 → Leads (.fenceLift u) s (setFence s x {})) ∧
    (unitExists x = true → (fence s x).st = 1 ∨ (fence s x).st = 2 →
      Leads (.fenceLift u) s (setFence s x { fence s x with heldLift := true }))) ∧
  (∀ (s : State) (c : Fin 132) (a : BitVec 48) (d : BitVec 512), inCoherent s (a.toNat / 64 * 64) = true → target (a.toNat / 64 * 64) = .hbm →
    hbmUp s = true →
    let x := a.toNat / 64 * 64
    (firstDamage s x 64 = none → (∀ e : Fin 132, (line s e x).st ≠ 3) →
      (Ends (.homeRequest c 0 a d none) s fun u =>
        (line u c x).st ∈ [1, 2] ∧ (line u c x).data = loadN s x 64 ∧ u.mem = s.mem ∧ u.out = .resp c OKAY (loadN s x 64) :: s.out ∧
        (∀ e : Fin 132, e ≠ c → (line u e x).st = min 1 (line s e x).st) ∧
        ((∃ e : Fin 132, e ≠ c ∧ (line s e x).st ≠ 0) → (line u c x).st = 1)) ∧
      (Ends (.homeRequest c 1 a d none) s fun u =>
        (line u c x).st ∈ [2, 3] ∧ (line u c x).data = loadN s x 64 ∧ u.mem = s.mem ∧ u.out = .resp c OKAY (loadN s x 64) :: s.out ∧
        ∀ e : Fin 132, e ≠ c → (line u e x).st = 0)) ∧
    ((line s c x).st = 1 ∨ (line s c x).st = 2 → Leads (.homeRequest c 2 a d none) s (setLine s c x {})) ∧
    (2 ≤ (line s c x).st → Ends (.homeRequest c 3 a d none) s fun u =>
      (line u c x).st = 0 ∧ u.out = .resp c OKAY [] :: s.out ∧
      (∀ i, i < 64 → memGet u.mem (x + i) = BitVec.ofNat 8 (d.toNat / 2 ^ (8 * i))) ∧
      (∀ y, y < x ∨ x + 64 ≤ y → memGet u.mem y = memGet s.mem y))) ∧
  (∀ (s : State) (c : Fin 132) (a : BitVec 48) (inv : Bool), let x := a.toNat / 64 * 64
    ((line s c a.toNat).st = 3 → let bs := (line s c a.toNat).data
      Ends (.snoop c a inv none) s fun u =>
        (line u c a.toNat).st = (if inv then 0 else 1) ∧ u.out = .resp c OKAY bs :: s.out ∧
        (∀ y, memGet u.mem y = if x ≤ y ∧ y < x + bs.length then bs.getD (y - x) 0 else memGet s.mem y)) ∧
    (∀ d : BitVec 512, 2 ≤ (line s c a.toNat).st → Ends (.snoop c a inv (some d)) s fun u =>
      (line u c a.toNat).st = (if inv then 0 else 1) ∧ loadN u x 64 = leBytes 64 d.toNat ∧
      u.out = .resp c OKAY (leBytes 64 d.toNat) :: s.out ∧ (∀ y, y < x ∨ x + 64 ≤ y → memGet u.mem y = memGet s.mem y)) ∧
    ((line s c a.toNat).st ≤ 2 → Ends (.snoop c a inv none) s fun u =>
      (line u c a.toNat).st = (if inv then 0 else min 1 (line s c a.toNat).st) ∧ u.mem = s.mem ∧ u.out = .resp c OKAY [] :: s.out))

/-- R298, R302, R307, R308, R312: a router sends a flit on by its route table, holds it at an isolated port, discards it with FENCED, and counts
a parity error; a flit whose header is damaged is dropped with the rest of its packet, one whose payload is goes on marked. -/
def Obligations.Flits : Prop :=
  ∀ (s : State) (r : Fin 176) (port : Fin 9) (cls : Fin 5) (first : Bool) (hdr : BitVec 40) (payload : BitVec 512) (payOk : Bool)
      (full : BitVec 32),
    let h := hdr.toNat
    let k := inKey r port cls h
    let dropping (u : State) : Bool := Tab.get (fun _ => false) u.noc.dropping k
    let l := (rawTotal s :: Tab.get (fun _ => []) s.noc.hdrErrs (r * 16 + port)).take 4
    ((l.filter fun t => decide ((rawTotal s - t) * 100 ≤ 196608)).length ≠ 4 →
      Ends (.flitReceive r port cls first hdr payload false payOk full) s fun u =>
        rd u Reg.NOC_HDR_PAR_CNT = rd s Reg.NOC_HDR_PAR_CNT + 1 ∧ isSet u Reg.NOC_EVT F.NOC_EVT_HDR_PAR = true ∧
        bitAt (fld u (Reg.NOC_RSTAT r) F.NOC_RSTAT_ERRNET) (netOf cls) = true ∧ dropping u = (!hLAST h) ∧ u.out = s.out ∧ u.mem = s.mem) ∧
    (dropping s = true → first = false →
      Ends (.flitReceive r port cls first hdr payload true payOk full) s fun u =>
        dropping u = (!hLAST h) ∧ u.out = s.out ∧ u.regs = s.regs ∧ u.mem = s.mem) ∧
    (noProbe s = true → dropping s = false ∨ first = true →
      let fenced := fencedHere s r cls h payload.toNat first
      let e := routeEntry s r (hEPOCH h) (hTGT h)
      let out := if e / 16 = 0 then xyPort r (hTGT h) (hDSUB h) else e % 16
      let h' := if payOk then h else setBit h 27
      let Counted (u : State) : Prop := rd u Reg.NOC_PAY_PAR_CNT = rd s Reg.NOC_PAY_PAR_CNT + (if payOk then 0 else 1)
      (fenced = false → e / 16 ≤ 1 → isolated s r out = false → facing r out = none ∨ bitAt h 24 = false →
        Ends (.flitReceive r port cls first hdr payload true payOk full) s fun u =>
          u.out = .flit r out h' payload.toNat :: s.out ∧ Counted u ∧ u.mem = s.mem) ∧
      (fenced = false → e / 16 ≤ 1 → isolated s r out = true →
        Ends (.flitReceive r port cls first hdr payload true payOk full) s fun u =>
          u.noc.held = s.noc.held ++ [{ router := r, port := port, cls := cls, first := first, hdr := h', payload := payload.toNat }] ∧
          u.out = s.out ∧ Counted u ∧ u.mem = s.mem) ∧
      (fenced = false → e / 16 ≤ 1 → isolated s r out = false → bitAt h 24 = true → bitAt h 25 = true →
        (∃ x q, facing r out = some (x, q) ∧ fld s (Reg.NOC_RSTAT x) F.NOC_RSTAT_LEVEL * 256 + x <
          fld s (Reg.NOC_RSTAT r) F.NOC_RSTAT_LEVEL * 256 + r) → 1 < cls.val →
        Ends (.flitReceive r port cls first hdr payload true payOk full) s fun u =>
          rd u Reg.NOC_ROUTE_ERR_CNT = rd s Reg.NOC_ROUTE_ERR_CNT + 1 ∧ dropping u = (!hLAST h) ∧ u.out = s.out ∧ Counted u) ∧
      (fenced = true ∨ e / 16 = 3 →
        (cls.val = 0 → first = true →
          Ends (.flitReceive r port cls first hdr payload true payOk full) s fun u =>
            u.out = .resp (hTAG h) FENCED [] :: s.out ∧ dropping u = (!hLAST h) ∧ u.mem = s.mem) ∧
        (1 < cls.val ∨ first = false →
          Ends (.flitReceive r port cls first hdr payload true payOk full) s fun u =>
            u.out = s.out ∧ dropping u = (!hLAST h) ∧ u.mem = s.mem)))

/-- R307 to R310, R322: the loss of a link isolates both its ports, counts the fault and starts a route-around; a request for one isolates a
port, or is held while another runs. A route-around goes from INSTALL through SWITCH, where the bank in use changes, to DRAIN, and ends when the
old epoch has drained or its limit has passed; a held one then starts. Only the bank not in use takes route writes. CLR of a probe clears its
counter and its ring index. -/
def Obligations.RouteArounds : Prop :=
  (∀ (s : State) (r : Fin 176) (port : Fin 9),
    let Wanted (u : State) : Prop := epochSt u = (if epochSt s = 0 then 1 else epochSt s) ∧
      (epochSt s ≠ 0 → isSet u Reg.NOC_EPOCH F.NOC_EPOCH_HELD = true)
    let BothIsolated (u : State) : Prop := isolated u r port = true ∧ (∀ x q, facing r port = some (x, q) → isolated u x q = true) ∧
      isSet u Reg.NOC_EVT F.NOC_EVT_ISOLATE = true
    (isolated s r port = true → Leads (.linkHeartbeatLoss r port) s s) ∧
    (isolated s r port = false → (unit s (uPort r port)).mute = 0 →
      Ends (.linkHeartbeatLoss r port) s fun u => BothIsolated u ∧ Wanted u ∧ unitSt u (uPort r port) ≠ 0 ∧
        rd u Reg.RAS_PORT_FLT_CNT = rd s Reg.RAS_PORT_FLT_CNT + 1 ∧ u.mem = s.mem) ∧
    (epochSt s = 0 → Ends (.routeAroundRequest r port) s fun u => BothIsolated u ∧ Wanted u ∧ u.mem = s.mem) ∧
    (epochSt s ≠ 0 → Ends (.routeAroundRequest r port) s fun u =>
      u.noc.heldReq = s.noc.heldReq ++ [r.val * 16 + port.val] ∧ Wanted u ∧ SameRegsBut [Reg.NOC_EPOCH] s u ∧ u.mem = s.mem)) ∧
  (∀ s : State,
    (epochSt s ≠ 1 → Leads .routeBankInstalled s s) ∧
    (epochSt s = 1 → s.noc.held = [] → Ends .routeBankInstalled s fun u => epochSt u = 2 ∧ OnlyRegs [Reg.NOC_EPOCH] s u) ∧
    (∀ old, epochSt s = 2 → Ends (.injectionPortsSwitched old) s fun u =>
      epochSt u = 3 ∧ fld u Reg.NOC_EPOCH F.NOC_EPOCH_CUR = 1 - fld s Reg.NOC_EPOCH F.NOC_EPOCH_CUR ∧
      fld u Reg.NOC_EPOCH F.NOC_EPOCH_SWITCHES = (fld s Reg.NOC_EPOCH F.NOC_EPOCH_SWITCHES + 1) % 2 ^ 16 ∧
      rd u Reg.NOC_OLDEPOCH_CNT = old ∧ OnlyRegs [Reg.NOC_EPOCH, Reg.NOC_OLDEPOCH_CNT] s u) ∧
    (epochSt s = 3 → isSet s Reg.NOC_EPOCH F.NOC_EPOCH_HELD = false →
      (Ends .oldEpochDrained s fun u => epochSt u = 0 ∧ rd u Reg.NOC_OLDEPOCH_CNT = 0 ∧
        isSet u Reg.NOC_EVT F.NOC_EVT_EPOCH_DONE = true ∧ u.noc = s.noc ∧ u.mem = s.mem) ∧
      ∀ posted, Ends (.drainLimitExpiry posted) s fun u => epochSt u = 0 ∧ rd u Reg.NOC_OLDEPOCH_CNT = 0 ∧
        isSet u Reg.NOC_EVT F.NOC_EVT_EPOCH_DONE = true ∧ isSet u Reg.NOC_EVT F.NOC_EVT_FORCED_DRAIN = true ∧
        rd u Reg.NOC_FENCE_DROP = rd s Reg.NOC_FENCE_DROP + BitVec.ofNat 32 posted.length ∧ u.noc = s.noc ∧ u.mem = s.mem) ∧
    (epochSt s = 3 → isSet s Reg.NOC_EPOCH F.NOC_EPOCH_HELD = true → (∀ k ∈ s.noc.heldReq, k / 16 < 176 ∧ k % 16 < 9) →
      Ends .oldEpochDrained s fun u => epochSt u = 1 ∧ isSet u Reg.NOC_EPOCH F.NOC_EPOCH_HELD = false ∧ u.noc.heldReq = [] ∧
        ∀ k ∈ s.noc.heldReq, isolated u (k / 16) (k % 16) = true)) ∧
  (∀ (s : State) (w : Requester) (v : Word), direct s w Reg.NOC_RT_DATA = true →
    let own := decide (fld s Reg.NOC_RT_SEL F.NOC_RT_SEL_BANK = fld s Reg.NOC_EPOCH F.NOC_EPOCH_CUR)
    (own = true → Leads (.routeTableWrite w v) s (evt (taken s w) Reg.NOC_EVT F.NOC_EVT_RT_REFUSE)) ∧
    (own = false → Ends (.routeTableWrite w v) s fun u =>
      let old := Tab.get (fun _ => 0) s.noc.routes (selectedRoute s)
      let port := if getF v F.NOC_RT_DATA_PORT ≤ 8 then getF v F.NOC_RT_DATA_PORT else old % 16
      Tab.get (fun _ => 0) u.noc.routes (selectedRoute s) = port + getF v F.NOC_RT_DATA_MODE * 16 ∧
      (∀ k, k ≠ selectedRoute s → Tab.get (fun _ => 0) u.noc.routes k = Tab.get (fun _ => 0) s.noc.routes k) ∧
      u = { taken s w with noc := { s.noc with routes := u.noc.routes } })) ∧
  (∀ (s : State) (w : Requester) (p : Fin 32), direct s w (Reg.PRB_CTL p) = true →
    Ends (.probeClear w p) s fun u => rd64 u (Reg.PRB_CNT_LO p) = 0 ∧ fld u (Reg.PRB_TWR p) F.PRB_TWR_INDEX = 0 ∧
      OnlyRegs [Reg.PRB_CNT_LO p, Reg.PRB_CNT_HI p, Reg.PRB_TWR p] (taken s w) u)

/-! ## The Ochre link -/

/-- R359, R360, R362 to R365: how a lane trains. EN, signal, block lock, the partner's CAPS, ACK and NAK, the handover, four good frames, the
attempt timer, the backoff and the retry of an absent lane move it from state to state; a failed attempt is counted and waits. -/
def Obligations.LaneTraining : Prop :=
  (∀ (s : State) (w : Requester) (l : Fin 96), direct s w (lnReg Reg.LN_CTL l) = true → unitSt s (uLane l) ≠ 3 →
    (isSet s (lnReg Reg.LN_CTL l) F.LN_CTL_EN = false → Ends (.laneEnable w l) s fun u =>
      rd u (lnReg Reg.LN_CTL l) = putF (rd s (lnReg Reg.LN_CTL l)) F.LN_CTL_EN 1 ∧ lnState u l = 1 ∧
      fld u (lnReg Reg.LN_STAT l) F.LN_STAT_ATTEMPTS = 0 ∧ OnlyRegs [lnReg Reg.LN_CTL l, lnReg Reg.LN_STAT l] (taken s w) u) ∧
    (isSet s (lnReg Reg.LN_CTL l) F.LN_CTL_EN = true → Ends (.laneDisable w l) s fun u =>
      rd u (lnReg Reg.LN_CTL l) = putF (rd s (lnReg Reg.LN_CTL l)) F.LN_CTL_EN 0 ∧ lnState u l = 0 ∧
      isSet u (lnReg Reg.LN_STAT l) F.LN_STAT_BLOCKLOCK = false ∧ (lane u l).egress = [] ∧
      rd u (Reg.LNK_EGLATE_CNT (l / 8)) = rd s (Reg.LNK_EGLATE_CNT (l / 8)) + BitVec.ofNat 32 (lane s l).egress.length ∧
      LaneOnly [lnReg Reg.LN_CTL l, lnReg Reg.LN_STAT l, Reg.LNK_EGLATE_CNT (l / 8), Reg.LNK_EVT (l / 8)] l (taken s w) u)) ∧
  (∀ (s : State) (l : Fin 96), let stat := lnReg Reg.LN_STAT l
    (Ends (.signalPresent l) s fun u => isSet u stat F.LN_STAT_SIGNAL = true ∧ LaneOnly [stat] l s u ∧
      (lnState s l = 1 → lnkMinimal s = false → lnState u l = 2 ∧ (lane u l).attempt = rawTotal s ∧ (lane u l).fromAbsent = false ∧
        (lane u l).valid = 0 ∧ isSet u stat F.LN_STAT_BLOCKLOCK = false) ∧
      (lnState s l ≠ 1 → lnState u l = lnState s l)) ∧
    (Ends (.signalLost l) s fun u => isSet u stat F.LN_STAT_SIGNAL = false ∧ u.lnk = s.lnk ∧
      (training s l = true → lnState u l = 1 ∧ rd u (lnReg Reg.LN_LOS_CNT l) = rd s (lnReg Reg.LN_LOS_CNT l) + 1 ∧
        isSet u (lnReg Reg.LN_EVT l) F.LN_EVT_LOS_TRAIN = true) ∧
      (training s l = false → lnState u l = lnState s l ∧ SameRegsBut [stat] s u)) ∧
    (training s l = true → isSet s stat F.LN_STAT_BLOCKLOCK = false → 64 ≤ (lane s l).valid →
      Ends (.blockLock l) s fun u => isSet u stat F.LN_STAT_BLOCKLOCK = true ∧ LaneOnly [stat] l s u ∧
        (lnState s l = 2 → lnState u l = 3 ∧ u.out = .train l 1 (capsContent s l) :: s.out) ∧
        (lnState s l ≠ 2 → lnState u l = lnState s l ∧ u.out = s.out)) ∧
    (isSet s stat F.LN_STAT_BLOCKLOCK = true → 16 ≤ ((lane s l).window.filter id).length →
      Ends (.blockLockLost l) s fun u => isSet u stat F.LN_STAT_BLOCKLOCK = false ∧ (lane u l).valid = 0 ∧ LaneOnly [stat] l s u) ∧
    (lnState s l = 4 → Ends (.handover l) s fun u => lnState u l = 5 ∧ (lane u l).txSeq = 0 ∧ (lane u l).rxSeq = 0 ∧ (lane u l).good = 0 ∧
      LaneOnly [stat] l s u) ∧
    (lnState s l = 5 → 4 ≤ (lane s l).good → unitSt s (uLane l) = 0 → l % 8 ≠ 7 ∨ (bundle s (l / 8)).spareLost = false →
      Ends (.checkPass l) s fun u => lnState u l = 6 ∧ fld u stat F.LN_STAT_ATTEMPTS = 0 ∧ isSet u (lnReg Reg.LN_EVT l) F.LN_EVT_UP = true ∧
        LaneOnly [stat, lnReg Reg.LN_EVT l] l s u) ∧
    (lnState s l = 5 → 4 ≤ (lane s l).good → unitSt s (uLane l) = 1 → (unit s (uLane l)).gen = (unit s (uLane l)).shadowGen →
      prot s (l / 8) = false →
      Ends (.checkPass l) s fun u => lnState u l = 6 ∧ unitSt u (uLane l) = 0 ∧ fenced u (uLane l) = false ∧ u.mem = s.mem) ∧
    (training s l = true → (lane s l).attempt + 19660800 ≤ rawTotal s → lnState s l ≠ 5 ∨ (lane s l).good < 4 →
      Ends (.attemptTimeout l) s fun u =>
        AttemptFailed s u l (if lnState s l = 2 then 1 else if lnState s l = 5 then 3 else 2) ∧ u.mem = s.mem) ∧
    (lnState s l = 7 → (lane s l).backoff ≤ rawTotal s → Leads (.backoffEnd l) s (setLn s l 1)) ∧
    (lnState s l = 8 → isSet s stat F.LN_STAT_SIGNAL = true → (lane s l).absentAt + 1966080000 ≤ rawTotal s → lnkMinimal s = false →
      Ends (.absentRetry l) s fun u => lnState u l = 2 ∧ (lane u l).fromAbsent = true ∧ (lane u l).attempt = rawTotal s ∧
        LaneOnly [stat] l s u) ∧
    (lnState s l ≠ 8 → Leads (.absentRetry l) s s) ∧
    (∀ d, (lane s l).trn = some (1, d) → lnState s l = 3 →
      Ends (.caps l) s fun u => rd u (lnReg Reg.LN_PARTNER l) = BitVec.ofNat 32 (bits d 32 32) ∧ (lane u l).trn = none ∧
        (capsCheck s l d = 0 → (lane s l).ackIn = false → lnState u l = 3 ∧ (lane u l).capsOk = true ∧ u.out = .train l 2 0 :: s.out) ∧
        (capsCheck s l d = 0 → (lane s l).ackIn = true →
          lnState u l = 4 ∧ u.out = .train l 4 (64 * 2 ^ 16) :: .train l 2 0 :: s.out) ∧
        (capsCheck s l d ≠ 0 → AttemptFailed s u l (capsCheck s l d) ∧ u.out = .train l 3 (capsCheck s l d * 2 ^ 16) :: s.out)) ∧
    (∀ d, (lane s l).trn = some (2, d) → lnState s l = 3 →
      Ends (.ack l) s fun u => (lane u l).ackIn = true ∧ LaneOnly [stat] l s u ∧
        lnState u l = (if (lane s l).capsOk then 4 else 3) ∧
        u.out = (if (lane s l).capsOk then [.train l 4 (64 * 2 ^ 16)] else []) ++ s.out) ∧
    (∀ d, (lane s l).trn = some (3, d) → lnState s l = 3 →
      Ends (.nak l) s fun u => AttemptFailed s u l 9 ∧ (lane u l).trn = none ∧ u.mem = s.mem)) ∧
  (∀ (s : State) (l : Fin 96) (hdr : BitVec 2) (p : BitVec 64),
    let stat := lnReg Reg.LN_STAT l
    let ok := decide (hdr = 1 ∨ hdr = 2)
    let d := descramble64 p.toNat (lane s l).rxScr
    (training s l = false → Leads (.blockReceive l hdr p) s s) ∧
    (training s l = true → isSet s stat F.LN_STAT_BLOCKLOCK = false →
      Ends (.blockReceive l hdr p) s fun u =>
        lane u l = { lane s l with rxScr := d.2, valid := if ok then min 64 ((lane s l).valid + 1) else 0 } ∧
        LaneOnly [stat, lnReg Reg.LN_EVT l] l s u ∧
        (ok = false → isSet s (lnReg Reg.LN_CTL l) F.LN_CTL_AUTOSLIP = false →
          isSet u stat F.LN_STAT_SLIPREQ = true ∧ isSet u (lnReg Reg.LN_EVT l) F.LN_EVT_SLIPREQ = true)) ∧
    (training s l = true → isSet s stat F.LN_STAT_BLOCKLOCK = true →
      Ends (.blockReceive l hdr p) s fun u =>
        (lane u l).window = ((!ok) :: (lane s l).window).take 64 ∧ LaneOnly [lnReg Reg.LN_BLKHDR_ERR_CNT l] l s u ∧
        (lane u l).trn = (if hdr = 2 ∧ d.1 % 256 = 0x4B ∧ 1 ≤ bits d.1 8 8 ∧ bits d.1 8 8 ≤ 4 then some (bits d.1 8 8, d.1)
          else (lane s l).trn) ∧
        rd u (lnReg Reg.LN_BLKHDR_ERR_CNT l) = rd s (lnReg Reg.LN_BLKHDR_ERR_CNT l) +
          (if hdr = 1 ∨ (hdr = 2 ∧ d.1 % 256 ≠ 0x1E ∧ d.1 % 256 ≠ 0x4B) then 1 else 0))) ∧
  (∀ (s : State) (w : Requester) (l : Fin 96), direct s w (lnReg Reg.LN_SLIP l) = true →
    Ends (.lnSlip w l) s fun u => isSet u (lnReg Reg.LN_STAT l) F.LN_STAT_SLIPREQ = false ∧
      lane u l = { lane s l with valid := 0 } ∧ LaneOnly [lnReg Reg.LN_STAT l] l (taken s w) u)

/-- R380, R381: a lane enters its test state only from IDLE, BACKOFF or ABSENT and when it carries no stream, and leaves it for IDLE; a write of
LN_PRBS that starts the checker clears its errors. The checker's lock, its loss with at least 64 errors and the slip of the far-end buffer set
their bits in the test state only. LN_INJ arms one injected error. -/
def Obligations.LaneTests : Prop :=
  (∀ (s : State) (w : Requester) (l : Fin 96), direct s w (lnReg Reg.LN_CTL l) = true →
    let test := isSet s (lnReg Reg.LN_CTL l) F.LN_CTL_TEST
    let may := decide (lnState s l = 1 ∨ lnState s l = 7 ∨ lnState s l = 8) && !carriesStream s l
    (test = false → may = true → Ends (.lnTest w l true) s fun u => lnState u l = 9 ∧
      isSet u (lnReg Reg.LN_CTL l) F.LN_CTL_TEST = true ∧ OnlyRegs [lnReg Reg.LN_CTL l, lnReg Reg.LN_STAT l] (taken s w) u) ∧
    (test = false → may = false → Ends (.lnTest w l true) s fun u => lnState u l = lnState s l ∧
      isSet u (lnReg Reg.LN_CTL l) F.LN_CTL_TEST = false ∧ isSet u (lnReg Reg.LN_EVT l) F.LN_EVT_TEST_REFUSE = true ∧
      OnlyRegs [lnReg Reg.LN_EVT l] (taken s w) u) ∧
    (test = true → lnState s l = 9 → Ends (.lnTest w l false) s fun u => lnState u l = 1 ∧
      isSet u (lnReg Reg.LN_CTL l) F.LN_CTL_TEST = false ∧ OnlyRegs [lnReg Reg.LN_CTL l, lnReg Reg.LN_STAT l] (taken s w) u)) ∧
  (∀ (s : State) (w : Requester) (l : Fin 96) (v : Word), direct s w (lnReg Reg.LN_PRBS l) = true →
    Ends (.lnPrbs w l v) s fun u =>
      fld u (lnReg Reg.LN_PRBS l) F.LN_PRBS_GEN = getF v F.LN_PRBS_GEN ∧ fld u (lnReg Reg.LN_PRBS l) F.LN_PRBS_CHK = getF v F.LN_PRBS_CHK ∧
      fld u (lnReg Reg.LN_PRBS l) F.LN_PRBS_INV = getF v F.LN_PRBS_INV ∧
      (getF v F.LN_PRBS_PAT ≤ 4 → fld u (lnReg Reg.LN_PRBS l) F.LN_PRBS_PAT = getF v F.LN_PRBS_PAT) ∧
      (isSet s (lnReg Reg.LN_PRBS l) F.LN_PRBS_CHK = false → getF v F.LN_PRBS_CHK = 1 →
        rd u (lnReg Reg.LN_PRBS_ERR l) = 0 ∧ isSet u (lnReg Reg.LN_PRBS_STAT l) F.LN_PRBS_STAT_LOCK = false) ∧
      OnlyRegs [lnReg Reg.LN_PRBS l, lnReg Reg.LN_PRBS_STAT l, lnReg Reg.LN_PRBS_ERR l] (taken s w) u) ∧
  (∀ (s : State) (l : Fin 96),
    (lnState s l = 9 → isSet s (lnReg Reg.LN_PRBS l) F.LN_PRBS_CHK = true →
      Leads (.prbsCheckerLock l) s (setFld s (lnReg Reg.LN_PRBS_STAT l) F.LN_PRBS_STAT_LOCK 1)) ∧
    (lnState s l ≠ 9 → Leads (.prbsCheckerLock l) s s) ∧
    (∀ errs : BitVec 32, lnState s l = 9 → isSet s (lnReg Reg.LN_PRBS_STAT l) F.LN_PRBS_STAT_LOCK = true → 64 ≤ errs.toNat →
      Ends (.prbsCheckerLockLost l errs) s fun u =>
        isSet u (lnReg Reg.LN_PRBS_STAT l) F.LN_PRBS_STAT_LOCK = false ∧
        (rd u (lnReg Reg.LN_PRBS_ERR l)).toNat = min (2 ^ 32 - 1) ((rd s (lnReg Reg.LN_PRBS_ERR l)).toNat + errs.toNat) ∧
        OnlyRegs [lnReg Reg.LN_PRBS_STAT l, lnReg Reg.LN_PRBS_ERR l] s u) ∧
    (lnState s l = 9 → fld s (lnReg Reg.LN_CTL l) F.LN_CTL_LOOP = 3 → Leads (.farEndBufferSlip l) s (lnEvt s l F.LN_EVT_FE_OVF))) ∧
  (∀ (s : State) (w : Requester) (l : Fin 96) (v : Word), direct s w (lnReg Reg.LN_INJ l) = true →
    Ends (.lnInj w l v) s fun u =>
      (getF v F.LN_INJ_MODE = 1 → lane u l = { lane s l with injBit := true }) ∧
      (getF v F.LN_INJ_MODE = 2 → lane u l = { lane s l with injCrc := true }) ∧
      (getF v F.LN_INJ_MODE = 3 → lane u l = { lane s l with injHdr := getF v F.LN_INJ_N }) ∧
      (getF v F.LN_INJ_MODE = 0 → lane u l = lane s l) ∧ LaneOnly [lnReg Reg.LN_INJ l] l (taken s w) u)

/-- R354 to R358, R366, R372 to R375, R381: a lane in CHECK or UP sends an empty frame, its urgent control messages, or the section that waits
longest; the frame carries its sequence number, the HCRC and the CRC, is scrambled and stuffed, and is stamped when asked. A received frame is
counted by the first check it fails, or counts as good, and then its sections or messages are handed on. -/
def Obligations.LinkFrames : Prop :=
  (∀ (s : State) (l : Fin 96) (sub : Fin 64), let x := lane s l
    (lnState s l ≠ 5 → lnState s l ≠ 6 → Leads (.frameTransmit l sub) s s ∧ ∀ line, Leads (.frameReceive l sub line) s s) ∧
    (lnState s l = 5 ∨ (lnState s l = 6 ∧ x.msgs = [] ∧ x.egress = [] ∧ s.tim.ttx = none) →
      Ends (.frameTransmit l sub) s fun u => FrameSent s u l 0 false x.tsreq 0 [] ∧
        (x.tsreq = false → ∀ b, (bundle u b).txts = (bundle s b).txts) ∧
        (x.tsreq = true → (bundle s (l / 8)).txts.length < 16 → (bundle u (l / 8)).txts = (bundle s (l / 8)).txts ++
          [(l % 8 * 2 ^ 13 + x.txSeq % 2 ^ 13, (raw s * 64 + sub + fld s (lnReg Reg.LN_TXLAT l) F.LN_TXLAT_LAT) % 2 ^ 54)])) ∧
    (lnState s l = 6 → s.tim.ttx = none → (x.msgs.any (·.1)) = true →
      let m := x.msgs.take 15
      Ends (.frameTransmit l sub) s fun u =>
        FrameSent s u l 3 false ((m.any fun m => decide (0x10 ≤ leAt m.2 0 1 ∧ leAt m.2 0 1 ≤ 0x1F)) || x.tsreq) m.length (m.flatMap (·.2)) ∧
        (lane u l).msgs = x.msgs.drop 15) ∧
    (∀ e es, lnState s l = 6 → s.tim.ttx = none → x.msgs = [] → x.egress = e :: es → e.missing = false → e.fmt = 1 → e.stream < 256 →
      Ends (.frameTransmit l sub) s fun u => FrameSent s u l 2 false x.tsreq 1 e.bytes ∧ (lane u l).egress = es ∧
        rd u (Reg.TXS_CNT (l / 8) e.stream) = rd s (Reg.TXS_CNT (l / 8) e.stream) + 1)) ∧
  (∀ (s : State) (l : Fin 96) (sub : Fin 64) (line : List Bool), lnState s l = 5 ∨ lnState s l = 6 →
    let x := lane s l
    (unstuff 0 false line = none → Ends (.frameReceive l sub line) s fun u =>
      rd u (lnReg Reg.LN_STUFF_ERR_CNT l) = rd s (lnReg Reg.LN_STUFF_ERR_CNT l) + 1 ∧
      lane u l = { x with rxSeq := (x.rxSeq + 1) % 2 ^ 24, good := 0, bad := x.bad + 1 } ∧
      LaneOnly [lnReg Reg.LN_STUFF_ERR_CNT l] l s u) ∧
    (∀ bs, unstuff 0 false line = some bs →
      (findHeader bs x.rxSeq (l % 8) = none → Ends (.frameReceive l sub line) s fun u =>
        rd u (lnReg Reg.LN_HCRC_ERR_CNT l) = rd s (lnReg Reg.LN_HCRC_ERR_CNT l) + 1 ∧
        lane u l = { x with rxSeq := (x.rxSeq + 1) % 2 ^ 24, good := 0, bad := x.bad + 1 } ∧
        LaneOnly [lnReg Reg.LN_HCRC_ERR_CNT l] l s u) ∧
      (∀ c h, findHeader bs x.rxSeq (l % 8) = some (c, h) →
        let bytes := bitsToBytes 2060 (scramble (scrSeed (x.rxSeq + c)) (bs.take 16480))
        let bad := decide (bs.length ≠ 16480 ∨ crcOf 6 (bytes.take 2056) ≠ leAt bytes 2056 4)
        let seq := (x.rxSeq + c + 1) % 2 ^ 24
        let secs := (splitSections (bits h 12 4) ((bytes.drop 8).take 2048)).map fun b =>
          ({ type := bits h 0 4, nsec := bits h 12 4, stamp := rxStamp s l sub, seq := bits h 16 24, bytes := b } : RxItem)
        let Resync (u : State) : Prop := rd u (lnReg Reg.LN_RESYNC_CNT l) = rd s (lnReg Reg.LN_RESYNC_CNT l) + (if c > 0 then 1 else 0)
        (bad = true → Ends (.frameReceive l sub line) s fun u => Resync u ∧
          rd u (lnReg Reg.LN_CRC_ERR_CNT l) = rd s (lnReg Reg.LN_CRC_ERR_CNT l) + 1 ∧
          lane u l = { x with rxSeq := seq, good := 0, bad := 0 } ∧
          LaneOnly [lnReg Reg.LN_CRC_ERR_CNT l, lnReg Reg.LN_RESYNC_CNT l] l s u) ∧
        (bad = false → lnState s l = 5 ∨ bits h 0 4 = 0 → Ends (.frameReceive l sub line) s fun u => Resync u ∧
          rd u (lnReg Reg.LN_RXFRAME_CNT l) = rd s (lnReg Reg.LN_RXFRAME_CNT l) + 1 ∧
          lane u l = { x with rxSeq := seq, good := x.good + 1, bad := 0 } ∧
          LaneOnly [lnReg Reg.LN_RXFRAME_CNT l, lnReg Reg.LN_RESYNC_CNT l] l s u) ∧
        (bad = false → lnState s l = 6 → bits h 0 4 = 1 ∨ bits h 0 4 = 2 → Ends (.frameReceive l sub line) s fun u => Resync u ∧
          rd u (lnReg Reg.LN_RXFRAME_CNT l) = rd s (lnReg Reg.LN_RXFRAME_CNT l) + 1 ∧
          lane u l = { x with rxSeq := seq, good := x.good + 1, bad := 0, rxSecs := x.rxSecs ++ secs } ∧
          LaneOnly [lnReg Reg.LN_RXFRAME_CNT l, lnReg Reg.LN_RESYNC_CNT l] l s u))))

/-- R352, R366 to R370, R372, R374: a received section goes to the buffer that its stream is bound to, with its presence byte set, or is
counted. At its transmit time an EGRESS buffer's sections are read, or missing headers are sent for one that was not committed; a section that
is read joins its lane's queue, a lost read leaves a missing header, and so does one that is late. RATE and PROT of a bundle change only while
its lanes are disabled. -/
def Obligations.LinkSections : Prop :=
  (∀ (s : State) (l : Fin 96), ((lane s l).rxSecs = [] → Leads (.sectionReceive l) s s) ∧
    ∀ x xs, (lane s l).rxSecs = x :: xs →
      let s1 := updLane s l fun z => { z with rxSecs := xs }
      let b := l.val / 8
      let i := bits (leAt x.bytes 0 4) 0 8
      let h0 := leAt x.bytes 0 4
      let h1 := leAt x.bytes 4 4
      let cfg := rd s (Reg.RXS_CFG b i)
      (fenced s (uLane l) = true → swState s b ≠ 3 → Leads (.sectionReceive l) s s1) ∧
      (fenced s (uLane l) = false → getF cfg F.RXS_CFG_EN = 0 →
        Ends (.sectionReceive l) s fun u => rd u (Reg.LNK_NOSTREAM_CNT b) = rd s (Reg.LNK_NOSTREAM_CNT b) + 1 ∧
          isSet u (Reg.LNK_EVT b) F.LNK_EVT_NOSTREAM = true ∧ u.mem = s.mem ∧ (lane u l).rxSecs = xs) ∧
      (fenced s (uLane l) = false → getF cfg F.RXS_CFG_EN = 1 → bits h0 16 4 ≠ 1 → getF cfg F.RXS_CFG_FMT = bits h0 16 4 →
        l % 8 = getF cfg F.RXS_CFG_LANE →
        ((rxBinds s (b * 256 + i)).find? fun d => decide (d.slot % 2 ^ 16 = bits h1 0 16)) = none →
        Ends (.sectionReceive l) s fun u => rd u (Reg.LNK_NOBIND_CNT b) = rd s (Reg.LNK_NOBIND_CNT b) + 1 ∧ u.mem = s.mem ∧
          (lane u l).rxSecs = xs) ∧
      (∀ d : RxBind, fenced s (uLane l) = false → getF cfg F.RXS_CFG_EN = 1 → bits h0 16 4 ≠ 1 → getF cfg F.RXS_CFG_FMT = bits h0 16 4 →
        l % 8 = getF cfg F.RXS_CFG_LANE →
        ((rxBinds s (b * 256 + i)).find? fun d => decide (d.slot % 2 ^ 16 = bits h1 0 16)) = some d → getF d.cfg F.RXS_CFG_EN = 1 →
        lenOk h0 h1 (leAt x.bytes 8 4) = true → 16 + bits h1 16 11 ≤ x.bytes.length → x.type ≠ 2 → d.closed = false →
        let sec := bits h0 8 8
        let nsec := getF d.headLayout F.RXS_LAYOUT_NSEC
        let stride := getF d.headLayout F.RXS_LAYOUT_STRIDE * 64
        let k := (b * 256 + i - d.first) * nsec + sec
        let iss := lnkIssuer b (getF d.cfg F.RXS_CFG_OWNER)
        sec < nsec → k < d.expect → (k + 1) * stride ≤ d.pres → x.bytes.length ≤ stride →
        memGet s.mem (d.addr + d.pres + k) ≠ 1 → ∀ s2, fabPosts 16 (inc s1 (Reg.RXS_CNT b i)) iss (d.addr + k * stride) x.bytes = (OKAY, s2) →
        Ends (.sectionReceive l) s fun u =>
          u.mem = (fabPost s2 iss (d.addr + d.pres + k) [1]).2.mem ∧ rd u (Reg.RXS_CNT b i) = rd s (Reg.RXS_CNT b i) + 1 ∧
          rxBinds u (b * 256 + i) = (rxBinds s (b * 256 + i)).map (fun e => if e = d then { e with count := e.count + 1 } else e) ∧
          (lane u l).rxSecs = xs)) ∧
  (∀ (s : State) (p : PalRef) (buf : Fin 4096) (d : TxBind),
    (s.lnk.tx.find? fun d => decide (d.tl = p.tl.val ∧ d.slot = p.slot.toNat ∧ d.buf = buf.val)) = some d →
    let nsec := getF d.layout F.TXS_LAYOUT_NSEC
    let stride := getF d.layout F.TXS_LAYOUT_STRIDE * 64
    (reached (raw s) d.t = false → Leads (.egressTransmitTime p buf) s s) ∧
    (reached (raw s) d.t = true → d.committed = true → (∀ j, j < d.n → getF (d.cfgs.getD j 0) F.TXS_CFG_EN = 1) →
      Leads (.egressTransmitTime p buf) s { s with lnk := { s.lnk with
        tx := s.lnk.tx.filter fun e => decide (e ≠ d)
        reads := s.lnk.reads ++ (upto d.n).flatMap fun j => (upto nsec).map fun k =>
          { stream := d.first + j, cfg := d.cfgs.getD j 0, addr := d.addr + (j * nsec + k) * stride, len := stride, t := d.t, slot := d.slot } } }) ∧
    (reached (raw s) d.t = true → d.committed = false → d.n = 1 → getF (d.cfgs.getD 0 0) F.TXS_CFG_EN = 1 →
      Leads (.egressTransmitTime p buf) s
        (egQueue { s with lnk := { s.lnk with tx := s.lnk.tx.filter fun e => decide (e ≠ d) } } (d.first / 256)
          (getF (d.cfgs.getD 0 0) F.TXS_CFG_LANE) (missingItem (d.first % 256) d.slot d.t)))) ∧
  (∀ (s : State) (r : EgRead) (rs : List EgRead), s.lnk.reads = r :: rs → r.stream < 3072 →
    let b := r.stream / 256
    let s1 := { s with lnk := { s.lnk with reads := rs } }
    let l := egressLane s b (getF r.cfg F.TXS_CFG_LANE)
    lnState s l = 6 →
    (Ends (.egressReadResponse true) s fun u =>
      rd u (Reg.LNK_BADSEC_CNT b) = rd s (Reg.LNK_BADSEC_CNT b) + 1 ∧ rd u Reg.NOC_TIMEOUT_CNT = rd s Reg.NOC_TIMEOUT_CNT + 1 ∧
      (lane u l).egress = egInsert (missingItem (r.stream % 256) r.slot r.t) (lane s l).egress ∧ u.lnk.reads = rs ∧ u.mem = s.mem) ∧
    (∀ img s2, fabReads 32 s1 (lnkIssuer b (getF r.cfg F.TXS_CFG_OWNER)) r.addr r.len = (OKAY, img, s2) → img.length = r.len →
      let h0 := leAt img 0 4
      let h1 := leAt img 4 4
      let len := bits h1 16 11
      len ≠ 0 → bits h0 16 4 = getF r.cfg F.TXS_CFG_FMT → lenOk h0 h1 (leAt img 8 4) = true → 16 + len ≤ r.len →
      Ends (.egressReadResponse false) s fun u => u.lnk.reads = rs ∧ u.mem = s2.mem ∧
        ∃ e, (lane u l).egress = egInsert e (lane s l).egress ∧ e.t = r.t ∧ e.stream = r.stream % 256 ∧ e.missing = false ∧
          e.fmt = bits h0 16 4 ∧ (e.bytes.drop 16).take len = (img.drop 16).take len ∧ e.bytes.length = 16 + (len + 3) / 4 * 4)) ∧
  (∀ (s : State) (l : Fin 96),
    let late := fun x : EgItem => !x.missing && reached (raw s) ((x.t + fld s (Reg.LNK_EGLATE_LIMIT (l / 8)) F.LNK_EGLATE_LIMIT_TC) % 2 ^ 48)
    Ends (.egressLateLimit l) s fun u =>
      (lane u l).egress = (lane s l).egress.map (fun x => if late x then missingItem x.stream x.slot x.t else x) ∧
      rd u (Reg.LNK_EGLATE_CNT (l / 8)) = rd s (Reg.LNK_EGLATE_CNT (l / 8)) + BitVec.ofNat 32 ((lane s l).egress.filter late).length ∧
      LaneOnly [Reg.LNK_EGLATE_CNT (l / 8), Reg.LNK_EVT (l / 8)] l s u) ∧
  (∀ (s : State) (w : Requester) (b : Fin 12) (v : Word), direct s w (Reg.LNK_TXTS_REQ b) = true →
    Ends (.lnkTxtsReq w b v) s fun u => (lane u (b * 8 + getF v F.LNK_TXTS_REQ_LANE)).tsreq = true ∧
      LaneOnly [Reg.LNK_TXTS_REQ b] (b * 8 + getF v F.LNK_TXTS_REQ_LANE) (taken s w) u) ∧
  (∀ (s : State) (w : Requester) (b : Fin 12), direct s w (Reg.LNK_TXTS_POP b) = true →
    Leads (.lnkTxtsPop w b) s (updBundle (taken s w) b fun x => { x with txts := x.txts.drop 1 })) ∧
  (∀ (s : State) (w : Requester) (b : Fin 12) (v : Word), direct s w (Reg.LNK_CTL b) = true →
    let off := (upto 8).all fun k => !isSet s (Reg.LN_CTL b k) F.LN_CTL_EN
    (off = true → Ends (.lnkCtlWrite w b v) s fun u =>
      fld u (Reg.LNK_CTL b) F.LNK_CTL_RATE = getF v F.LNK_CTL_RATE ∧ fld u (Reg.LNK_CTL b) F.LNK_CTL_PROT = getF v F.LNK_CTL_PROT ∧
      fld u (Reg.LNK_CTL b) F.LNK_CTL_AUTO_SW = getF v F.LNK_CTL_AUTO_SW ∧
      ∀ k, k < 8 → (rd u (Reg.LN_TXLAT b k)).toNat = (latDefaults (getF v F.LNK_CTL_RATE)).1 ∧
        (rd u (Reg.LN_RXLAT b k)).toNat = (latDefaults (getF v F.LNK_CTL_RATE)).2) ∧
    (off = false → Ends (.lnkCtlWrite w b v) s fun u =>
      fld u (Reg.LNK_CTL b) F.LNK_CTL_RATE = fld s (Reg.LNK_CTL b) F.LNK_CTL_RATE ∧
      fld u (Reg.LNK_CTL b) F.LNK_CTL_PROT = fld s (Reg.LNK_CTL b) F.LNK_CTL_PROT ∧
      fld u (Reg.LNK_CTL b) F.LNK_CTL_AUTO_SW = getF v F.LNK_CTL_AUTO_SW ∧
      (fld s (Reg.LNK_CTL b) F.LNK_CTL_RATE ≠ getF v F.LNK_CTL_RATE ∨ fld s (Reg.LNK_CTL b) F.LNK_CTL_PROT ≠ getF v F.LNK_CTL_PROT →
        isSet u (Reg.LNK_EVT b) F.LNK_EVT_CFG_REFUSE = true)))

/-- R376, R377, R379, R388: a lane that loses lock leaves UP, is fenced and counted. In protected mode a FREE bundle with its spare in UP then
moves the lane to the spare and sends SWITCH, as FORCE does; otherwise the lane's sections are dropped. The partner's SWITCH and REVERT are
carried out and acknowledged, or refused; an acknowledgement ends the bundle's own request, which is resent until then. A lost alignment of the
link's copy of time takes every lane out of UP. -/
def Obligations.Spare : Prop :=
  (∀ (s : State) (l : Fin 96), let b := l.val / 8
    let k := l.val % 8
    let dropped := fun u : State => (lane u l).egress = [] ∧
      rd u (Reg.LNK_EGLATE_CNT b) = rd s (Reg.LNK_EGLATE_CNT b) + BitVec.ofNat 32 (lane s l).egress.length
    let may := decide (swState s b = 0 ∧ lnState s (b * 8 + 7) = 6) && isSet s (Reg.LNK_CTL b) F.LNK_CTL_AUTO_SW
    (lnState s l ≠ 6 → Leads (.lossOfLock l) s s) ∧
    (lnState s l = 6 → (unit s (uLane l)).mute = 0 → Ends (.lossOfLock l) s fun u =>
      lnState u l = (if unitSt u (uLane l) = 3 then 10 else 1) ∧ fld u (lnReg Reg.LN_STAT l) F.LN_STAT_FAIL = 10 ∧
      rd u (lnReg Reg.LN_LOCKLOSS_CNT l) = rd s (lnReg Reg.LN_LOCKLOSS_CNT l) + 1 ∧
      isSet u (lnReg Reg.LN_EVT l) F.LN_EVT_DOWN = true ∧ fenced u (uLane l) = true ∧ unitSt u (uLane l) ≠ 0 ∧
      rd u Reg.RAS_LANE_FLT_CNT = rd s Reg.RAS_LANE_FLT_CNT + 1 ∧ (∀ x, x < 96 → x ≠ l.val → lnState u x = lnState s x) ∧ u.mem = s.mem ∧
      (prot s b = false → dropped u ∧ swState u b = swState s b) ∧
      (prot s b = true → k ≠ 7 → may = true → OwnMoved s u b k ∧ CtrlSent s u b [(1, k, seqAt s (b * 8 + 7) true)] ∧
        OwnSent s u b (bundle s b).mid 1 k (seqAt s (b * 8 + 7) true)) ∧
      (prot s b = true → k ≠ 7 → may = false → dropped u ∧ swState u b = swState s b ∧ swLane u b = swLane s b) ∧
      (prot s b = true → k = 7 → swState s b ≠ 0 → dropped u ∧ (bundle u b).spareLost = true ∧ (bundle u b).own = none ∧
        isSet u (Reg.LNK_EVT b) F.LNK_EVT_SWITCH_FAIL = true))) ∧
  (∀ (s : State) (l : Fin 96) (m : RxItem) (ms : List RxItem),
    let b := l.val / 8
    let k := leAt m.bytes 2 1 % 8
    let mid := leAt m.bytes 1 1
    let req := bitAt (leAt m.bytes 7 1) 0
    let lk := swLane s b
    let Quiet (u : State) : Prop := SameRegsBut [] s u ∧ (lane u l).rxMsgs = ms ∧ u.mem = s.mem ∧ u.noc = s.noc
    (∀ c ∈ [(Instr.switch l, 1), (Instr.switchAck l, 2), (Instr.revert l, 3), (Instr.revertAck l, 4)],
      ((lane s l).rxMsgs = [] → Leads c.1 s s) ∧
      ((lane s l).rxMsgs = m :: ms → leAt m.bytes 0 1 ≠ c.2 → Leads c.1 s s) ∧
      ((lane s l).rxMsgs = m :: ms → leAt m.bytes 0 1 = c.2 → (c.2, mid) ∈ (bundle s b).seen →
        Leads c.1 s (updLane s l fun x => { x with rxMsgs := ms }))) ∧
    (headMsg s l 1 m ms →
      (swState s b = 0 → req = true → prot s b = true → lnState s (b * 8 + 7) = 6 → k ≠ 7 → Ends (.switch l) s fun u =>
        OwnMoved s u b k ∧ fenced u (uLane (b * 8 + k)) = true ∧
        CtrlSent s u b [(2, k, mid), (1, k, seqAt s (b * 8 + 7) false)] ∧
        OwnSent s u b (((bundle s b).mid + 1) % 256) 1 k (seqAt s (b * 8 + 7) false)) ∧
      (swState s b = 0 → req = true → prot s b = false ∨ lnState s (b * 8 + 7) ≠ 6 → Ends (.switch l) s fun u =>
        Quiet u ∧ CtrlSent s u b [(2, k, mid + 2 * 2 ^ 8)]) ∧
      (swState s b = 0 → req = false → Ends (.switch l) s fun u => Quiet u ∧ CtrlSent s u b [(2, k, mid)]) ∧
      (swState s b = 1 ∨ swState s b = 2 → k = lk → Ends (.switch l) s fun u => Quiet u ∧ CtrlSent s u b [(2, k, mid)]) ∧
      (swState s b = 1 ∨ swState s b = 2 → k ≠ lk → Ends (.switch l) s fun u => Quiet u ∧ CtrlSent s u b [(2, k, mid + 2 ^ 8)])) ∧
    (headMsg s l 2 m ms →
      (ownMid s b ≠ some (1, leAt m.bytes 4 1) → Leads (.switchAck l) s (tookMsg s l m ms)) ∧
      (ownMid s b = some (1, leAt m.bytes 4 1) →
        (leAt m.bytes 5 1 = 0 → swState s b = 1 → Ends (.switchAck l) s fun u =>
          swState u b = 2 ∧ swLane u b = lk ∧ (bundle u b).own = none ∧ isSet u (Reg.LNK_EVT b) F.LNK_EVT_SWITCH_DONE = true ∧
          (∀ x, (lane u x).msgs = (lane s x).msgs ∧ (lane u x).egress = (lane s x).egress)) ∧
        (leAt m.bytes 5 1 = 0 → swState s b ≠ 1 → Ends (.switchAck l) s fun u => Quiet u ∧ (bundle u b).own = none) ∧
        (∀ p, leAt m.bytes 5 1 = 1 → swState s b = 1 → (bundle s b).partner = some p → lk > p → prot s b = true →
          lnState s (b * 8 + 7) = 6 → Ends (.switchAck l) s fun u =>
            swState u b = 1 ∧ swLane u b = p ∧ fenced u (uLane (b * 8 + p)) = true ∧
            (lane u (b * 8 + 7)).egress = (lane s (b * 8 + p)).egress ∧ (lane u (b * 8 + p)).egress = [] ∧
            rd u (Reg.LNK_EGLATE_CNT b) = rd s (Reg.LNK_EGLATE_CNT b) + BitVec.ofNat 32 (lane s (b * 8 + 7)).egress.length ∧
            CtrlSent s u b [(1, p, seqAt s (b * 8 + 7) false)]) ∧
        (∀ p, leAt m.bytes 5 1 = 1 → (bundle s b).partner = some p → lk ≤ p → Leads (.switchAck l) s (tookMsg s l m ms)))) ∧
    (headMsg s l 3 m ms → k = lk → k ≠ 7 →
      (swState s b = 2 → req = true → Ends (.revert l) s fun u =>
        swState u b = 3 ∧ swLane u b = lk ∧ (lane u (b * 8 + 7)).egress = [] ∧
        (lane u (b * 8 + k)).egress = (lane s (b * 8 + k)).egress ++ (lane s (b * 8 + 7)).egress ∧
        CtrlSent s u b [(4, k, mid), (3, k, seqAt s (b * 8 + k) false)] ∧
        OwnSent s u b (((bundle s b).mid + 1) % 256) 3 k (seqAt s (b * 8 + k) false)) ∧
      (swState s b = 3 → req = false → Ends (.revert l) s fun u => Quiet u ∧ CtrlSent s u b [(4, k, mid)])) ∧
    (headMsg s l 4 m ms → ownMid s b = some (3, leAt m.bytes 4 1) → swState s b = 3 → leAt m.bytes 5 1 = 0 →
      Ends (.revertAck l) s fun u =>
        swState u b = 0 ∧ (bundle u b).own = none ∧ rd u (Reg.LNK_REVERT_CNT b) = rd s (Reg.LNK_REVERT_CNT b) + 1 ∧
        isSet u (Reg.LNK_EVT b) F.LNK_EVT_REVERT_DONE = true ∧
        ((fence s (uLane (b * 8 + lk))).st = 3 → fenced u (uLane (b * 8 + lk)) = false))) ∧
  (∀ (s : State) (b : Fin 12),
    ((bundle s b).own = none → Leads (.switchResend b) s s ∧ Leads (.switchAckTimeout b) s s) ∧
    (∀ m t0 t1, (bundle s b).own = some (m, t0, t1) →
      (t1 * 100 + 196608 ≤ rawTotal s * 100 → Ends (.switchResend b) s fun u =>
        (∀ l, (lane u l).msgs = (lane s l).msgs ++ (if l ∈ ctrlLanes s b then [(true, m)] else [])) ∧
        (bundle u b).own = some (m, t0, rawTotal s) ∧ SameRegsBut [] s u) ∧
      (rawTotal s * 100 < t1 * 100 + 196608 → Leads (.switchResend b) s s) ∧
      (swState s b = 1 → t0 + 1966080 ≤ rawTotal s → Ends (.switchAckTimeout b) s fun u =>
        swState u b = 2 ∧ swLane u b = swLane s b ∧ isSet u (Reg.LNK_EVT b) F.LNK_EVT_SWITCH_FAIL = true ∧ u.lnk = s.lnk) ∧
      (swState s b ≠ 1 ∨ rawTotal s < t0 + 1966080 → Leads (.switchAckTimeout b) s s))) ∧
  (∀ (s : State) (w : Requester) (b : Fin 12) (v : Word), direct s w (Reg.LNK_SPARE_CTL b) = true →
    let k := getF v F.LNK_SPARE_CTL_LANE
    (prot s b = true → k ≠ 7 → swState s b = 0 → lnState s (b * 8 + 7) = 6 → Ends (.spareForce w b v) s fun u =>
      OwnMoved s u b k ∧ CtrlSent s u b [(1, k, seqAt s (b * 8 + 7) true)] ∧
      OwnSent s u b (bundle s b).mid 1 k (seqAt s (b * 8 + 7) true)) ∧
    (prot s b = false ∨ k = 7 ∨ swState s b ≠ 0 ∨ lnState s (b * 8 + 7) ≠ 6 → Ends (.spareForce w b v) s fun u =>
      u.lnk = s.lnk ∧ OnlyRegs [Reg.LNK_SPARE_CTL b] (taken s w) u) ∧
    (swState s b = 2 → swLane s b = k → k ≠ 7 → lnState s (b * 8 + k) = 6 → Ends (.spareRevert w b v) s fun u =>
      swState u b = 3 ∧ swLane u b = k ∧ (lane u (b * 8 + 7)).egress = [] ∧
      (lane u (b * 8 + k)).egress = (lane s (b * 8 + k)).egress ++ (lane s (b * 8 + 7)).egress ∧
      CtrlSent s u b [(3, k, seqAt s (b * 8 + k) true)]) ∧
    (swState s b ≠ 2 ∨ swLane s b ≠ k ∨ lnState s (b * 8 + k) ≠ 6 → Ends (.spareRevert w b v) s fun u =>
      u.lnk = s.lnk ∧ OnlyRegs [Reg.LNK_SPARE_CTL b] (taken s w) u)) ∧
  (∀ s : State, (isSet s Reg.TIM_STATUS F.TIM_STATUS_LNKALIGN = false → Leads .lnkalignLost s s) ∧
    (isSet s Reg.TIM_STATUS F.TIM_STATUS_LNKALIGN = true → Ends .lnkalignLost s fun u =>
      isSet u Reg.TIM_STATUS F.TIM_STATUS_LNKALIGN = false ∧ isSet u Reg.TIM_EVT F.TIM_EVT_LNKALIGN_LOST = true ∧
      (∀ l, l < 96 → lnState s l = 6 → (lnState u l = 1 ∨ lnState u l = 10) ∧ fenced u (uLane l) = true) ∧
      (∀ l, l < 96 → lnState s l ≠ 6 → lnState u l = lnState s l) ∧ u.mem = s.mem))

/-! ## Time -/

/-- R35, R384, R385, R387, R389 to R393, R397, R398, R400, R401: the count starts when the AON PLL locks and goes on in holdover. The rate
correction is folded at a rebase, at the wrap and when TIM_RATE changes, and a fold does not step TIM_NOW; TIM_STEP and the pair TIM_OFFSET
change it. A read of TIM_NOW_LO captures the upper half and the count. A compare unit fires once or periodically; PPS_OUT pulses end, and an
edge on PPS_IN is stamped. -/
def Obligations.TimeBase : Prop :=
  (∀ s : State, let lock := isSet s Reg.TIM_STATUS F.TIM_STATUS_LOCK
    (lock = true → Leads .aonPllLock s s) ∧
    (lock = false → Ends .aonPllLock s fun u => isSet u Reg.TIM_STATUS F.TIM_STATUS_LOCK = true ∧
      isSet u Reg.TIM_STATUS F.TIM_STATUS_HOLDOVER = false ∧ u.tim = { s.tim with counting := true } ∧ u.mem = s.mem) ∧
    (lock = false → Leads .aonPllLoss s s) ∧
    (lock = true → Ends .aonPllLoss s fun u => isSet u Reg.TIM_STATUS F.TIM_STATUS_LOCK = false ∧
      isSet u Reg.TIM_STATUS F.TIM_STATUS_HOLDOVER = true ∧ isSet u Reg.TIM_EVT F.TIM_EVT_HOLDOVER = true ∧ u.tim = s.tim ∧ u.mem = s.mem) ∧
    Leads .lnkalign s (setFld s Reg.TIM_STATUS F.TIM_STATUS_LNKALIGN 1) ∧
    (s.tim.counting = false ∨ raw s ≠ 2 ^ 48 - 1 → Leads .timWrap s s) ∧
    (s.tim.counting = true → raw s = 2 ^ 48 - 1 → Ends .timWrap s fun u =>
      u.tim = { s.tim with raw := 0 } ∧ rd u Reg.TIM_WRAP_CNT = rd s Reg.TIM_WRAP_CNT + 1 ∧ timBase u = 0 ∧
      timOffset u = (wrapN 64 ((timOffset s : Int) + timCorr (timRate s) (wrapD s)) + 2 ^ 48) % 2 ^ 64 ∧
      SameRegsBut [Reg.TIM_WRAP_CNT, Reg.TIM_OFFSET_LO, Reg.TIM_OFFSET_HI, Reg.TIM_RAW_BASE_LO, Reg.TIM_RAW_BASE_HI] s u) ∧
    (timD s < 2 ^ 44 → Leads .timRebase s s) ∧
    (2 ^ 44 ≤ timD s → Ends .timRebase s fun u => timNow u = timNow s ∧ timBase u = raw s ∧
      OnlyRegs [Reg.TIM_OFFSET_LO, Reg.TIM_OFFSET_HI, Reg.TIM_RAW_BASE_LO, Reg.TIM_RAW_BASE_HI] s u)) ∧
  (∀ (s : State) (w : Requester) (v : Word), let gen (u : State) : Prop := rd u Reg.TIM_PARAM_GEN = rd s Reg.TIM_PARAM_GEN + 1
    (direct s w Reg.TIM_RATE = true → Ends (.timRate w v) s fun u =>
      timNow u = timNow s ∧ timBase u = raw s ∧ rd u Reg.TIM_RATE = v ∧ gen u ∧
      OnlyRegs [Reg.TIM_OFFSET_LO, Reg.TIM_OFFSET_HI, Reg.TIM_RAW_BASE_LO, Reg.TIM_RAW_BASE_HI, Reg.TIM_RATE, Reg.TIM_PARAM_GEN] (taken s w) u) ∧
    (direct s w Reg.TIM_STEP = true → feature s 0 11 = true → Ends (.timStep w v) s fun u =>
      timOffset u = wrapN 64 ((timOffset s : Int) + v.toInt) ∧ gen u ∧
      OnlyRegs [Reg.TIM_OFFSET_LO, Reg.TIM_OFFSET_HI, Reg.TIM_PARAM_GEN] (taken s w) u) ∧
    (direct s w Reg.TIM_STEP = true → feature s 0 11 = false → Leads (.timStep w v) s (taken s w)) ∧
    (direct s w Reg.TIM_OFFSET_HI = true → Ends (.timOffsetHi w v) s fun u =>
      timOffset u = ((Tab.get (fun _ => none) s.holdW (holdKey w Reg.TIM_OFFSET_LO)).getD (rd s Reg.TIM_OFFSET_LO)).toNat + 2 ^ 32 * v.toNat ∧
      isSet u Reg.TIM_STATUS F.TIM_STATUS_SET = true ∧ gen u ∧
      SameRegsBut [Reg.TIM_OFFSET_LO, Reg.TIM_OFFSET_HI, Reg.TIM_STATUS, Reg.TIM_PARAM_GEN] (taken s w) u)) ∧
  (∀ (s : State) (w : Requester) (bad : Bool),
    (heard s w Reg.TIM_NOW_LO = true → Ends (.timNowLo w bad) s fun u =>
      u.out = .read w Reg.TIM_NOW_LO (BitVec.ofNat 32 (timNow s)) :: s.out ∧
      Tab.get (fun _ => none) u.holdR (holdKey w Reg.TIM_NOW_HI) = some (BitVec.ofNat 32 (timNow s / 2 ^ 32)) ∧
      Tab.get (fun _ => (0, false)) u.tim.snap (whoCode w) = (raw s, isSet s Reg.TIM_STATUS F.TIM_STATUS_SET) ∧ SameRegsBut [] s u) ∧
    (heard s w Reg.TIM_PPSIN_LO = true → Ends (.timPpsinLo w bad) s fun u =>
      u.out = .read w Reg.TIM_PPSIN_LO (rd s Reg.TIM_PPSIN_LO) :: s.out ∧
      (isExt w = false → isSet u Reg.TIM_PPSIN_STAT F.TIM_PPSIN_STAT_VALID = false ∧ SameRegsBut [Reg.TIM_PPSIN_STAT] s u) ∧
      (isExt w = true → SameRegsBut [] s u))) ∧
  (∀ (s : State) (n : Fin 16), let ctl := Reg.TIM_CMP_CTL n
    let due := isSet s ctl F.TIM_CMP_CTL_EN && reached (raw s) (rd64 s (Reg.TIM_CMP_TGT_LO n))
    (due = false → Leads (.timCmpFire n) s s) ∧
    (due = true → Ends (.timCmpFire n) s fun u =>
      isSet u Reg.TIM_CMP_EVT ⟨n, 1⟩ = true ∧ rd u (Reg.TIM_CMP_FIRE_CNT n) = rd s (Reg.TIM_CMP_FIRE_CNT n) + 1 ∧ u.mem = s.mem ∧
      (fld s ctl F.TIM_CMP_CTL_ACT = 0 → u.out = s.out) ∧
      (fld s ctl F.TIM_CMP_CTL_ACT = 1 → getF (rd s Reg.MGT_GPIO_FUNC) ⟨2 * n, 2⟩ = 2 → u.out = .gpioPulse n :: s.out) ∧
      (fld s ctl F.TIM_CMP_CTL_ACT = 2 → n = 15 → s.tim.ppsEnd = none → u.out = .pps true :: s.out ∧
        u.tim.ppsEnd = some (rawTotal s + fld s Reg.TIM_PPSOUT_W F.TIM_PPSOUT_W_VALUE * 128)) ∧
      (isSet s ctl F.TIM_CMP_CTL_PERIODIC = false → isSet u ctl F.TIM_CMP_CTL_EN = false ∧
        SameRegsBut [Reg.TIM_CMP_EVT, Reg.TIM_CMP_FIRE_CNT n, ctl] s u) ∧
      (isSet s ctl F.TIM_CMP_CTL_PERIODIC = true → rd s (Reg.TIM_CMP_PERIOD n) ≠ 0 →
        fld u (Reg.TIM_CMP_ADJ n) F.TIM_CMP_ADJ_ADJ = 0 ∧ isSet u ctl F.TIM_CMP_CTL_EN = true ∧
        ∃ k, let per := (rd s (Reg.TIM_CMP_PERIOD n)).toNat
          rd64 u (Reg.TIM_CMP_TGT_LO n) = (nextTgt s n + k * per) % 2 ^ 48 ∧
          rd u (Reg.TIM_CMP_SKIP_CNT n) = rd s (Reg.TIM_CMP_SKIP_CNT n) + BitVec.ofNat 32 k ∧
          reached (raw s) (nextTgt s n + k * per) = false ∧ (0 < k → reached (raw s) (nextTgt s n + (k - 1) * per) = true)))) ∧
  (∀ s : State,
    (∀ t, s.tim.ppsEnd = some t → t ≤ rawTotal s →
      Leads .ppsPulseEnd s (emit { s with tim := { s.tim with ppsEnd := none } } (.pps false))) ∧
    (s.tim.ppsEnd = none → Leads .ppsPulseEnd s s)) ∧
  (∀ (s : State) (rising : Bool) (sub : Fin 64), let stat := Reg.TIM_PPSIN_STAT
    (ppsTaken s rising = false → Leads (.ppsIn rising sub) s s) ∧
    (ppsTaken s rising = true → Ends (.ppsIn rising sub) s fun u =>
      rd64 u Reg.TIM_PPSIN_LO = wrapN 54 ((raw s * 64 + sub.val : Int) - fld s Reg.TIM_PPSIN_LAT F.TIM_PPSIN_LAT_VALUE) ∧
      isSet u stat F.TIM_PPSIN_STAT_VALID = true ∧
      fld u stat F.TIM_PPSIN_STAT_COUNT = (fld s stat F.TIM_PPSIN_STAT_COUNT + 1) % 2 ^ 16 ∧
      rd u Reg.TIM_PPSIN_OVR_CNT = rd s Reg.TIM_PPSIN_OVR_CNT + (if isSet s stat F.TIM_PPSIN_STAT_VALID = true then 1 else 0) ∧
      isSet u Reg.TIM_EVT F.TIM_EVT_PPSIN = true ∧ u.tim = { s.tim with lastPps := some (rawTotal s) } ∧ u.mem = s.mem))

/-- R404 to R408: a TIME message of the mailbox waits for its lane's next frame, or is refused with an error. A received one joins the queue of
64, a TIME_REQ the responder while that is on; the responder answers with TIME_RESP and, once that frame's stamp exists, with TIME_FOLLOW. -/
def Obligations.TimeMessages : Prop :=
  (∀ (s : State) (w : Requester) (v : Word), direct s w Reg.TIM_TTX_CTL = true → getF v F.TIM_TTX_CTL_BUNDLE ≤ 11 →
    let l := getF v F.TIM_TTX_CTL_BUNDLE * 8 + fld s (Reg.TIM_TTX_MSG 0) F.TIM_TTX_MSG_LANE
    let type := fld s (Reg.TIM_TTX_MSG 0) F.TIM_TTX_MSG_TYPE
    let busy := isSet s Reg.TIM_TTX_STAT F.TIM_TTX_STAT_BUSY
    let Refused (e : Nat) (u : State) : Prop := fld u Reg.TIM_TTX_STAT F.TIM_TTX_STAT_ERR = e ∧
      isSet u Reg.TIM_EVT F.TIM_EVT_TTX_ERR = true ∧ OnlyRegs [Reg.TIM_TTX_CTL, Reg.TIM_TTX_STAT, Reg.TIM_EVT] (taken s w) u
    (busy = true → Ends (.timTtxCtl w v) s (Refused 3)) ∧
    (busy = false → type < 0x10 ∨ 0x12 < type → Ends (.timTtxCtl w v) s (Refused 1)) ∧
    (busy = false → 0x10 ≤ type → type ≤ 0x12 → lnState s l ≠ 6 → Ends (.timTtxCtl w v) s (Refused 2)) ∧
    (busy = false → 0x10 ≤ type → type ≤ 0x12 → lnState s l = 6 → Ends (.timTtxCtl w v) s fun u =>
      u.tim = { s.tim with ttx := some (l, ttxBytes s) } ∧ isSet u Reg.TIM_TTX_STAT F.TIM_TTX_STAT_BUSY = true ∧
      isSet u Reg.TIM_TTX_STAT F.TIM_TTX_STAT_DONE = false ∧ fld u Reg.TIM_TTX_STAT F.TIM_TTX_STAT_ERR = 0 ∧
      SameRegsBut [Reg.TIM_TTX_CTL, Reg.TIM_TTX_STAT] (taken s w) u)) ∧
  (∀ (s : State) (w : Requester), direct s w Reg.TIM_TRX_POP = true →
    Leads (.timTrxPop w) s { taken s w with tim := { s.tim with trx := s.tim.trx.drop 1 } }) ∧
  (∀ (s : State) (l : Fin 96) (m : RxItem) (ms : List RxItem),
    let e : TrxEntry := { msg := m.bytes, stamp := m.stamp, bundle := l / 8, lane := l % 8, seq := m.seq % 2 ^ 13 }
    ((lane s l).rxMsgs = [] → Leads (.timeReq l) s s ∧ Leads (.timeMessageReceive l) s s) ∧
    (headMsg s l 0x10 m ms → autoResp s = true → Ends (.timeReq l) s fun u =>
      u.tim.resp = s.tim.resp ++ [{ bundle := l / 8, lane := l % 8, seqid := leAt m.bytes 4 2, t2 := m.stamp, respSent := false, t3 := none }] ∧
      rd u Reg.TIM_AUTORESP_CNT = rd s Reg.TIM_AUTORESP_CNT + 1 ∧ SameRegsBut [Reg.TIM_AUTORESP_CNT] s u ∧ u.tim.trx = s.tim.trx ∧
      u.lnk = (tookMsg s l m ms).lnk) ∧
    (headMsg s l 0x10 m ms → autoResp s = false → Ends (.timeReq l) s fun u => TrxTaken s u e ∧ u.lnk = (tookMsg s l m ms).lnk) ∧
    (headMsg s l 0x11 m ms ∨ headMsg s l 0x12 m ms →
      Ends (.timeMessageReceive l) s fun u => TrxTaken s u e ∧ u.lnk = (tookMsg s l m ms).lnk)) ∧
  (∀ (s : State) (l : Fin 96),
    let first := s.tim.resp.find? fun r => decide (r.bundle * 8 + r.lane = l.val) && !r.respSent
    let follow := s.tim.resp.find? fun r => decide (r.bundle * 8 + r.lane = l.val) && r.t3.isSome
    (first = none → Leads (.timeResp l) s s) ∧
    (∀ r, first = some r → Ends (.timeResp l) s fun u => Answered s u l 0x11 r r.t2 ∧
      u.tim = { s.tim with resp := s.tim.resp.map fun q => if q = r then { q with respSent := true } else q }) ∧
    (follow = none → Leads (.timeFollow l) s s) ∧
    (∀ r t3, follow = some r → r.t3 = some t3 → Ends (.timeFollow l) s fun u => Answered s u l 0x12 r t3 ∧
      u.tim = { s.tim with resp := s.tim.resp.filter fun q => q ≠ r }))

/-! ## The host interface -/

/-- R421 to R425, R427, R435: how a queue pair is enabled and disabled, what its doorbells do, how its commands are fetched, and when a
completion queue or an unmasked vector sends its message. -/
def Obligations.QueuePairs : Prop :=
  (∀ (s : State) (w : Requester) (q : Fin 64), direct s w (Reg.QP_CTL q) = true →
    let f := whoFn w
    let ctl := qp f q Reg.QP_CTL
    (isSet s ctl F.QP_CTL_EN = false → swAccepted s f = true → q < ownPairs s f → Ends (.qpEnable w q) s fun u =>
      isSet u ctl F.QP_CTL_EN = true ∧ fld u (qp f q Reg.QP_STAT) F.QP_STAT_ERR = 0 ∧ rd u (qp f q Reg.QP_SQ_HEAD) = 0 ∧
      rd u (qp f q Reg.QP_SQ_TAIL) = 0 ∧ rd u (qp f q Reg.QP_CQ_HEAD) = 0 ∧ fld u (qp f q Reg.QP_CQ_TAIL) F.QP_CQ_TAIL_INDEX = 0 ∧
      fld u (qp f q Reg.QP_CQ_TAIL) F.QP_CQ_TAIL_PHASE = 1 ∧ coal u f q = {} ∧ u.mem = s.mem ∧ u.hif.cmds = s.hif.cmds) ∧
    (isSet s ctl F.QP_CTL_EN = false → swAccepted s f = false ∨ ownPairs s f ≤ q → Ends (.qpEnable w q) s fun u =>
      isSet u ctl F.QP_CTL_EN = false ∧ fld u (qp f q Reg.QP_STAT) F.QP_STAT_ERR = 4 ∧ u.mem = s.mem ∧ u.hif.cmds = s.hif.cmds) ∧
    (isSet s ctl F.QP_CTL_EN = true → Ends (.qpDisable w q) s fun u => isSet u ctl F.QP_CTL_EN = false ∧ u.mem = s.mem ∧
      u.hif.cmds = s.hif.cmds)) ∧
  (∀ (s : State) (f : Fin 32) (q : Fin 64) (v : Word), rings s f = true →
    let x := v.toNat % 4096
    let runs := isSet s (qp f q Reg.QP_CTL) F.QP_CTL_EN && !resetting s f
    let n := cqSize s f q
    let h := fld s (qp f q Reg.QP_CQ_HEAD) F.QP_CQ_HEAD_INDEX
    let t := fld s (qp f q Reg.QP_CQ_TAIL) F.QP_CQ_TAIL_INDEX
    let inside := decide (x < n ∧ (x + n - h) % n ≤ (t + n - h) % n)
    let s1 := setFld s (qp f q Reg.QP_CQ_HEAD) F.QP_CQ_HEAD_INDEX x
    (runs = false → Leads (.sqTailDb f q v) s s ∧ Leads (.cqHeadDb f q v) s s) ∧
    (runs = true → x < sqSize s f q → Leads (.sqTailDb f q v) s (setFld s (qp f q Reg.QP_SQ_TAIL) F.QP_SQ_TAIL_INDEX x)) ∧
    (runs = true → sqSize s f q ≤ x → Ends (.sqTailDb f q v) s fun u => DbIgnored s u f q) ∧
    (runs = true → inside = false → Ends (.cqHeadDb f q v) s fun u => DbIgnored s u f q) ∧
    (runs = true → inside = true → waits s f q = false → Leads (.cqHeadDb f q v) s s1) ∧
    (∀ c, runs = true → inside = true → (s.hif.waiting.filter fun c => decide (c.f = f.val ∧ c.q = q.val)) = [c] →
      cqReady { s1 with hif := { s1.hif with waiting := [] } } f q = true → Ends (.cqHeadDb f q v) s fun u =>
        CplWritten s1 u f q (c.words.map (·.toNat)) (if c.command then fld s (qp f q Reg.QP_SQ_HEAD) F.QP_SQ_HEAD_INDEX else 0) ∧
        u.hif.waiting = s.hif.waiting.filter (fun c => !decide (c.f = f.val ∧ c.q = q.val)) ∧ u.mem = s.mem)) ∧
  (∀ (s : State) (fail : Bool), let pick := firstFrom (fun i => fetchable s ((s.hif.rrNext + i) % 2048 / 64) ((s.hif.rrNext + i) % 64)) 2048 0
    (pick = none → allStarted s = true → Leads (.sqFetch fail) s s) ∧
    (∀ i, pick = some i → let k := (s.hif.rrNext + i) % 2048
      let f := k / 64
      let q := k % 64
      (fail = true ∨ s.hif.linkTrained = false → allStarted s = true → Ends (.sqFetch fail) s fun u =>
        isSet u (qp f q Reg.QP_CTL) F.QP_CTL_EN = false ∧ fld u (qp f q Reg.QP_STAT) F.QP_STAT_ERR = 2 ∧
        isSet u (fnKey f Reg.HIF_EVT) F.HIF_EVT_FETCH_ERR = true ∧ u.hif.cmds = s.hif.cmds ∧ u.mem = s.mem) ∧
      (fail = false → s.hif.linkTrained = true →
        let n := min 8 (min (sqEntries s f q) (256 - inFlight s f))
        let s1 := (upto n).foldl (fun s _ => takeEntry s f q) { s with hif := { s.hif with rrNext := (k + 1) % 2048 } }
        (s1.hif.cmds.all holdsStill = true → Leads (.sqFetch fail) s s1 ∧ s1.hif.cmds.length = s.hif.cmds.length + n) ∧
        (∀ x, allStarted s = true → s1.hif.cmds = s.hif.cmds ++ [x] → x.fence = false → (∀ c ∈ s.hif.cmds, c.seq ≠ x.seq) →
          (x.badParam = true → Ends (.sqFetch fail) s fun u => Completed s1 u x stBADPARAM []) ∧
          (∀ op, x.badParam = false → x.cmd = .bad op → Ends (.sqFetch fail) s fun u => Completed s1 u x stBADOP []) ∧
          (∀ m args, x.badParam = false → x.cmd = .mgmt m args → s.hif.mail.length < 64 → Ends (.sqFetch fail) s fun u =>
            u.hif.mail = s.hif.mail ++ [{ seq := x.seq, f := x.f, mcode := m, args := args }] ∧ u.mem = s.mem))))) ∧
  (∀ (s : State) (f : Fin 32) (q : Fin 64), let v := fld s (qp f q Reg.QP_VEC) F.QP_VEC_VECTOR
    let due := coalDue s f q && isSet s (qp f q Reg.QP_CTL) F.QP_CTL_IEN
    (due = false → Leads (.coalesceTimer f q) s s) ∧
    (due = true → resetting s f = false → v < msixSize s f → isSet s (fnKey f (Reg.MSIX_VCTL v)) F.MSIX_VCTL_MASK = false →
      s.hif.linkTrained = true → Ends (.coalesceTimer f q) s fun u => coal u f q = {} ∧
        u.out = .msix f v (rd64 s (fnKey f (Reg.MSIX_ADDR_LO v))) (rd s (fnKey f (Reg.MSIX_DATA v))) :: s.out ∧ SameRegsBut [] s u)) ∧
  (∀ (s : State) (w : Requester) (v : Fin 2048), direct s w (Reg.MSIX_VCTL v) = true →
    let f := whoFn w
    let pba := fnKey f (Reg.MSIX_PBA (v / 32))
    let pending := isSet s pba ⟨v % 32, 1⟩
    Ends (.msixUnmask w v) s fun u => isSet u (fnKey f (Reg.MSIX_VCTL v)) F.MSIX_VCTL_MASK = false ∧
      (pending = false → u.out = s.out ∧ SameRegsBut [fnKey f (Reg.MSIX_VCTL v)] (taken s w) u) ∧
      (pending = true → v < msixSize s f → s.hif.linkTrained = true → isSet u pba ⟨v % 32, 1⟩ = false ∧
        u.out = .msix f v (rd64 s (fnKey f (Reg.MSIX_ADDR_LO v))) (rd s (fnKey f (Reg.MSIX_DATA v))) :: s.out))

/-- R66, R67, R424, R428 to R432: what each command of a submission queue does once it may start: it completes with its status and fields, or
runs on: a validation until it ends, a release until no reference is left, a DMA transfer, an armed RESULT until its copy is done. -/
def Obligations.QueueCommands : Prop :=
  (∀ (s : State) (f : Fin 32) (q : Fin 64) (c : InFlight), OnlyCmd s f q c →
    let s0 := markStarted s c.seq
    (c.cmd = .nop → Ends (.nopCommand f q) s fun u => Completed s u c stOK []) ∧
    (c.cmd ≠ .nop → holdsStill c = true → Leads (.nopCommand f q) s s) ∧
    (∀ a, c.cmd = .load false a →
      (∀ v, validOf s f a = some v → Ends (.loadPaletteValidate f q) s fun u => Completed s u c stOK [0, 0, v.handle]) ∧
      (validOf s f a = none → Leads (.loadPaletteValidate f q) s s0)) ∧
    (∀ a, c.cmd = .load true a →
      (validOf s f a = none → Ends (.loadPaletteRelease f q) s fun u => Completed s u c stDENIED []) ∧
      (∀ v, (s.hif.valid.filter fun x => decide (x.func = f.val ∧ x.addr = a)) = [v] → noRelease s = true →
        (∀ x ∈ s.hif.cmds, x.started = true → x.cmd ≠ .load true a) →
        (referred s v = false → Ends (.loadPaletteRelease f q) s fun u => Completed s u c stOK [0, 0, v.handle] ∧
          u.hif.valid = s.hif.valid.filter fun x => decide (x.handle ≠ v.handle)) ∧
        (referred s v = true → Leads (.loadPaletteRelease f q) s { s0 with hif := { s0.hif with
          valid := s.hif.valid.map fun x => if x.func = f.val ∧ x.addr = a then { x with releasing := true } else x } }))) ∧
    (∀ n e, c.cmd = .submit n e → n < 64 →
      let full := decide ((tlTail s n + 1) % ringSize s n = tlHead s n)
      let s1 := (fabWrites 2 s0 (hostIssuer f) (ringBase s n + tlTail s n * 32) e).2
      (tlOwner s n ≠ f.val → Ends (.slotSubmit f q) s fun u => Completed s u c stDENIED []) ∧
      (tlOwner s n = f.val → tlDirect s n = true → Ends (.slotSubmit f q) s fun u => Completed s u c stBADPARAM []) ∧
      (tlOwner s n = f.val → tlDirect s n = false → full = true → Ends (.slotSubmit f q) s fun u => Completed s u c stRINGFULL []) ∧
      (tlOwner s n = f.val → tlDirect s n = false → full = false → ringSize s1 n ≤ 4096 → Ends (.slotSubmit f q) s fun u =>
        tlTail u n = (tlTail s1 n + 1) % ringSize s1 n ∧ Completed s1 u c stOK [tlTail u n, tlSlot u n])) ∧
    (∀ k ctrl chain src dst n desc, c.cmd = .dma k ctrl chain src dst n desc → k < 128 →
      let crc := !(decide (bits ctrl 3 3 = 6) && !accepted s f 7)
      let owned := decide (chFunc s k = f.val) && !chDisp s k
      let free := startable s k && domLive s (16 + k / 32)
      (crc = false → Ends (.dmaCommand f q) s fun u => Completed s u c stBADPARAM []) ∧
      (crc = true → owned = false → Ends (.dmaCommand f q) s fun u => Completed s u c stDENIED []) ∧
      (crc = true → owned = true → free = false → Ends (.dmaCommand f q) s fun u => Completed s u c stBUSY []) ∧
      (crc = true → owned = true → free = true → noDmaTask s = true → pairOn s k = none → chain = true → ctrl < 4096 →
        Ends (.dmaCommand f q) s fun u => chState u k = 1 ∧ chErr u k = 0 ∧ (chan u k).fetch = true ∧
          rd64 u (chReg k Reg.CH_DESC_LO) = desc % 2 ^ 64 ∧ u.hif.cmds = s0.hif.cmds ∧ u.mem = s.mem ∧ u.hostMem = s.hostMem) ∧
      (crc = true → owned = true → free = true → noDmaTask s = true → pairOn s k = none → chain = false → ctrl < 4096 → 0 < n →
        n ≤ 16777216 → src < 2 ^ 64 → dst < 2 ^ 64 → rangeOk (bitAt ctrl 0) src n = true → rangeOk (bitAt ctrl 1) dst n = true →
        chCfg s k F.CH_CFG_REQ_EN = 0 → Ends (.dmaCommand f q) s fun u =>
          chState u k = 1 ∧ chErr u k = 0 ∧ (chan u k).active = true ∧ chSrc u k = src ∧ chDst u k = dst ∧ chCount u k = n ∧
          u.hif.cmds = s0.hif.cmds ∧ u.mem = s.mem ∧ u.hostMem = s.hostMem)) ∧
    (∀ t slot b haddr n, c.cmd = .result t slot b haddr n →
      let many := decide (1024 ≤ (s.hif.armed.filter fun a => decide (a.f = f.val)).length)
      let gone := s.hif.reported.contains (t, slot)
      (accepted s f 3 = false → Ends (.result f q) s fun u => Completed s u c stUNSUPPORTED []) ∧
      (accepted s f 3 = true → tlOwner s t ≠ f.val → Ends (.result f q) s fun u => Completed s u c stDENIED []) ∧
      (accepted s f 3 = true → tlOwner s t = f.val → many = true → Ends (.result f q) s fun u => Completed s u c stBUSY []) ∧
      (accepted s f 3 = true → tlOwner s t = f.val → many = false → gone = true → Ends (.result f q) s fun u => Completed s u c stGONE []) ∧
      (accepted s f 3 = true → tlOwner s t = f.val → many = false → gone = false →
        Leads (.result f q) s { s0 with hif := { s0.hif with
          armed := s.hif.armed ++ [{ seq := c.seq, f := f, tl := t, slot := slot, buf := b, haddr := haddr, maxlen := n }] } }))) ∧
  (∀ (s : State) (idx : Fin 4), ((validations s)[idx.val]? = none → allStarted s = true → Leads (.validationDone idx) s s) ∧
    (∀ (c : InFlight) (a : Nat), (validations s)[idx.val]? = some c → c.cmd = .load false a → c.f < 32 → c.q < 64 → allStarted s = true →
      (∀ x ∈ s.hif.cmds, x ≠ c → x.seq ≠ c.seq) →
      (∀ v, validOf s c.f a = some v → Ends (.validationDone idx) s fun u => Completed s u c stOK [0, 0, v.handle]) ∧
      (∀ part index code s1, validOf s c.f a = none → validateImage s c.f a = (some (part, index, code), s1) →
        Ends (.validationDone idx) s fun u => Completed s1 u c stVALIDATION [code, index + part * 2 ^ 16, 0] ∧ u.hif.valid = s.hif.valid) ∧
      (∀ s1, validOf s c.f a = none → validateImage s c.f a = (none, s1) →
        Ends (.validationDone idx) s fun u => ∃ h, h < 1024 ∧ (∀ v ∈ s.hif.valid, v.handle ≠ h) ∧
          u.hif.valid = s.hif.valid ++ [{ handle := h, addr := a, func := c.f, releasing := false }] ∧
          Completed s1 u c stOK [0, 0, h]))) ∧
  (∀ s : State, allStarted s = true →
    ((s.hif.armed.find? fun a => a.copy.isSome) = none → Leads .resultCopyDone s s) ∧
    (∀ (x : Armed) (c : InFlight) (a n len : Nat) (ok : Bool) (s1 : State), (s.hif.armed.find? fun a => a.copy.isSome) = some x →
      x.copy = some (a, n) → c ∈ s.hif.cmds → c.seq = x.seq → (∀ y ∈ s.hif.cmds, y ≠ c → y.seq ≠ c.seq) → c.f < 32 → c.q < 64 →
      copyOut 65540 { s with hif := { s.hif with armed := s.hif.armed.filter fun y => decide (y.seq ≠ x.seq) } } x.f a x.haddr n 0 = (len, ok, s1) →
      Ends .resultCopyDone s fun u => Completed s1 u c (if ok then stOK else stCOPYERR) [len] ∧
        u.hif.armed = s.hif.armed.filter fun y => decide (y.seq ≠ x.seq)))

/-- R415 to R420, R435 to R441, R517, R526, R337: BAR4 requests are taken and performed part by part, or answered with an error. A register
write reaches its register, waits for its domain, or is turned away and counted. The features of a swatch are accepted or refused whole. A
function level reset stops its function and ends with its registers at reset; the PCIe link goes down and comes up; a host read that times out
stops the channel or the queue pair. -/
def Obligations.HostAccess : Prop :=
  (∀ (s : State) (f : Fin 32) (tag : BitVec 14) (off : BitVec 36) (n : Fin 4097) (bs : List Byte),
    let s0 := vfSeen s f
    let a := fnKey f Reg.HIF_EVT
    let Err (u : State) : Prop := rd u (fnKey f Reg.HIF_BAR4_ERR_CNT) = rd s (fnKey f Reg.HIF_BAR4_ERR_CNT) + 1 ∧
      isSet u a F.HIF_EVT_BAR4_ERR = true ∧ u.hif.bar4 = s.hif.bar4 ∧ u.mem = s.mem ∧
      (isSet s a F.HIF_EVT_BAR4_ERR = false → rd64 u (fnKey f Reg.HIF_BAR4_ERR_ADDR_LO) = off.toNat)
    let rdReq : Bar4Req := { f := f, tag := tag.toNat, write := false, off := off.toNat, len := n, data := [], done := 0, outcome := 0 }
    let wrReq : Bar4Req := { f := f, tag := 0, write := true, off := off.toNat, len := bs.length, data := bs, done := 0, outcome := 0 }
    (s.hif.linkTrained = false → Leads (.bar4Read f tag off n) s s0 ∧ Leads (.bar4Write f off bs) s s0) ∧
    (s.hif.linkTrained = true → s.hif.bar4En = false →
      Leads (.bar4Read f tag off n) s (emit s0 (.pcie f tag.toNat 2 [])) ∧ Leads (.bar4Write f off bs) s s0) ∧
    (s.hif.linkTrained = true → s.hif.bar4En = true → 0x880000000 ≤ off.toNat →
      (Ends (.bar4Read f tag off n) s fun u => Err u ∧ u.out.head? = some (.pcie f tag.toNat 2 [])) ∧ Ends (.bar4Write f off bs) s Err) ∧
    (s.hif.linkTrained = true → s.hif.bar4En = true → off.toNat < 0x880000000 →
      Leads (.bar4Read f tag off n) s { s0 with hif := { s0.hif with bar4 := s.hif.bar4 ++ [rdReq] } } ∧
      Leads (.bar4Write f off bs) s { s0 with hif := { s0.hif with bar4 := s.hif.bar4 ++ [wrReq] } })) ∧
  (∀ (s : State) (f : Fin 32) (d : Delivery), let first := s.hif.bar4.find? fun r => decide (r.f = f.val)
    (first = none → Leads (.bar4Response f d) s s) ∧
    (∀ r dev, first = some r → bar4Addr (r.off + r.done) = some dev →
      let n := chunk dev (r.len - r.done)
      let last := decide (r.len ≤ r.done + n)
      (∀ c s1, r.write = true → writeVia d s (hostIssuer f) dev ((r.data.drop r.done).take n) = (c, s1) →
        Ends (.bar4Response f d) s fun u => u.mem = s1.mem ∧
          u.hif.bar4 = bar4Set f (if last then none else some { r with done := r.done + n }) s1.hif.bar4 ∧
          rd u (fnKey f Reg.HIF_BAR4_ERR_CNT) = rd s1 (fnKey f Reg.HIF_BAR4_ERR_CNT) + (if c = OKAY then 0 else 1)) ∧
      (∀ c bs s1, r.write = false → s.hif.linkTrained = true → readVia d s (hostIssuer f) dev n = (c, bs, s1) → s1.hif.linkTrained = true →
        Ends (.bar4Response f d) s fun u => u.mem = s1.mem ∧
          rd u (fnKey f Reg.HIF_BAR4_ERR_CNT) = rd s1 (fnKey f Reg.HIF_BAR4_ERR_CNT) + (if c = OKAY then 0 else 1) ∧
          (c = OKAY → last = true → u.hif.bar4 = bar4Set f none s1.hif.bar4 ∧
            u.out = .pcie f r.tag r.outcome (if r.outcome ≤ 1 then r.data ++ bs else []) :: s1.out) ∧
          (c = OKAY → last = false → u.out = s1.out ∧
            u.hif.bar4 = bar4Set f (some { r with done := r.done + n, data := r.data ++ bs }) s1.hif.bar4) ∧
          (c ≠ OKAY → last = true → u.hif.bar4 = bar4Set f none s1.hif.bar4 ∧
            ∃ data, u.out.head? = some (.pcie f r.tag (max r.outcome (bar4Outcome c)) data))))) ∧
  (∀ (s : State) (w : Requester) (sz : AccSize) (a : BitVec 25) (v : Word), let k := a.toNat
    (reaches s w = false → Leads (.registerWrite w sz a v) s s) ∧
    (reaches s w = true → sz ≠ .word ∨ k % 4 ≠ 0 → Leads (.registerWrite w sz a v) s (arrives s w)) ∧
    (∀ d x, direct s w k = true → k % 4 = 0 → findReg k = some (d, x) → d.pair = 0 → writeAtList (hookBlock k) k = none → keepLane s w k v = v →
      let key := if d.perFn then fnKey (whoFn w) k else k
      Leads (.registerWrite w .word a v) s (wr (taken s w) key (mergeReg w k d (rd (taken s w) key) v))) ∧
    (reaches s w = true → arrives s w = s → k % 4 = 0 → s.mgt.late = [] → viewOf s w (canonOff k) = .hidden →
      Ends (.registerWrite w .word a v) s fun u =>
        rd u Reg.HIF_VF_BLOCKED_CNT = rd s Reg.HIF_VF_BLOCKED_CNT + 1 ∧ isSet u Reg.HIF_EVT F.HIF_EVT_VF_BLOCKED = true ∧ u.mem = s.mem) ∧
    (isExt w = true → k % 4 = 0 → s.mgt.late = [] → extLocked s w (canonOff k) = true → Ends (.registerWrite w .word a v) s fun u =>
      isSet u Reg.MGT_EXT_STAT F.MGT_EXT_STAT_LOCKED = true ∧ isSet u Reg.MGT_EXT_STAT F.MGT_EXT_STAT_DROPPED = false ∧
      OnlyRegs [Reg.MGT_EXT_STAT] s u) ∧
    (∀ (i : Fin 4) d x, w = .mc i → k % 4 = 0 → canonOff k = k → findReg k = some (d, x) → d.pair = 0 → mayWrite w k d.who = true →
      blockLive s (blockDomain k) = false → s.mgt.late = [] →
      Ends (.registerWrite w .word a v) s fun u =>
        u.mgt.late = (if rwMask d = 0 then [] else [(k, mergeReg w k d (rd s k) (v &&& ~~~(BitVec.ofNat 32 (w1cMask d))))]) ∧
        rd u Reg.MGT_DROP_CNT = rd s Reg.MGT_DROP_CNT + (if dropsPart w k d v then 1 else 0) ∧
        SameRegsBut [Reg.MGT_DROP_CNT] s u ∧ u.mem = s.mem)) ∧
  (∀ (s : State) (w : Requester), direct s w Reg.SWATCH_CTL = true →
    let stat := fnKey (whoFn w) Reg.SWATCH_STAT
    (swAccepted s (whoFn w) = true → Leads (.swatchAccept w) s (taken s w)) ∧
    (swAccepted s (whoFn w) = false → Ends (.swatchAccept w) s fun u => OnlyRegs [stat] (taken s w) u ∧
      (notOffered s (whoFn w) = none → isSet u stat F.SWATCH_STAT_ACCEPTED = true ∧ isSet u stat F.SWATCH_STAT_ERR = false) ∧
      (∀ j, notOffered s (whoFn w) = some j → isSet u stat F.SWATCH_STAT_ACCEPTED = false ∧ isSet u stat F.SWATCH_STAT_ERR = true ∧
        fld u stat F.SWATCH_STAT_ERRBIT = j))) ∧
  (∀ (s : State) (f : Fin 32) (clr : Bool), resetting s f = false → (f = 0 → enabledVfs s = []) →
    (∀ k, k < 128 → chFunc s k = f.val → chDisp s k = false → chBusy s k = false) →
    Ends (.functionLevelReset f clr) s fun u =>
      resetting u f = true ∧ (∀ n, n < 64 → tlOwner s n = f.val → isSet u (Reg.TL_CTL n) F.TL_CTL_EN = false) ∧
      (∀ n, n < 64 → tlOwner s n ≠ f.val → rd u (Reg.TL_CTL n) = rd s (Reg.TL_CTL n)) ∧
      (∀ c ∈ u.hif.cmds, c.f = f.val → c.started = true) ∧ (∀ c ∈ s.hif.cmds, c.f ≠ f.val → c ∈ u.hif.cmds) ∧
      (∀ x ∈ u.hif.waiting, x.f ≠ f.val) ∧ (∀ x ∈ u.hif.armed, x.f ≠ f.val) ∧ (∀ x ∈ u.hif.mail, x.f ≠ f.val) ∧ u.mem = s.mem ∧
      (clr = true → f ≠ 0 → vfOn u f = false)) ∧
  (∀ (s : State) (f : Fin 32),
    (resetting s f = false → Leads (.flrComplete f) s s) ∧
    (resetting s f = true → resetOrder s f = [f.val] → (∀ r ∈ s.hif.bar4, r.f ≠ f.val) → noRelease s = true →
      Ends (.flrComplete f) s fun u =>
        resetting u f = false ∧ (∀ c ∈ u.hif.cmds, c.f ≠ f.val) ∧ (∀ c ∈ s.hif.cmds, c.f ≠ f.val → c ∈ u.hif.cmds) ∧
        (∀ v ∈ u.hif.valid, v.func = f.val → v.releasing = true) ∧
        (∀ a, 0x100 ≤ a → a < 0x10000 → (f = 0 → a < 0x3000 ∨ 0x7000 ≤ a) → rd u (fnKey f a) = regReset (fnKey f a)) ∧
        (∀ k, (∀ a, 0x100 ≤ a → a < 0x10000 → k ≠ fnKey f a) → rd u k = rd s k) ∧ u.mem = s.mem)) ∧
  (∀ s : State,
    (s.hif.linkTrained = false → Leads .pcieLinkDown s s) ∧
    (s.hif.linkTrained = true → Ends .pcieLinkDown s fun u =>
      u.hif.linkTrained = false ∧ isSet u Reg.HIF_EVT F.HIF_EVT_LINK_DOWN = true ∧ u.out = s.out ∧ u.mem = s.mem) ∧
    (s.hif.hstReset = false → Leads .pcieLinkUp s { s with hif := { s.hif with linkTrained := true } }) ∧
    (s.hif.hstReset = true → Leads .pcieLinkUp s s)) ∧
  (∀ (s : State) (c : Fin 128),
    let host := (chan s c).fetch && decide (chCtl s c F.CH_CTRL_NEXT_HOST = 1)
    let Stopped (at_ : Nat) (u : State) : Prop := chState u c = 3 ∧ chErr u c = TIMEOUT ∧ (chan u c).active = false ∧
      rd64 u (chReg c Reg.CH_ERR_ADDR_LO) = at_ % 2 ^ 64 ∧ u.mem = s.mem ∧ u.hostMem = s.hostMem
    (host = false → chCtl s c F.CH_CTRL_SRC_HOST = 0 → Leads (.pcieCompletionTimeout (some c)) s s) ∧
    (host = true → chErr s c = 0 → chBusy s c = true → noDmaTask s = true →
      Ends (.pcieCompletionTimeout (some c)) s (Stopped (rd64 s (chReg c Reg.CH_DESC_LO)))) ∧
    (∀ off n rest, host = false → chCtl s c F.CH_CTRL_SRC_HOST = 1 → (chan s c).reads = (off, n) :: rest → chErr s c = 0 →
      chBusy s c = true → noDmaTask s = true → Ends (.pcieCompletionTimeout (some c)) s (Stopped (chSrc s c + off))) ∧
    (∀ i, firstFrom (fun i => fetchable s ((s.hif.rrNext + i) % 2048 / 64) ((s.hif.rrNext + i) % 64)) 2048 0 = some i → allStarted s = true →
      let k := (s.hif.rrNext + i) % 2048
      Ends (.pcieCompletionTimeout none) s fun u =>
        isSet u (qp (k / 64) (k % 64) Reg.QP_CTL) F.QP_CTL_EN = false ∧ fld u (qp (k / 64) (k % 64) Reg.QP_STAT) F.QP_STAT_ERR = 2 ∧
        isSet u (fnKey (k / 64) Reg.HIF_EVT) F.HIF_EVT_FETCH_ERR = true ∧ u.hif.cmds = s.hif.cmds))

/-- R433, R476, R511, R538: what management firmware does for each request of the mailbox, and how it answers: at once, when the transition that
the request starts is over, or with DENIED, REFUSED, BAD_ARG or GONE. A request that is not answered in time ends with MGMT_TIMEOUT. -/
def Obligations.MgmtRequests : Prop :=
  (∀ (s : State) (no : Bool), s.mgt.late = [] → ∀ x code, MgmtCmd no x code →
    (s.hif.mail.find? fun y => decide (y.mcode = code ∧ y.wait = none)) = none → Leads x s s) ∧
  (∀ (s : State) (no : Bool) (m : Mail) (c : InFlight), ∀ x code, MgmtCmd no x code → Asked s code m c → m.f ≠ 0 →
    code ∈ [0x0102, 0x0103, 0x0104, 0x0105, 0x0107, 0x0203, 0x0204, 0x0004] → Ends x s fun u => AnsweredMail s u m c acDENIED []) ∧
  (∀ (s : State) (m : Mail) (c : InFlight),
    let n := leAt m.args 0 1
    let b1 := leAt m.args 1 1
    let b2 := leAt m.args 2 1
    let un := leAt m.args 0 2
    let badSt := decide (20 ≤ n ∨ ¬(b1 = 0 ∨ b1 = 2 ∨ b1 = 3) ∨ 1 < b2)
    let s1 := opRequest (setFld s (Reg.PWR_DOM_OP n) F.PWR_DOM_OP_REQ_OP b1) n
    (Asked s 0x0001 m c → Ends .getPower s fun u => AnsweredMail s u m c acOK (powerBytes s)) ∧
    (Asked s 0x0002 m c → ∀ no,
      (badSt = true → Ends (.setState no) s fun u => AnsweredMail s u m c acBADARG []) ∧
      (badSt = false → unitOfFn s m.f (uDom n) = false → Ends (.setState no) s fun u => AnsweredMail s u m c acDENIED []) ∧
      (badSt = false → unitOfFn s m.f (uDom n) = true → no = true ∨ domSt s n = 6 →
        Ends (.setState no) s fun u => AnsweredMail s u m c acREFUSED []) ∧
      (badSt = false → unitOfFn s m.f (uDom n) = true → no = false → domSt s n ≠ 6 → (dom s n).trans = none →
        (b1 = domSt s n ∨ (b1 = 0 ∧ domSt s n = 1) ∨ (b1 = 2 ∧ domSt s n = 3) →
          Ends (.setState no) s fun u => AnsweredMail s u m c acOK (leBytes 4 (peek s 0 0 (Reg.PWR_DOMAIN_STATE n)).toNat)) ∧
        (b1 ≠ 0 → domLive s n = true → calmDomain s n = true → Ends (.setState no) s fun u =>
          Entering u n b1 1 (decide (b2 = 1)) ∧ Waiting s u m (uDom n) ∧ u.mem = s.mem) ∧
        (b1 = 0 → domSt s n = 2 ∨ domSt s n = 3 → Ends (.setState no) s fun u =>
          domSt u n = 5 ∧ (dom u n).trans.isSome = true ∧ Waiting s u m (uDom n) ∧ u.mem = s.mem))) ∧
    (Asked s 0x0003 m c → ∀ no,
      (16 ≤ n ∨ 4 ≤ b1 → Ends (.setOp no) s fun u => AnsweredMail s u m c acBADARG []) ∧
      (n < 16 → b1 < 4 → unitOfFn s m.f (uDom n) = false → Ends (.setOp no) s fun u => AnsweredMail s u m c acDENIED []) ∧
      (n < 16 → b1 < 4 → unitOfFn s m.f (uDom n) = true → no = true → Ends (.setOp no) s fun u => AnsweredMail s u m c acREFUSED []) ∧
      (n < 16 → b1 < 4 → unitOfFn s m.f (uDom n) = true → no = false → Ends (.setOp no) s fun u =>
        fld u (Reg.PWR_DOM_OP n) F.PWR_DOM_OP_REQ_OP = b1 ∧
        fld u (Reg.PWR_DOM_OP n) F.PWR_DOM_OP_TARGET = max b1 (fld s (Reg.PWR_DOM_OP n) F.PWR_DOM_OP_CAP) ∧
        ((dom s1 n).trans = none → AnsweredMail s1 u m c acOK (leBytes 4 (peek s1 0 0 (Reg.PWR_DOM_OP n)).toNat)) ∧
        ((dom s1 n).trans ≠ none → Waiting s u m (uDom n)))) ∧
    (Asked s 0x0004 m c → m.f = 0 → ∀ no,
      (n ≠ 0 → n ≠ 2 → Ends (.setLevel no) s fun u => AnsweredMail s u m c acBADARG []) ∧
      (n = 0 ∨ n = 2 → no = true → Ends (.setLevel no) s fun u => AnsweredMail s u m c acREFUSED []) ∧
      ((∀ y ∈ s.hif.mail, y.wait ≠ some 0) → (∀ y ∈ s.hif.mail, y ≠ m → y.seq ≠ m.seq) → s.pwr.levelTarget = none → no = false →
        (n = 2 → isSet s Reg.TLN_CTL F.TLN_CTL_EN = true → Ends (.setLevel no) s fun u =>
          AnsweredMail s u m c acREFUSED (leBytes 4 (peek s 0 0 Reg.PWR_LEVEL).toNat) ∧ isSet u Reg.PWR_EVT F.PWR_EVT_LEVEL_REFUSED = true) ∧
        (n = level s → n = 0 ∨ (n = 2 ∧ isSet s Reg.TLN_CTL F.TLN_CTL_EN = false) →
          Ends (.setLevel no) s fun u => AnsweredMail s u m c acOK (leBytes 4 (peek s 0 0 Reg.PWR_LEVEL).toNat)) ∧
        (n = 2 → isSet s Reg.TLN_CTL F.TLN_CTL_EN = false →
          (∀ d, d < 20 → domLive s d = true ∧ (dom s d).trans = none ∧ calmDomain s d = true) →
          Ends (.setLevel no) s fun u => u.pwr.levelTarget = some 2 ∧ (∀ d, d < 20 → Entering u d 3 5 false) ∧ Waiting s u m 0 ∧ u.mem = s.mem))) ∧
    (Asked s 0x0005 m c → Ends .getThermal s fun u => AnsweredMail s u m c acOK (leBytes 2 (fld s Reg.THM_STAT F.THM_STAT_TEMP) ++
      leBytes 1 (fld s Reg.THM_STAT F.THM_STAT_HOTTEST) ++ leBytes 1 (thermalFlags s))) ∧
    (Asked s 0x0101 m c →
      (unitOfFn s m.f un = true → Ends .getUnit s fun u => AnsweredMail s u m c acOK
        (leBytes 4 (unitStat s un).toNat ++ leBytes 4 (unit s un).total ++ leBytes 6 (unit s un).last)) ∧
      (unitOfFn s m.f un = false → Ends .getUnit s fun u => AnsweredMail s u m c acDENIED [])) ∧
    (Asked s 0x0102 m c → m.f = 0 → ∀ no,
      (retirable un = false → Ends (.retire no) s fun u => AnsweredMail s u m c acBADARG []) ∧
      (retirable un = true → no = true → Ends (.retire no) s fun u => AnsweredMail s u m c acREFUSED []) ∧
      (retirable un = true → no = false → (retire s un).hif = s.hif → Ends (.retire no) s fun u =>
        AnsweredMail (retire s un) u m c acOK (leBytes 4 (unitStat (retire s un) un).toNat) ∧
        (unitSt s un ≠ 3 → un / 4096 ∈ [3, 6, 7, 8, 9, 11] → s.job.list = [] → unitSt u un = 3 ∧ fenced u un = true ∧
          rd u Reg.RAS_RETIRE_CNT = rd s Reg.RAS_RETIRE_CNT + 1 ∧ isSet u Reg.RAS_EVT F.RAS_EVT_RETIRE = true ∧ u.mem = s.mem))) ∧
    (Asked s 0x0103 m c → m.f = 0 → ∀ no,
      (retirable un = false → Ends (.restore no) s fun u => AnsweredMail s u m c acBADARG []) ∧
      (retirable un = true → no = true → Ends (.restore no) s fun u => AnsweredMail s u m c acREFUSED []) ∧
      (retirable un = true → no = false → (restore s un).hif = s.hif → Ends (.restore no) s fun u =>
        (unit u un).total = 0 ∧ (unit u un).stamps = [] ∧ (unitSt s un ≠ 0 → unitSt u un = 1) ∧
        (returnsLater (restore s un) un = false → AnsweredMail (restore s un) u m c acOK (leBytes 4 (unitStat (restore s un) un).toNat)) ∧
        (returnsLater (restore s un) un = true → Waiting s u m un))) ∧
    (Asked s 0x0104 m c → m.f = 0 → ∀ no,
      (128 ≤ n → Ends (.setSpare no) s fun u => AnsweredMail s u m c acBADARG []) ∧
      (n < 128 → no = true → Ends (.setSpare no) s fun u => AnsweredMail s u m c acREFUSED []) ∧
      (n < 128 → no = false → Ends (.setSpare no) s fun u => fld u (Reg.TILE_SPARE n) F.TILE_SPARE_MASK = b1 ∧
        AnsweredMail s u m c acOK (leBytes 4 (rd u (Reg.TILE_SPARE n)).toNat))) ∧
    (Asked s 0x0105 m c → m.f = 0 →
      let k := leAt m.args 0 4
      (sepHeld s k = true → Ends .sepRead s fun u => AnsweredMail s u m c acOK (entryBytes (sepEntry s (k % 8192)))) ∧
      (sepHeld s k = false → Ends .sepRead s fun u => AnsweredMail s u m c acGONE [])) ∧
    (Asked s 0x0106 m c →
      let ready := !isSet s Reg.SEP_STAT F.SEP_STAT_FROZEN && isSet s Reg.SEP_CTL F.SEP_CTL_EN && decide (s.ras.queue.length < 60)
      (ready = true → Ends .sepMark s fun u =>
        AnsweredMail s u m c acOK (leBytes 4 (((rd s Reg.SEP_COUNT).toNat + s.ras.queue.length) % 2 ^ 32)) ∧
        u.ras.queue = s.ras.queue ++ [sepMake s 0x11 0 n (leAt m.args 4 4)]) ∧
      (ready = false → Ends .sepMark s fun u => ∃ v, AnsweredMail s u m c acOK (leBytes 4 v) ∧ u.ras.queue = s.ras.queue ∧
        rd u Reg.SEP_DROP_CNT = rd s Reg.SEP_DROP_CNT + 1)) ∧
    (Asked s 0x0107 m c → m.f = 0 →
      (Ends (.sepDump true) s fun u => AnsweredMail s u m c acREFUSED []) ∧
      Ends (.sepDump false) s fun u => fld u Reg.SEP_STAT F.SEP_STAT_DUMP = 1 ∧ Waiting s u m 1 ∧ u.flash = s.flash) ∧
    (Asked s 0x0201 m c → Ends .getVersion s fun u => AnsweredMail s u m c acOK (leBytes 4 (rd s Reg.MGT_FW_VER).toNat ++
      leBytes 4 (peek s 0 0 Reg.MGT_BOOT_STAT).toNat ++ leBytes 4 (peek s 0 0 Reg.ID_ROM).toNat)) ∧
    (Asked s 0x0202 m c → Ends .getPon s fun u => AnsweredMail s u m c acOK
      (leBytes 8 (rawTotal s / 1966080000) ++ leBytes 6 (raw s) ++ leBytes 2 ((rd s Reg.TIM_WRAP_CNT).toNat % 2 ^ 16))) ∧
    (Asked s 0x0203 m c → m.f = 0 →
      (¬(un / 4096 = 1 ∧ un % 4096 < 1024) → ¬(un / 4096 = 13 ∧ un % 4096 < 16) → Ends .resetUnit s fun u => AnsweredMail s u m c acBADARG []) ∧
      (un / 4096 = 1 → un % 4096 < 1024 → engSt s (un % 4096) ≠ 0 → unitSt s un = 0 → (eng s (un % 4096)).task = none →
        waitingRecoat s (un % 4096) = none → Ends .resetUnit s fun u =>
          unitSt u un = 1 ∧ fenced u un = true ∧ (eng u (un % 4096)).run = false ∧ Waiting s u m un ∧ u.mem = s.mem) ∧
      (un / 4096 = 13 → un % 4096 < 16 → domLive s (un % 4096) = true → (dom s (un % 4096)).trans = none → calmDomain s (un % 4096) = true →
        Ends .resetUnit s fun u =>
          Entering u (un % 4096) 3 0 false ∧ (dom u (un % 4096)).thenWake = true ∧ Waiting s u m un ∧ u.mem = s.mem)) ∧
    (Asked s 0x0204 m c → m.f = 0 → Ends .warmReset s fun u =>
      AnsweredMail s u m c acOK [] ∧ u.mgt.warmAt = some (rawTotal s + 1966080))) ∧
  (∀ (s : State) (i : Fin 64) (acode : BitVec 16) (answer : BitVec 128),
    (s.hif.mail[i.val]? = none → Leads (.mgmtAnswer i acode answer) s s ∧ Leads (.mgmtTimeout i) s s) ∧
    (∀ m c, s.hif.mail[i.val]? = some m → c ∈ s.hif.cmds → c.seq = m.seq → (∀ x ∈ s.hif.cmds, x ≠ c → x.seq ≠ c.seq) → c.f < 32 → c.q < 64 →
      m.f < 32 → allStarted s = true →
      ((∃ x, MgmtCmd false x m.mcode) → Leads (.mgmtAnswer i acode answer) s s) ∧
      (m.mcode < 0x8000 → (¬∃ x, MgmtCmd false x m.mcode) →
        Ends (.mgmtAnswer i acode answer) s fun u => AnsweredMail s u m c 0xFFFF (leBytes 16 answer.toNat)) ∧
      (0x8000 ≤ m.mcode → Ends (.mgmtAnswer i acode answer) s fun u => AnsweredMail s u m c acode.toNat (leBytes 16 answer.toNat)) ∧
      (Ends (.mgmtTimeout i) s fun u => Completed s u c stMGMTTIMEOUT [] ∧ (∀ x ∈ u.hif.mail, x.seq ≠ m.seq) ∧
        isSet u (fnKey m.f Reg.HIF_EVT) F.HIF_EVT_MGMT_TIMEOUT = true)))

/-! ## Power and temperature -/

/-- R449 to R451, R457 to R466, R528: a state request of a sector or strip starts a transition, is held while one runs, or is met already; a
sector reset goes through OFF. A gated domain keeps its memories in RET and loses them in OFF. A wake goes through the power switch, the clear,
and the handshakes of its units; a compatibility wake ends at its exact time. IDLE, the device levels and the residency counters. -/
def Obligations.PowerStates : Prop :=
  (∀ (s : State) (w : Requester) (n : Fin 20) (v : Word), direct s w (Reg.PWR_DOM_REQ n) = true →
    let st := if getF v F.PWR_DOM_REQ_STATE = 1 then fld s (Reg.PWR_DOM_REQ n) F.PWR_DOM_REQ_STATE else getF v F.PWR_DOM_REQ_STATE
    let drain := decide (getF v F.PWR_DOM_REQ_DRAIN = 1)
    let c := Instr.domainStateRequest w n v
    st ≠ 1 →
    (domSt s n = 6 → Ends c s fun u => OnlyRegs [Reg.PWR_DOM_REQ n] (taken s w) u ∧ fld u (Reg.PWR_DOM_REQ n) F.PWR_DOM_REQ_STATE = st) ∧
    (domSt s n ≠ 6 → (dom s n).trans ≠ none → Ends c s fun u =>
      dom u n = { dom s n with held := some { st := st, drain := drain, reason := 2, reset := false } } ∧ u.mem = s.mem ∧
      ((dom s n).held = none → SameRegsBut [Reg.PWR_DOM_REQ n] (taken s w) u) ∧
      ((dom s n).held ≠ none → rd u Reg.PWR_HELD_DROP_CNT = rd s Reg.PWR_HELD_DROP_CNT + 1 ∧
        isSet u Reg.PWR_EVT F.PWR_EVT_HELD_REPLACED = true)) ∧
    (domSt s n ≠ 6 → (dom s n).trans = none →
      (st = domSt s n ∨ (st = 0 ∧ domSt s n = 1) ∨ (st = 2 ∧ domSt s n = 3) →
        Ends c s fun u => OnlyRegs [Reg.PWR_DOM_REQ n] (taken s w) u ∧ fld u (Reg.PWR_DOM_REQ n) F.PWR_DOM_REQ_STATE = st) ∧
      (st ≠ 0 → domLive s n = true ∨ (st = 3 ∧ domSt s n = 2) → calmDomain s n = true → Ends c s fun u =>
        Entering u n st 2 drain ∧ u.mem = s.mem) ∧
      (st = 0 → domSt s n = 2 ∨ domSt s n = 3 → Ends c s fun u => domSt u n = 5 ∧ (dom u n).trans ≠ none ∧ u.mem = s.mem))) ∧
  (∀ (s : State) (w : Requester) (n : Fin 16), direct s w (Reg.PWR_DOM_REQ n) = true →
    isSet s (Reg.PWR_DOM_REQ n) F.PWR_DOM_REQ_GO = false →
    (domSt s n = 6 → Ends (.sectorReset w n) s fun u => OnlyRegs [] (taken s w) u) ∧
    (domSt s n ≠ 6 → (dom s n).trans ≠ none → Ends (.sectorReset w n) s fun u =>
      dom u n = { dom s n with held := some { st := 3, drain := false, reason := 0, reset := true } } ∧ u.mem = s.mem) ∧
    (domLive s n = true ∨ domSt s n = 2 → (dom s n).trans = none → calmDomain s n = true → Ends (.sectorReset w n) s fun u =>
      Entering u n 3 0 false ∧ (dom u n).thenWake = true ∧ u.mem = s.mem) ∧
    (domSt s n = 3 → (dom s n).trans = none → Ends (.sectorReset w n) s fun u =>
      domSt u n = 5 ∧ (dom u n).trans ≠ none ∧ (dom u n).thenWake = true ∧ u.mem = s.mem)) ∧
  (∀ (s : State) (n : Fin 20), s.mgt.late = [] →
    ((∀ st r d, (dom s n).trans ≠ some (.enter st r d)) ∨ (fence s (uDom n)).st ≠ 3 → Leads (.domainGated n) s s) ∧
    (∀ st r d, (dom s n).trans = some (.enter st r d) → (fence s (uDom n)).st = 3 → st = 2 ∨ st = 3 →
      let Kept (u : State) : Prop := (∀ a, memGet u.mem a = if st = 3 ∧ inSector n a = true then 0 else memGet s.mem a) ∧
        (st = 3 → n.val < 16 → ∀ e, e < 64 → eng u (n * 64 + e) = { seq := (eng s (n * 64 + e)).seq })
      ((dom s n).thenWake = false → noneWaits s n = true → Ends (.domainGated n) s fun u =>
        domSt u n = (if unitSt s (uDom n) = 3 then 6 else st) ∧ TransEnded s u n ∧ Kept u) ∧
      ((dom s n).thenWake = true → unitSt s (uDom n) ≠ 3 → Ends (.domainGated n) s fun u =>
        domSt u n = 5 ∧ (dom u n).trans ≠ none ∧ Kept u) ∧
      ((dom s n).thenWake = false → st = 3 → noneWaits { s with pwr := { s.pwr with levelTarget := none } } n = true →
        s.pwr.levelTarget = some 2 → (∀ d, d < 20 → d ≠ n.val → domSt s d = 3 ∨ domSt s d = 6) → Ends (.domainGated n) s fun u =>
          u.pwr.levelTarget = none ∧ isSet u Reg.PWR_EVT F.PWR_EVT_LEVEL_DONE = true ∧ domSt u 20 = 3 ∧ domSt u 21 = 2 ∧
          lnkMinimal u = true ∧ Kept u))) ∧
  (∀ (s : State) (n : Fin 20), s.mgt.late = [] →
    ((dom s n).trans ≠ some .clearing → Leads (.wakeMemoryClearDone n) s s) ∧
    ((dom s n).trans = some .clearing → Ends (.wakeMemoryClearDone n) s fun u =>
      dom u n = { dom s n with trans := some (.returning true) } ∧ (∀ m, m ≠ n.val → dom u m = dom s m) ∧
      (∀ x, unitSt u x = if x ∈ domUnits n ∧ unitSt s x = 0 then 2 else unitSt s x) ∧ u.regs = s.regs ∧ u.mem = s.mem) ∧
    ((dom s n).trans ≠ some .switching → Leads (.powerSwitchFree n) s s) ∧
    ((dom s n).trans = some .switching → Ends (.powerSwitchFree n) s fun u =>
      dom u n = { dom s n with trans := some .clearing } ∧ u.regs = s.regs ∧ u.mem = s.mem ∧
      ((∀ m, m < 20 → (dom s m).trans ≠ some .waitSwitch) → ∀ m, m ≠ n.val → dom u m = dom s m) ∧
      ((∃ m, m < 20 ∧ (dom s m).trans = some .waitSwitch) → ∃ m, m < 20 ∧ (dom s m).trans = some .waitSwitch ∧
        dom u m = { dom s m with trans := some .switching } ∧ ∀ k, k ≠ n.val → k ≠ m → dom u k = dom s k))) ∧
  (∀ (s : State) (n : Fin 16), s.mgt.late = [] →
    (¬((dom s n).trans = some .compat ∧ (dom s n).pllWait = false) → Leads (.compatEngineStart n) s s) ∧
    ((dom s n).trans = some .compat → (dom s n).pllWait = false → (dom s n).clkAsked = false → noneWaits s n = true →
      Ends (.compatEngineStart n) s fun u => domSt u n = 0 ∧ TransEnded s u n ∧ (dom u n).thenWake = false ∧
        fld u (Reg.PWR_DOM_OP n) F.PWR_DOM_OP_CUR = opTarget s n ∧ u.mem = s.mem ∧
        isSet u (Reg.PWR_DOM_CLK n) F.PWR_DOM_CLK_ON_OSC = ((dom s n).native || !isSet s (Reg.PWR_DOM_CLK n) F.PWR_DOM_CLK_LOCK))) ∧
  (∀ (s : State) (n : Fin 20), let due := isSet s Reg.PWR_CTL F.PWR_CTL_IDLE_EN && decide (domSt s n = 0 ∧ (dom s n).trans = none) && quiet s n
    let rs := [Reg.PWR_DOMAIN_STATE n, Reg.SEP_DROP_CNT]
    (due = false → Leads (.idleEntry n) s s) ∧
    (due = true → Ends (.idleEntry n) s fun u => domSt u n = 1 ∧ SameRegsBut rs s u ∧ u.pwr = s.pwr ∧ u.mem = s.mem) ∧
    (domSt s n ≠ 1 → Leads (.idleWake n) s s) ∧
    (domSt s n = 1 → Ends (.idleWake n) s fun u => domSt u n = 0 ∧ SameRegsBut rs s u ∧ u.pwr = s.pwr ∧ u.mem = s.mem)) ∧
  (∀ (s : State) (w : Requester) (v : Word), direct s w Reg.PWR_LEVEL_REQ = true → (∀ m ∈ s.hif.mail, m.wait = none) →
    let l := if getF v F.PWR_LEVEL_REQ_LEVEL = 0 ∨ getF v F.PWR_LEVEL_REQ_LEVEL = 2 then getF v F.PWR_LEVEL_REQ_LEVEL
      else fld s Reg.PWR_LEVEL_REQ F.PWR_LEVEL_REQ_LEVEL
    let refused := decide (l = 2) && isSet s Reg.TLN_CTL F.TLN_CTL_EN
    let c := Instr.levelRequest w v
    l = 0 ∨ l = 2 →
    (refused = true → s.pwr.levelTarget = none → Ends c s fun u => OnlyRegs [Reg.PWR_LEVEL_REQ, Reg.PWR_EVT] (taken s w) u ∧
      isSet u Reg.PWR_EVT F.PWR_EVT_LEVEL_REFUSED = true) ∧
    (refused = false → s.pwr.levelTarget ≠ none → levelDone s = false → Ends c s fun u =>
      u.pwr = { s.pwr with heldLevel := some l } ∧ rd u Reg.PWR_HELD_DROP_CNT =
        rd s Reg.PWR_HELD_DROP_CNT + (if s.pwr.heldLevel = none then 0 else 1)) ∧
    (refused = false → s.pwr.levelTarget = none → l = level s → Ends c s fun u => OnlyRegs [Reg.PWR_LEVEL_REQ] (taken s w) u) ∧
    (refused = false → s.pwr.levelTarget = none → l = 2 → (∀ d, d < 20 → domLive s d = true ∧ (dom s d).trans = none ∧ calmDomain s d = true) →
      Ends c s fun u => u.pwr.levelTarget = some 2 ∧ (∀ d, d < 20 → Entering u d 3 5 false) ∧ u.mem = s.mem) ∧
    (s.pwr.levelTarget = none → l = 0 → (∀ d, d < 20 → (domSt s d = 2 ∨ domSt s d = 3) ∧ (dom s d).trans = none) →
      Ends c s fun u => u.pwr.levelTarget = some 0 ∧ (∀ d, d < 20 → domSt u d = 5 ∧ (dom u d).trans ≠ none) ∧
        domSt u 20 = 0 ∧ domSt u 21 = 0 ∧ lnkMinimal u = false)) ∧
  (∀ s : State, let due := decide (raw s % 2048 = 0) && s.tim.counting && decide (s.pwr.resAt ≠ some (rawTotal s))
    (due = false → Leads .residencyTick s s) ∧
    (due = true → (∀ n, n < 25 → resState s n < 4) → Ends .residencyTick s fun u =>
      u.pwr = { s.pwr with resAt := some (rawTotal s) } ∧ u.mem = s.mem ∧ ∀ n k, n < 25 → k < 4 →
        rd64 u (Reg.PWR_RES_LO n k) = (rd64 s (Reg.PWR_RES_LO n k) + if k = resState s n then 1 else 0) % 2 ^ 64))

/-- R452 to R456, R462, R464: a request of an operating point sets the target; a slower point changes the divider first, a faster one raises
VDD_CORE, then the LDO, then changes the divider. VDD_CORE follows the fastest sector down. The regulator that does not answer ends what waited
for it. A sector's PLL locks or fails to; SRC = 1 moves a sector that runs on its oscillator to it. -/
def Obligations.OperatingPoints : Prop :=
  (∀ (s : State) (w : Requester) (n : Fin 16) (op : Fin 4), let a := Reg.PWR_DOM_OP n
    let tgt := max op.val (fld s a F.PWR_DOM_OP_CAP)
    let cur := fld s a F.PWR_DOM_OP_CUR
    let busy := isSet s Reg.PWR_AVS_STAT F.PWR_AVS_STAT_BUSY
    let fail := isSet s Reg.PWR_AVS_STAT F.PWR_AVS_STAT_FAIL
    direct s w a = true → Ends (.opRequest w n op) s fun u =>
      fld u a F.PWR_DOM_OP_REQ_OP = op ∧ fld u a F.PWR_DOM_OP_TARGET = tgt ∧ fld u a F.PWR_DOM_OP_CAP = fld s a F.PWR_DOM_OP_CAP ∧
      (∀ m, m ≠ n.val → dom u m = dom s m) ∧ u.mem = s.mem ∧
      ((dom s n).trans ≠ none → dom u n = dom s n ∧ fld u a F.PWR_DOM_OP_CUR = cur ∧ isSet u a F.PWR_DOM_OP_HELD = true ∧
        fld u a F.PWR_DOM_OP_HELD_OP = tgt ∧ (isSet s a F.PWR_DOM_OP_HELD = true →
          rd u Reg.PWR_HELD_DROP_CNT = rd s Reg.PWR_HELD_DROP_CNT + 1 ∧ isSet u Reg.PWR_EVT F.PWR_EVT_HELD_REPLACED = true)) ∧
      ((dom s n).trans = none → domLive s n = false ∨ tgt = cur → OnlyRegs [a] (taken s w) u ∧ fld u a F.PWR_DOM_OP_CUR = cur) ∧
      ((dom s n).trans = none → domLive s n = true → cur < tgt →
        fld u a F.PWR_DOM_OP_CUR = tgt ∧ dom u n = { dom s n with trans := some (.ldo tgt false) }) ∧
      ((dom s n).trans = none → domLive s n = true → tgt < cur → fld u a F.PWR_DOM_OP_CUR = cur ∧
        (needVolt s tgt ≤ vcore s → busy = false → dom u n = { dom s n with trans := some (.ldo tgt true) } ∧ u.out = s.out) ∧
        (needVolt s tgt ≤ vcore s → busy = true → dom u n = { dom s n with trans := some (.raise tgt) } ∧ u.out = s.out) ∧
        (vcore s < needVolt s tgt → fail = true → dom u n = dom s n ∧ u.out = s.out) ∧
        (vcore s < needVolt s tgt → fail = false → dom u n = { dom s n with trans := some (.raise tgt) } ∧
          u.out = .avs (needVolt s tgt) :: s.out ∧ vcore u = needVolt s tgt % 1024 ∧ isSet u Reg.PWR_AVS_STAT F.PWR_AVS_STAT_BUSY = true))) ∧
  (∀ s : State, s.mgt.late = [] → let busy := isSet s Reg.PWR_AVS_STAT F.PWR_AVS_STAT_BUSY
    (busy = false → Leads .avsResponse s s ∧ Leads .avsTimeout s s) ∧
    (busy = true → Ends .avsResponse s fun u => u.mem = s.mem ∧
      (∀ n op, n < 16 → (dom s n).trans = some (.raise op) → needVolt s op ≤ vcore s →
        dom u n = { dom s n with trans := some (.ldo op true) }) ∧
      (∀ n, (n < 16 → ∀ op, (dom s n).trans ≠ some (.raise op) ∨ vcore s < needVolt s op) → dom u n = dom s n) ∧
      ((∀ n op, n < 16 → (dom s n).trans = some (.raise op) → needVolt s op ≤ vcore s) →
        isSet u Reg.PWR_AVS_STAT F.PWR_AVS_STAT_BUSY = false ∧ vcore u = vcore s ∧ u.out = s.out ∧ SameRegsBut [Reg.PWR_AVS_STAT] s u)) ∧
    (busy = true → (∀ n, n < 16 → noneWaits s n = true) → Ends .avsTimeout s fun u =>
      isSet u Reg.PWR_AVS_STAT F.PWR_AVS_STAT_BUSY = false ∧ isSet u Reg.PWR_AVS_STAT F.PWR_AVS_STAT_FAIL = true ∧
      isSet u Reg.PWR_EVT F.PWR_EVT_AVS_FAIL = true ∧ u.mem = s.mem ∧
      (∀ n op, n < 16 → (dom s n).trans = some (.raise op) → dom u n = { dom s n with trans := none }) ∧
      (∀ n, (n < 16 → ∀ op, (dom s n).trans ≠ some (.raise op)) → dom u n = dom s n) ∧
      (∀ n, n < 16 → fld u (Reg.PWR_DOM_OP n) F.PWR_DOM_OP_CUR = fld s (Reg.PWR_DOM_OP n) F.PWR_DOM_OP_CUR))) ∧
  (∀ (s : State) (n : Fin 16), s.mgt.late = [] → let cur := F.PWR_DOM_OP_CUR
    ((∀ op f, (dom s n).trans ≠ some (.ldo op f)) → Leads (.ldoSettled n) s s) ∧
    (∀ op, op < 4 → (dom s n).trans = some (.ldo op true) → noneWaits s n = true → Ends (.ldoSettled n) s fun u =>
      TransEnded s u n ∧ fld u (Reg.PWR_DOM_OP n) cur = op ∧ u.out = s.out ∧ u.mem = s.mem) ∧
    (∀ op, (dom s n).trans = some (.ldo op false) → noneWaits s n = true → (∀ m, m < 16 → m ≠ n.val → (dom s m).trans = none) →
      let lowers := isSet s Reg.PWR_CTL F.PWR_CTL_AVS_AUTO && (upto 16).any (domLive s) && decide (lowVolt s + 25 ≤ vcore s)
      Ends (.ldoSettled n) s fun u => TransEnded s u n ∧ fld u (Reg.PWR_DOM_OP n) cur = fld s (Reg.PWR_DOM_OP n) cur ∧ u.mem = s.mem ∧
        (lowers = true → vcore u = lowVolt s ∧ u.out = .avs (lowVolt s) :: s.out ∧ isSet u Reg.PWR_AVS_STAT F.PWR_AVS_STAT_BUSY = true) ∧
        (lowers = false → rd u Reg.PWR_AVS_STAT = rd s Reg.PWR_AVS_STAT ∧ u.out = s.out))) ∧
  (∀ (s : State) (n : Fin 16), s.mgt.late = [] → let a := Reg.PWR_DOM_CLK n
    let moves := (dom s n).clkAsked && onOsc s n
    ((dom s n).pllWait = false → Leads (.sectorPllLock n) s s ∧ Leads (.pllLockTimeout n) s s) ∧
    ((dom s n).pllWait = true → Ends (.sectorPllLock n) s fun u => isSet u a F.PWR_DOM_CLK_LOCK = true ∧ u.mem = s.mem ∧
      dom u n = { dom s n with pllWait := false, clkAsked := (dom s n).clkAsked && !moves } ∧ (∀ m, m ≠ n.val → dom u m = dom s m) ∧
      (moves = true → isSet u a F.PWR_DOM_CLK_ON_OSC = false ∧ isSet u Reg.PWR_EVT F.PWR_EVT_CLK_SWITCH = true ∧
        SameRegsBut [a, Reg.PWR_EVT] s u) ∧
      (moves = false → onOsc u n = onOsc s n ∧ SameRegsBut [a] s u)) ∧
    ((dom s n).pllWait = true → Ends (.pllLockTimeout n) s fun u => isSet u Reg.PWR_EVT F.PWR_EVT_PLL_FAIL = true ∧
      SameRegsBut [Reg.PWR_EVT] s u ∧ dom u n = { dom s n with pllWait := false } ∧ (∀ m, m ≠ n.val → dom u m = dom s m) ∧ u.mem = s.mem)) ∧
  (∀ (s : State) (w : Requester) (n : Fin 16), let a := Reg.PWR_DOM_CLK n
    let lock := isSet s a F.PWR_DOM_CLK_LOCK
    direct s w a = true → Ends (.clockSourceSwitch w n) s fun u =>
      fld u a F.PWR_DOM_CLK_SRC = 1 ∧ isSet u a F.PWR_DOM_CLK_LOCK = lock ∧ u.mem = s.mem ∧ (∀ m, m ≠ n.val → dom u m = dom s m) ∧
      (onOsc s n = true → lock = true → onOsc u n = false ∧ isSet u Reg.PWR_EVT F.PWR_EVT_CLK_SWITCH = true ∧
        dom u n = { dom s n with clkAsked := false } ∧ SameRegsBut [a, Reg.PWR_EVT] (taken s w) u) ∧
      (¬(onOsc s n = true ∧ lock = true) → onOsc u n = onOsc s n ∧ SameRegsBut [a] (taken s w) u ∧
        dom u n = (if onOsc s n = true ∨ domSt s n = 5 then { dom s n with clkAsked := true } else dom s n)))

/-- R467 to R471, R473, R474, R560: a skim round samples the diodes and monitors. At its end each diode is judged, a region at or above THROTTLE
is capped one step slower, one that has stayed below the relax limit for RELAX rounds one step faster, and between them the cap holds; a sensor
that becomes faulty while a cap is active takes the cap to the slowest. A valid diode at CRIT trips. Diodes 21 and 22 set the refresh rate of
the nearer stack; that a faulty one leaves it as it is, is the model's (log 149). -/
def Obligations.SkimRound : Prop :=
  (∀ (s : State) (c : Fin 64) (v : BitVec 16) (o sh : Bool), let k := c.val - 24
    let good := decide (c = 63) || decide (fld s (Reg.THM_MON_LO k) F.THM_MON_LO_VALUE ≤ v.toNat ∧
      v.toNat ≤ fld s (Reg.THM_MON_HI k) F.THM_MON_HI_VALUE)
    (c.val < 24 → Leads (.skimChannelSample c v o sh) s (updSens s c fun x => { x with raw := v, isOpen := o, isShort := sh })) ∧
    (24 ≤ c.val → Ends (.skimChannelSample c v o sh) s fun u => fld u (Reg.THM_MON_VAL k) F.THM_MON_VAL_VALUE = v.toNat ∧ u.mem = s.mem ∧
      (good = true → OnlyRegs [Reg.THM_MON_VAL k] s u) ∧
      (good = false → isSet u Reg.THM_EVT F.THM_EVT_MON = true ∧ SameRegsBut [Reg.THM_MON_VAL k, Reg.THM_EVT, Reg.SEP_DROP_CNT] s u))) ∧
  (∀ s : State, Ends .skimRoundEnd s fun u =>
    let crit := (upto 24).any fun i => decide (sensKind s i = 0 ∧ temp16 (fld s Reg.THM_CRIT F.THM_CRIT_TEMP) ≤ measured s i)
    let thr := temp16 (fld s Reg.THM_THROTTLE F.THM_THROTTLE_TEMP)
    let relax := thr - fld s Reg.THM_CTL F.THM_CTL_HYST * 16
    rd u Reg.THM_ROUND_CNT = rd s Reg.THM_ROUND_CNT + 1 ∧ u.mem = s.mem ∧
    (∀ i, i < 24 → let a := Reg.THM_SENS i
      fld u a F.THM_SENS_TEMP = wrapN 16 (tempInUse s i) ∧ isSet u a F.THM_SENS_VALID = decide (sensKind s i = 0) ∧
      isSet u a F.THM_SENS_FAULT = decide (sensKind s i ≠ 0) ∧ fld u a F.THM_SENS_KIND = sensKind s i ∧
      isSet u a F.THM_SENS_SUBST = retiredSens s i ∧ (sens u i).bad = sourceBad s i) ∧
    (∀ i, i = 21 ∨ i = 22 → (sens u i).refresh2x = if sensKind s i = 0 ∧ 1360 ≤ measured s i then true
      else if sensKind s i = 0 ∧ measured s i < 1312 then false else (sens s i).refresh2x) ∧
    (∀ i, i < 24 → temp16 (fld s Reg.THM_WARN F.THM_WARN_TEMP) ≤ tempInUse s i → isSet u Reg.THM_EVT F.THM_EVT_WARN = true) ∧
    (crit = true → isSet u Reg.THM_STAT F.THM_STAT_TRIP = true ∧
      (isSet s Reg.THM_STAT F.THM_STAT_TRIP = false → u.pwr.clocksStopped = true ∧ isSet u Reg.THM_EVT F.THM_EVT_TRIP = true ∧ .thermtrip ∈ u.out)) ∧
    (crit = false → u.pwr.clocksStopped = s.pwr.clocksStopped ∧ isSet u Reg.THM_STAT F.THM_STAT_TRIP = isSet s Reg.THM_STAT F.THM_STAT_TRIP) ∧
    (∀ r i, r < 20 → hottest s (covers r) = some i → (∀ x ∈ covers r, sourceBad s x = false) → isSet s (Reg.THM_CAP r) F.THM_CAP_ESC = false →
      let t := tempInUse s i
      let a := Reg.THM_CAP r
      let cap := capOf s r
      let n := fld s a F.THM_CAP_RELAXCNT + 1
      let slower := min 3 ((if r < 16 then opTarget s r else cap) + 1)
      let Moved (x : Nat) : Prop := capOf u r = x ∧ (x ≠ cap → fld u a F.THM_CAP_SRC = i ∧ fld u (Reg.PWR_DOM_OP r) F.PWR_DOM_OP_CAP = x)
      (thr ≤ t → Moved slower ∧ fld u a F.THM_CAP_RELAXCNT = 0) ∧
      (relax ≤ t → t < thr → capOf u r = cap ∧ fld u a F.THM_CAP_RELAXCNT = 0) ∧
      (t < relax → t < thr → n < fld s Reg.THM_CTL F.THM_CTL_RELAX → capOf u r = cap ∧ fld u a F.THM_CAP_RELAXCNT = n) ∧
      (t < relax → t < thr → fld s Reg.THM_CTL F.THM_CTL_RELAX ≤ n → Moved (cap - 1) ∧ fld u a F.THM_CAP_RELAXCNT = 0)) ∧
    (∀ r i, r < 20 → i ∈ covers r → sourceBad s i = true → (sens s i).bad = false → capOf s r ≠ 0 →
      capOf u r = 3 ∧ isSet u (Reg.THM_CAP r) F.THM_CAP_ESC = true ∧ isSet u Reg.THM_EVT F.THM_EVT_ESCALATE = true))

/-! ## Faults, stacks and the recorder -/

/-- R324, R505, R508, R513: an injected fault is one of the unit it names; a query captures a unit's record. A stack that leaves READY while
memory is on, and a management core's fault, are FATAL events; a stack that has trained is READY. -/
def Obligations.RasCommands : Prop :=
  (∀ (s : State) (w : Requester) (v : Word), direct s w Reg.RAS_INJ = true →
    let x := getF v F.RAS_INJ_UNIT
    let e := x % 4096
    let kind := if getF v F.RAS_INJ_KIND = 1 ∨ getF v F.RAS_INJ_KIND = 3 then getF v F.RAS_INJ_KIND else fld s Reg.RAS_INJ F.RAS_INJ_KIND
    let no := getF v F.RAS_INJ_NOCOUNT
    let c := Instr.rasInj w v
    let n := if no = 1 then 0 else 1
    (unitExists x = false ∨ unitSt s x ≠ 0 ∨ ¬(kind = 1 ∨ kind = 3) → Ends c s fun u =>
      OnlyRegs [Reg.RAS_INJ] (taken s w) u ∧ fld u Reg.RAS_INJ F.RAS_INJ_UNIT = x ∧ fld u Reg.RAS_INJ F.RAS_INJ_KIND = kind ∧
      fld u Reg.RAS_INJ F.RAS_INJ_NOCOUNT = no) ∧
    (kind = 1 ∨ kind = 3 → (unit s x).mute = 0 → discards s x = false →
      (x / 4096 = 1 → e < 1024 → (eng s e).task = none → waitingRecoat s e = none → jobsIn s = true → Ends c s fun u =>
        fld u (Reg.ECP_FLT (e / 8) (e % 8)) F.ECP_FLT_KIND = kind ∧ fld u (Reg.ECP_FLT (e / 8) (e % 8)) F.ECP_FLT_SITE = 0 ∧
        rd u (Reg.ECP_FADDR (e / 8) (e % 8)) = 0 ∧ fenced u x = true ∧ unitSt u x ≠ 0 ∧ (eng u e).halt = true ∧
        rd u Reg.RAS_ENG_FLT_CNT = rd s Reg.RAS_ENG_FLT_CNT + n ∧ u.mem = s.mem) ∧
      (x / 4096 = 2 → e < 128 → kind = 1 → Ends c s fun u => isSet u Reg.RAS_EVT F.RAS_EVT_TMEM = true ∧
        rd u Reg.RAS_TILE_FLT_CNT = rd s Reg.RAS_TILE_FLT_CNT + n ∧ u.mem = s.mem))) ∧
  (∀ (s : State) (w : Requester) (v : Word), direct s w Reg.RAS_Q_UNIT = true → Ends (.rasQUnit w v) s fun u =>
    let x := getF v F.RAS_Q_UNIT_UNIT
    let q := unit s x
    let stat := if unitExists x = true then inWindow s x % 16 + q.kind * 2 ^ 4 + q.gen % 256 * 2 ^ 8 + q.st * 2 ^ 16 else 4 * 2 ^ 16
    fld u Reg.RAS_Q_UNIT F.RAS_Q_UNIT_UNIT = x ∧ SameRegsBut [Reg.RAS_Q_UNIT] (taken s w) u ∧ u.mem = s.mem ∧
    qcapOf u (whoCode w) = { stat := BitVec.ofNat 32 stat, total := BitVec.ofNat 32 q.total, last := q.last } ∧
    ∀ k, k ≠ whoCode w → qcapOf u k = qcapOf s k) ∧
  (∀ (s : State) (i : Fin 2), let ready := if i = 0 then F.MEM_STAT_READY0 else F.MEM_STAT_READY1
    let pcs := (upto 32).map fun n => Reg.MEM_PC (i * 32 + n)
    (isSet s Reg.MEM_STAT ready = false → Leads (.hbmStackLoss i) s s) ∧
    (isSet s Reg.MEM_STAT ready = true → Ends (.hbmStackLoss i) s fun u =>
      isSet u Reg.MEM_STAT ready = false ∧ u.mem = s.mem ∧ SameRegsBut (Reg.MEM_STAT :: Reg.SEP_DROP_CNT :: pcs) s u ∧
      (∃ x, x < 2 ∧ ∀ a ∈ pcs, fld u a F.MEM_PC_STATE = x) ∧
      (isSet s Reg.MEM_CTL F.MEM_CTL_EN = false → u.ras = s.ras) ∧
      (isSet s Reg.MEM_CTL F.MEM_CTL_EN = true → ∃ s1, SameRegsBut (Reg.MEM_STAT :: pcs) s s1 ∧ s1.ras = s.ras ∧
        Recorded s1 u (fatalEvent s 3))) ∧
    (domSt s 21 ≠ 0 → Leads (.hbmStackTrained i) s s) ∧
    (domSt s 21 = 0 → Ends (.hbmStackTrained i) s fun u => isSet u Reg.MEM_STAT ready = true ∧
      (∀ a ∈ pcs, fld u a F.MEM_PC_STATE = 2) ∧ OnlyRegs (Reg.MEM_STAT :: pcs) s u)) ∧
  (∀ (s : State) (i : Fin 4), Ends (.managementCoreFault i) s fun u => Recorded s u (fatalEvent s 4) ∧ u.mem = s.mem)

/-- R504, R507 to R510, R514: the recorder writes its queue entry by entry; a FATAL entry freezes it, drops what is queued and starts a dump if
DUMP_EN is set. FREEZE is such an event; only a management core unfreezes. A dump writes the entries and then the header. MARK, and a
requester's capture of an entry it may find gone. -/
def Obligations.Recorder : Prop :=
  (∀ s : State, (s.ras.queue = [] → Leads .sepiaWrite s s) ∧
    (∀ e q, s.ras.queue = e :: q → Ends .sepiaWrite s fun u =>
      let i := (rd s Reg.SEP_COUNT).toNat % 8192
      let dump := fld s Reg.SEP_STAT F.SEP_STAT_DUMP
      sepEntry u i = (BitVec.ofNat 32 e.time, BitVec.ofNat 32 (e.time / 2 ^ 32 % 2 ^ 16 + e.wrap % 2 ^ 8 * 2 ^ 16 + e.type % 2 ^ 8 * 2 ^ 24),
        BitVec.ofNat 32 (e.unit % 2 ^ 16 + e.gen % 2 ^ 8 * 2 ^ 16 + e.code % 2 ^ 8 * 2 ^ 24), BitVec.ofNat 32 e.arg) ∧
      (∀ j, j ≠ i → sepEntry u j = sepEntry s j) ∧ rd u Reg.SEP_COUNT = rd s Reg.SEP_COUNT + 1 ∧ u.mem = s.mem ∧
      (e.type ≠ 0x13 → SameRegsBut [Reg.SEP_COUNT] s u ∧
        (s.ras.dropSince = 0 ∨ 60 ≤ q.length → u.ras.queue = q ∧ u.ras.dropSince = s.ras.dropSince) ∧
        (s.ras.dropSince ≠ 0 → q.length < 60 → u.ras.queue = q ++ [sepMake s 0x12 0 0 s.ras.dropSince] ∧ u.ras.dropSince = 0)) ∧
      (e.type = 0x13 → isSet u Reg.SEP_STAT F.SEP_STAT_FROZEN = true ∧ fld u Reg.SEP_STAT F.SEP_STAT_CAUSE = e.code % 8 ∧
        rd64 u Reg.SEP_FREEZE_LO = e.time % 2 ^ 64 ∧ u.ras.queue = [] ∧
        rd u Reg.SEP_DROP_CNT = rd s Reg.SEP_DROP_CNT + BitVec.ofNat 32 q.length ∧
        (isSet s Reg.SEP_CTL F.SEP_CTL_DUMP_EN = true → dump ≠ 1 → fld u Reg.SEP_STAT F.SEP_STAT_DUMP = 1 ∧ u.ras.dumpCause = e.code ∧
          u.ras.dumpStamp = e.time) ∧
        (isSet s Reg.SEP_CTL F.SEP_CTL_DUMP_EN = false ∨ dump = 1 → fld u Reg.SEP_STAT F.SEP_STAT_DUMP = dump)))) ∧
  (∀ (s : State) (w : Requester), direct s w Reg.SEP_CTL = true → ctlPlain s = true → let s1 := taken s w
    let dump := fld s Reg.SEP_STAT F.SEP_STAT_DUMP
    Ends (.sepCtlFreeze w) s (fun u => Recorded s1 u (fatalEvent s 5) ∧ u.mem = s.mem) ∧
    (Ends (.sepCtlUnfreeze w) s fun u => u.ras = s.ras ∧ u.mem = s.mem ∧
      (isMc w = true → isSet u Reg.SEP_STAT F.SEP_STAT_FROZEN = false ∧ fld u Reg.SEP_STAT F.SEP_STAT_CAUSE = 0 ∧
        SameRegsBut [Reg.SEP_STAT] s1 u) ∧
      (isMc w = false → SameRegsBut [] s1 u)) ∧
    (Ends (.sepCtlDump w) s fun u => SameRegsBut [Reg.SEP_STAT] s1 u ∧ u.mem = s.mem ∧ u.flash = s.flash ∧
      fld u Reg.SEP_STAT F.SEP_STAT_DUMP = 1 ∧
      (dump = 1 → u.ras = s.ras) ∧
      (dump ≠ 1 → u.ras = { s.ras with dumpCause := fld s Reg.SEP_STAT F.SEP_STAT_CAUSE, dumpStamp := raw s }))) ∧
  (∀ (s : State) (good : Bool), let dump := fld s Reg.SEP_STAT F.SEP_STAT_DUMP
    let base := (rd s Reg.SEP_DUMP_ADDR).toNat / 2 ^ 16 * 2 ^ 16
    let body := (upto 8192).flatMap fun i => entryBytes (sepEntry s i)
    let head := leBytes 4 0x53455031 ++ leBytes 4 (1 + s.ras.dumpCause % 256 * 2 ^ 8) ++ leBytes 8 Config.serial.toNat ++
      leBytes 4 (rd s Reg.SEP_COUNT).toNat ++ leBytes 4 (rd s Reg.TIM_WRAP_CNT).toNat ++ leBytes 8 s.ras.dumpStamp ++
      leBytes 4 (rd s Reg.SEP_DROP_CNT).toNat ++ leBytes 24 0
    (dump ≠ 1 → Leads (.sepiaDumpDone good) s s) ∧
    (dump = 1 → good = false → s.hif.mail = [] → allStarted s = true → Ends (.sepiaDumpDone good) s fun u => OnlyRegs [Reg.SEP_STAT] s u ∧ fld u Reg.SEP_STAT F.SEP_STAT_DUMP = 3) ∧
    (dump = 1 → good = true → s.hif.mail = [] → allStarted s = true → Ends (.sepiaDumpDone good) s fun u => fld u Reg.SEP_STAT F.SEP_STAT_DUMP = 2 ∧ u.mem = s.mem ∧
      SameRegsBut [Reg.SEP_STAT] s u ∧ u.flash = memPutN s.flash base (head ++ leBytes 4 (crcOf 6 (head ++ body)) ++ body))) ∧
  (∀ (s : State) (w : Requester) (v : Word), let s1 := taken s w
    (direct s w Reg.SEP_MARK = true → Ends (.sepMarkRegister w v) s fun u =>
      Recorded s1 u (sepMake s 0x11 0 (fld s Reg.SEP_MARK_CODE F.SEP_MARK_CODE_CODE) v.toNat) ∧ u.mem = s.mem) ∧
    (direct s w Reg.SEP_RD_SEL = true → Ends (.sepRdSel w v) s fun u =>
      let held := decide ((rd s Reg.SEP_COUNT - 1 - v).toNat < min (rd s Reg.SEP_COUNT).toNat 8192)
      let i := v.toNat % 8192
      rd u Reg.SEP_RD_SEL = v ∧ SameRegsBut [Reg.SEP_RD_SEL] s1 u ∧ u.mem = s.mem ∧ (∀ k, k ≠ whoCode w → sepCapOf u k = sepCapOf s k) ∧
      sepCapOf u (whoCode w) = (if held = true then
        { valid := true, gone := false, perr := Tab.get (fun _ => false) s.ras.badEntries i, words := sepEntry s i } else { gone := true })))

/-! ## External ports, resets and the boot -/

/-- R519, R520, R522 to R526: SPI and I3C read and write registers as the physical function; an address beyond the space or unaligned reads 0
and writes nothing, a sleeping block's status reads NOTAVAIL, a frame cut short writes nothing, EXT_LOCK refuses. The I3C target takes its
dynamic address and answers its common command codes. R537: an instruction of the test access port selects its register. What GETSTATUS, GETMWL
and GETMRL answer, and what a scan register captures, the spec does not state: any value. -/
def Obligations.ExternalPorts : Prop :=
  (∀ (s : State) (a : Word) (bad : Bool) (bads : List Bool), let k := a.toNat
    let Na (u : State) : Prop := u.out = .spi 0xFFFF0A0A 32 :: s.out ∧ rd u Reg.MGT_NA_CNT = rd s Reg.MGT_NA_CNT + 1 ∧ u.mem = s.mem
    (extAddr k = false → Leads (.spiRead a bad) s (emit s (.spi 0 32))) ∧
    (extAddr k = true → heard s .spi k = true → findReg k = none → Leads (.spiRead a bad) s (emit s (.spi 0 32))) ∧
    (plainWord s .spi k = true → bad = false ∨ blockDomain k = 24 →
      Leads (.spiRead a bad) s (emit s (.spi (peek s (whoCode .spi) 0 k).toNat 32))) ∧
    (∀ d x, extAddr k = true → canonOff k = k → findReg k = some (d, x) → d.pair = 0 → blockLive s (blockDomain k) = false → bad = false →
      (isStatus d = true → Ends (.spiRead a bad) s Na) ∧
      (isStatus d = false → k ≠ Reg.MGT_GPIO_IN → domSt s (blockDomain k) ≠ 1 →
        Leads (.spiRead a bad) s (emit s (.spi (shadowPeek s (whoCode .spi) 0 k).toNat 32)))) ∧
    (plainWord s .spi k = true → bad = true → blockDomain k ≠ 24 → Ends (.spiRead a bad) s fun u => Na u ∧
      ∃ s1, SameRegsBut [Reg.MGT_NA_CNT] s s1 ∧ s1.ras = s.ras ∧ Recorded s1 u (fatalEvent s 2)) ∧
    ((∀ i, i < bads.length → plainWord s .spi (k + 4 * i) = true ∧ bads[i]? = some false) →
      Leads (.spiReadInc a bads) s { s with out :=
        ((upto bads.length).map fun i => Out.spi (peek s (whoCode .spi) 0 (k + 4 * i)).toNat 32).reverse ++ s.out })) ∧
  (∀ (s : State) (a v : Word) (cut : Bool), let k := a.toNat
    let s1 := setFld s Reg.MGT_EXT_STAT F.MGT_EXT_STAT_I3C_ERR 0
    let Locked (u : State) : Prop := isSet u Reg.MGT_EXT_STAT F.MGT_EXT_STAT_LOCKED = true ∧ OnlyRegs [Reg.MGT_EXT_STAT] s u
    (cut = true ∨ extAddr k = false → Leads (.spiWrite a v cut) s s) ∧
    (extAddr k = true → cut = false → s.mgt.late = [] → extLocked s .spi (canonOff k) = true → Ends (.spiWrite a v cut) s Locked) ∧
    (plainWrite s .spi k = true → cut = false → Ends (.spiWrite a v cut) s fun u =>
      rd u k = mergedAt s .spi k v ∧ OnlyRegs [k] (taken s .spi) u) ∧
    (extAddr k = false → Leads (.i3cRegisterWrite a v) s s1) ∧
    (extAddr k = true → s.mgt.late = [] → extLocked s1 .i3c (canonOff k) = true → Ends (.i3cRegisterWrite a v) s fun u =>
      Locked u ∧ isSet u Reg.MGT_EXT_STAT F.MGT_EXT_STAT_I3C_ERR = false) ∧
    (plainWrite s1 .i3c k = true → Ends (.i3cRegisterWrite a v) s fun u => rd u k = mergedAt s1 .i3c k v ∧ OnlyRegs [k] (taken s1 .i3c) u)) ∧
  (∀ (s : State) (a : Option Word) (bad : Bool),
    let k := match a with
      | some v => v.toNat
      | none => s.mgt.i3cAddr
    let s1 := match a with
      | some _ => setFld s Reg.MGT_EXT_STAT F.MGT_EXT_STAT_I3C_ERR 0
      | none => s
    let Next (v : Word) (u : State) : Prop := u = { s1 with out := .i3c (leBytes 4 v.toNat) :: s.out, mgt := { s.mgt with i3cAddr := k + 4 } }
    (extAddr k = false → Ends (.i3cRegisterRead a bad) s (Next 0)) ∧
    (plainWord s1 .i3c k = true → bad = false ∨ blockDomain k = 24 →
      Ends (.i3cRegisterRead a bad) s fun u => ∃ v, Next v u ∧ v = peek { s1 with mgt := { s.mgt with i3cAddr := k } } (whoCode .i3c) 0 k)) ∧
  (∀ s : State, let stat := Reg.MGT_EXT_STAT
    (Ends .spiStatus s fun u => u.out = .spi ((rd s stat).toNat % 256) 8 :: s.out ∧ isSet u stat F.MGT_EXT_STAT_SPI_ERR = false ∧
      u = { s with out := u.out, regs := u.regs } ∧ SameRegsBut [stat] s u) ∧
    (Ends .spiReservedCommand s fun u => isSet u stat F.MGT_EXT_STAT_SPI_ERR = true ∧ OnlyRegs [stat] s u) ∧
    (Ends .i3cPrivateWriteError s fun u => isSet u stat F.MGT_EXT_STAT_I3C_ERR = true ∧ OnlyRegs [stat] s u)) ∧
  (∀ (s : State) (a : BitVec 7) (ev : Byte), let cfg := Reg.MGT_I3C_CFG
    let has := isSet s cfg F.MGT_I3C_CFG_DVALID
    let pid := (leBytes 6 Config.i3cPid.toNat).reverse
    let Took (u : State) : Prop := fld u cfg F.MGT_I3C_CFG_DADDR = a.toNat ∧ isSet u cfg F.MGT_I3C_CFG_DVALID = true ∧
      SameRegsBut [cfg] s u ∧ u = { s with out := u.out, regs := u.regs }
    let on (x : Bool) : State := if bitAt ev.toNat 0 then { s with mgt := { s.mgt with i3cEvents := x } } else s
    (has = true → Leads (.entdaa a) s s ∧ Leads (.setdasa a) s s) ∧
    (has = false → (Ends (.entdaa a) s fun u => Took u ∧ u.out = .i3c (pid ++ [0x06, 0x00]) :: s.out) ∧
      Ends (.setdasa a) s fun u => Took u ∧ u.out = s.out) ∧
    (Ends .rstdaa s fun u => isSet u cfg F.MGT_I3C_CFG_DVALID = false ∧ fld u cfg F.MGT_I3C_CFG_DADDR = 0 ∧ OnlyRegs [cfg] s u) ∧
    Leads (.enec ev) s (on true) ∧ Leads (.disec ev) s (on false) ∧
    Leads .getpid s (emit s (.i3c pid)) ∧ Leads .getbcr s (emit s (.i3c [0x06])) ∧ Leads .getdcr s (emit s (.i3c [0x00])) ∧
    (Ends .getstatus s fun u => ∃ bs, bs.length = 2 ∧ u = { emit s (.i3c bs) with fresh := s.fresh + 1 }) ∧
    Leads .getmwl s (emit s (.i3c Config.i3cMwl)) ∧ Leads .getmrl s (emit s (.i3c Config.i3cMrl))) ∧
  (∀ s : State, let Sel (ir reg v fr : Nat) : State := { emit s (.jtag reg v) with mgt := { s.mgt with jtagIr := ir }, fresh := s.fresh + fr }
    Leads .idcode s (Sel 0 1 0x0A102E75 0) ∧ Leads .bypass s (Sel 1 0 0 0) ∧ Leads .highz s (Sel 4 0 0 0) ∧ Leads .clamp s (Sel 5 0 0 0) ∧
    (∀ c ∈ [(Instr.samplePreload, 2), (.extest, 3), (.extestPulse, 6), (.extestTrain, 7)], ∃ v, Leads c.1 s (Sel c.2 2 v 1)))

/-- R397, R528 to R532, R549: a power-on reset clears everything but what lies outside the device; a warm reset keeps what the table of resets
preserves and records itself; with PERST_SCOPE = 1 PERST_N resets the host domain only. The boot ROM starts from the sampled BOOT_SEL, and the
first AVSBus transaction commands 0.80 V (R550; that it comes at the release is the model's, log 149). The boot ROM's state and the commands
that wait are the model's own. -/
def Obligations.Resets : Prop :=
  (∀ (s : State) (sel : Fin 4), Ends (.powerOnReset sel) s fun u =>
    u = { State.reset with
      pending := s.pending, fresh := s.fresh, out := .avs 800 :: s.out, hostMem := s.hostMem, flash := s.flash, regs := u.regs
      mgt := { bootSel := sel, bootTry := u.mgt.bootTry } } ∧
    (∀ a, a ≠ Reg.MGT_BOOT_STAT → a ≠ Reg.PWR_AVS_STAT → rd u a = regReset a) ∧ vcore u = 800 ∧
    isSet u Reg.PWR_AVS_STAT F.PWR_AVS_STAT_BUSY = true ∧ RomStarted u sel) ∧
  (∀ (s : State) (sel : Fin 4), Ends (.resetN sel) s fun u => WarmDone s u 2 sel ∧ u.mgt.bootSel = sel ∧ u.mgt.perstLow = s.mgt.perstLow) ∧
  (∀ (s : State) (w : Requester), direct s w Reg.MGT_RST_REQ = true → Ends (.mgtRstReq w) s fun u =>
    WarmDone s u 8 (s.mgt.bootSel % 4) ∧ u.mgt.bootSel = s.mgt.bootSel ∧ u.mgt.perstLow = s.mgt.perstLow) ∧
  (∀ s : State, let host := isSet s Reg.MGT_CTL F.MGT_CTL_PERST_SCOPE
    (s.mgt.perstLow = true → Leads .perstN s s) ∧
    (s.mgt.perstLow = false → host = false → Ends .perstN s fun u =>
      WarmDone s u 4 (s.mgt.bootSel % 4) ∧ u.mgt.bootSel = s.mgt.bootSel ∧ u.mgt.perstLow = true) ∧
    (s.mgt.perstLow = false → host = true → s.hif.resetting = [] → enabledVfs s = [] → s.hif.valid = [] →
      (∀ k, k < 128 → chFunc s k = 0 → chDisp s k = false → chBusy s k = false) → noRelease s = true → Ends .perstN s fun u =>
        u.mgt = { s.mgt with perstLow := true } ∧ u.hif.hstReset = true ∧ u.hif.linkTrained = false ∧ u.hif.bar4 = [] ∧
        resetting u 0 = false ∧ (∀ c ∈ u.hif.cmds, c.f ≠ 0) ∧ u.mem = s.mem ∧ u.eng = s.eng ∧ u.lnk = s.lnk ∧ u.tim = s.tim ∧
        (∀ a, 0x100 ≤ a → a < 0x10000 → a < 0x3000 ∨ 0x7000 ≤ a → rd u (fnKey 0 a) = regReset (fnKey 0 a)) ∧
        (∀ n, n < 64 → tlOwner s n = 0 → isSet u (Reg.TL_CTL n) F.TL_CTL_EN = false)) ∧
    Leads .perstRelease s { s with mgt := { s.mgt with perstLow := false }, hif := { s.hif with hstReset := false } })

/-- R532 to R535: a primer image is loaded from the source in turn and checked; a good one runs with its boot configuration, a bad one gives way
to the next source, and the last failure stops the boot. In host boot GO starts a fetch, which ends with DONE or ERR. When the AON PLL first
locks, HST is configured from OTP. -/
def Obligations.Boot : Prop :=
  (∀ (s : State) (good : Bool), let stat := Reg.MGT_BOOT_STAT
    let host := decide (s.mgt.bootTry = 2)
    let img := bootImage s
    let fault := if good = true then primerFault 1 img else some 8
    let Stop (c : Nat) (u : State) : Prop := stage u = 4 ∧ fld u stat F.MGT_BOOT_STAT_FAIL = c ∧ OnlyRegs [stat] s u
    (stage s ≠ 0 ∨ (host = true ∧ isSet s Reg.MGT_HBOOT_CTL F.MGT_HBOOT_CTL_DONE = false) → Leads (.bootImageLoaded good) s s) ∧
    (stage s = 0 → host = false ∨ isSet s Reg.MGT_HBOOT_CTL F.MGT_HBOOT_CTL_DONE = true →
      (fault = none → Ends (.bootImageLoaded good) s fun u => stage u = 1 ∧ isSet u stat F.MGT_BOOT_STAT_SLOT = decide (s.mgt.bootTry = 1) ∧
        isSet u stat F.MGT_BOOT_STAT_HOST = host ∧ SameRegsBut [stat] s u ∧ u = { s with regs := u.regs, hif := { s.hif with
          crs := false
          bar4En := if Config.otpBootCfgLock = true then s.hif.bar4En else bitAt (leAt img 0x18 1) 0
          subsys := if Config.otpBootCfgLock = true then s.hif.subsys else BitVec.ofNat 32 (leAt img 0x1C 4) } }) ∧
      (∀ c, fault = some c → c < 16 →
        (s.mgt.bootTry = 0 → Leads (.bootImageLoaded good) s { s with mgt := { s.mgt with bootTry := 1 } }) ∧
        (s.mgt.bootTry = 1 → bootSel s = 2 → Leads (.bootImageLoaded good) s
          { s with mgt := { s.mgt with bootTry := 2 }, hif := { s.hif with crs := false } }) ∧
        (s.mgt.bootTry = 1 → bootSel s ≠ 2 → Ends (.bootImageLoaded good) s (Stop c)) ∧
        (host = true → Ends (.bootImageLoaded good) s (Stop c))))) ∧
  (∀ (s : State) (w : Requester), direct s w Reg.MGT_HBOOT_CTL = true → let a := Reg.MGT_HBOOT_CTL
    let n := (rd s Reg.MGT_HBOOT_LEN).toNat
    let may := decide (stage s = 0 ∧ (bootSel s = 1 ∨ bootSel s = 2)) && !isSet s a F.MGT_HBOOT_CTL_BUSY
    (may = false → Leads (.mgtHbootCtl w) s (taken s w)) ∧
    (may = true → Ends (.mgtHbootCtl w) s fun u => OnlyRegs [a] (taken s w) u ∧ isSet u a F.MGT_HBOOT_CTL_DONE = false ∧
      isSet u a F.MGT_HBOOT_CTL_BUSY = decide (512 ≤ n ∧ n ≤ 1048576) ∧
      isSet u a F.MGT_HBOOT_CTL_ERR = !decide (512 ≤ n ∧ n ≤ 1048576))) ∧
  (∀ (s : State) (good : Bool), let a := Reg.MGT_HBOOT_CTL
    (isSet s a F.MGT_HBOOT_CTL_BUSY = false → Leads (.hbootFetchDone good) s s) ∧
    (isSet s a F.MGT_HBOOT_CTL_BUSY = true → good = true → s.hif.linkTrained = true → Ends (.hbootFetchDone good) s fun u =>
      isSet u a F.MGT_HBOOT_CTL_DONE = true ∧ isSet u a F.MGT_HBOOT_CTL_BUSY = false ∧ SameRegsBut [a] s u ∧
      u.mgt = { s.mgt with sram := hostLoad s (rd64 s Reg.MGT_HBOOT_ADDR_LO) (rd s Reg.MGT_HBOOT_LEN).toNat } ∧ u.mem = s.mem) ∧
    (isSet s a F.MGT_HBOOT_CTL_BUSY = true → good = false ∨ s.hif.linkTrained = false → Ends (.hbootFetchDone good) s fun u =>
      isSet u a F.MGT_HBOOT_CTL_ERR = true ∧ isSet u a F.MGT_HBOOT_CTL_BUSY = false ∧ OnlyRegs [a, Reg.MGT_BOOT_STAT] s u ∧
      (stage s = 0 → s.mgt.bootTry = 2 → stage u = 4 ∧ fld u Reg.MGT_BOOT_STAT F.MGT_BOOT_STAT_FAIL = 9) ∧
      (stage s ≠ 0 ∨ s.mgt.bootTry ≠ 2 → rd u Reg.MGT_BOOT_STAT = rd s Reg.MGT_BOOT_STAT))) ∧
  (∀ s : State, isSet s Reg.TIM_STATUS F.TIM_STATUS_LOCK = false → isSet s Reg.TIM_STATUS F.TIM_STATUS_HOLDOVER = false → stage s = 0 →
    Ends .aonPllLock s fun u => u.tim.counting = true ∧ u.hif = { s.hif with
      bar4En := Config.bar4, subsys := Config.subsys, crs := if s.mgt.bootTry = 2 then false else s.hif.crs })

/-! ## Rules of the whole machine -/

/-- R44: a read from a reserved BAR0 range returns 0, and a write to one has no effect. -/
def Obligations.ReservedOffsets : Prop :=
  ∀ (s : State) (a : BitVec 25), findReg (canonOff a.toNat) = none → a.toNat % 4 = 0 → s.mgt.late = [] →
    (∀ bad, Leads (.spiRead (a.setWidth 32) bad) s (emit s (.spi 0 32))) ∧
    ∀ w v, reaches s w = true → arrives s w = s → viewOf s w (canonOff a.toNat) = .rw → extLocked s w (canonOff a.toNat) = false →
      (∀ f : Fin 32, w = .fn f → f = 0) → Leads (.registerWrite w .word a v) s (taken s w)

/-- R475: THM_WARN and THM_THROTTLE take values up to their defaults; others leave them as they are. THM_CRIT is fixed. -/
def Obligations.ThermalLimits : Prop :=
  ∀ (s : State) (w : Requester) (v : Word),
    (∀ r ∈ [(Reg.THM_WARN, 0x5F0), (Reg.THM_THROTTLE, 0x640)], direct s w r.1 = true →
      Ends (.registerWrite w .word (BitVec.ofNat 25 r.1) v) s fun u => OnlyRegs [r.1] (taken s w) u ∧
        (temp16 v.toNat ≤ (r.2 : Int) → fld u r.1 ⟨0, 16⟩ = v.toNat % 2 ^ 16) ∧
        ((r.2 : Int) < temp16 v.toNat → rd u r.1 = rd s r.1)) ∧
    (direct s w Reg.THM_CRIT = true → Ends (.registerWrite w .word (BitVec.ofNat 25 Reg.THM_CRIT) v) s fun u => OnlyRegs [] (taken s w) u)

/-- R450, R436, R527 and the register maps: after reset the sectors and strips are OFF, the other domains ACT and the level PARTIAL; nothing
waits, ALERT_N and the event summary are right, and the time base stands. That memory reads 0 then, and that the PLL has not locked yet, are the
model's choices (log 4, log 100). -/
def Obligations.ResetState : Prop :=
  (∀ n, n < 20 → domSt State.reset n = 3) ∧ (∀ n, 20 ≤ n → n < 25 → domSt State.reset n = 0) ∧ level State.reset = 1 ∧
  AlertRight State.reset ∧ SummaryRight State.reset ∧ State.reset.pending = [] ∧ Memory.wf State.reset.mem = true ∧
  (∀ a, memGet State.reset.mem a = 0) ∧ (∀ a, rd State.reset a = regReset a) ∧ timNow State.reset = 0 ∧ State.reset.tim.counting = false ∧
  (∀ u, unitSt State.reset u = 0) ∧ (∀ e, (eng State.reset e).st = 0)

/-- R436, R525, R527: whatever is commanded, in whatever state, the event summary and ALERT_N are right afterwards. -/
def Obligations.EventsStaySettled : Prop := ∀ s t : State, step s = .next t → AlertRight t ∧ SummaryRight t
end

