-- ==== Sys2Proof/Laws/Tab.lean ====
section
/-! SUPPORT. The laws of sparse tables: a read after a write, and the canonical form. -/

namespace Sys2Proof.Machine

variable {α : Type}

theorem Tab.get_ins_same (d : Nat → α) (t : Tab α) (k : Nat) (v : α) :
    Tab.get d (Tab.ins k v t) k = v := by
  induction t with
  | nil => simp [Tab.ins, Tab.get]
  | cons a t ih =>
    obtain ⟨k', v'⟩ := a
    unfold Tab.ins
    split_ifs with h1 h2 <;> simp [Tab.get, *]

theorem Tab.get_ins_ne (d : Nat → α) (t : Tab α) {k j : Nat} (v : α) (h : j ≠ k) :
    Tab.get d (Tab.ins k v t) j = Tab.get d t j := by
  induction t with
  | nil => simp [Tab.ins, Tab.get, h.symm]
  | cons a t ih =>
    obtain ⟨k', v'⟩ := a
    unfold Tab.ins
    split_ifs with h1 h2
    · simp [Tab.get, h.symm]
    · subst h2; simp [Tab.get, h.symm]
    · simp only [Tab.get, ih]

theorem Tab.get_del_same (d : Nat → α) (t : Tab α) (k : Nat) :
    Tab.get d (Tab.del k t) k = d k := by
  induction t with
  | nil => simp [Tab.del, Tab.get]
  | cons a t ih =>
    obtain ⟨k', v'⟩ := a
    unfold Tab.del
    split_ifs with h <;> simp [Tab.get, *]

theorem Tab.get_del_ne (d : Nat → α) (t : Tab α) {k j : Nat} (h : j ≠ k) :
    Tab.get d (Tab.del k t) j = Tab.get d t j := by
  induction t with
  | nil => simp [Tab.del, Tab.get]
  | cons a t ih =>
    obtain ⟨k', v'⟩ := a
    unfold Tab.del
    split_ifs with h2
    · subst h2; simp [Tab.get, h.symm, ih]
    · simp only [Tab.get, ih]

variable [DecidableEq α]

/-- A read after a write to the same key gives the value written. -/
@[simp] theorem Tab.get_put_same (d : Nat → α) (t : Tab α) (k : Nat) (v : α) :
    Tab.get d (Tab.put d t k v) k = v := by
  unfold Tab.put
  split_ifs with h
  · rw [Tab.get_del_same, h]
  · exact Tab.get_ins_same d t k v

/-- A write leaves every other key alone. -/
theorem Tab.get_put_ne (d : Nat → α) (t : Tab α) {k j : Nat} (v : α) (h : j ≠ k) :
    Tab.get d (Tab.put d t k v) j = Tab.get d t j := by
  unfold Tab.put
  split_ifs
  · exact Tab.get_del_ne d t h
  · exact Tab.get_ins_ne d t v h

theorem Tab.get_put (d : Nat → α) (t : Tab α) (k j : Nat) (v : α) :
    Tab.get d (Tab.put d t k v) j = if j = k then v else Tab.get d t j := by
  split_ifs with h
  · subst h; simp
  · exact Tab.get_put_ne d t v h

omit [DecidableEq α] in
theorem Tab.above_ins {j k : Nat} (v : α) (t : Tab α) (h : j < k) (ht : Tab.above j t = true) :
    Tab.above j (Tab.ins k v t) = true := by
  induction t with
  | nil => simp [Tab.ins, Tab.above, h]
  | cons a t ih =>
    obtain ⟨k', v'⟩ := a
    simp only [Tab.above, Bool.and_eq_true, decide_eq_true_eq] at ht
    unfold Tab.ins
    split_ifs <;> simp [Tab.above, *]

omit [DecidableEq α] in
theorem Tab.above_del {j : Nat} (k : Nat) (t : Tab α) (ht : Tab.above j t = true) :
    Tab.above j (Tab.del k t) = true := by
  induction t with
  | nil => simp [Tab.del, Tab.above]
  | cons a t ih =>
    obtain ⟨k', v'⟩ := a
    simp only [Tab.above, Bool.and_eq_true, decide_eq_true_eq] at ht
    unfold Tab.del
    split_ifs <;> simp [Tab.above, *]

omit [DecidableEq α] in
theorem Tab.above_mono {i j : Nat} (t : Tab α) (h : i < j) (ht : Tab.above j t = true) :
    Tab.above i t = true := by
  induction t with
  | nil => rfl
  | cons a t ih =>
    obtain ⟨k', v'⟩ := a
    simp only [Tab.above, Bool.and_eq_true, decide_eq_true_eq] at ht ⊢
    exact ⟨by omega, ih ht.2⟩

theorem Tab.wf_ins (d : Nat → α) (t : Tab α) {k : Nat} {v : α} (hv : v ≠ d k)
    (ht : Tab.wf d t = true) : Tab.wf d (Tab.ins k v t) = true := by
  induction t with
  | nil => simp [Tab.ins, Tab.wf, Tab.above, hv]
  | cons a t ih =>
    obtain ⟨k', v'⟩ := a
    simp only [Tab.wf, Bool.and_eq_true, decide_eq_true_eq] at ht
    obtain ⟨⟨h1, h2⟩, h3⟩ := ht
    unfold Tab.ins
    split_ifs with ha hb
    · simp [Tab.wf, Tab.above, hv, h1, h2, h3, ha, Tab.above_mono t ha h2]
    · subst hb; simp [Tab.wf, hv, h2, h3]
    · simp [Tab.wf, h1, ih h3, Tab.above_ins v t (by omega : k' < k) h2]

theorem Tab.wf_del (d : Nat → α) (t : Tab α) (k : Nat) (ht : Tab.wf d t = true) :
    Tab.wf d (Tab.del k t) = true := by
  induction t with
  | nil => rfl
  | cons a t ih =>
    obtain ⟨k', v'⟩ := a
    simp only [Tab.wf, Bool.and_eq_true, decide_eq_true_eq] at ht
    obtain ⟨⟨h1, h2⟩, h3⟩ := ht
    unfold Tab.del
    split_ifs
    · exact ih h3
    · simp [Tab.wf, h1, ih h3, Tab.above_del k t h2]

/-- A write keeps the canonical form. -/
theorem Tab.wf_put (d : Nat → α) (t : Tab α) (k : Nat) (v : α) (ht : Tab.wf d t = true) :
    Tab.wf d (Tab.put d t k v) = true := by
  unfold Tab.put
  split_ifs with h
  · exact Tab.wf_del d t k ht
  · exact Tab.wf_ins d t h ht

theorem Tab.wf_upd (d : Nat → α) (t : Tab α) (k : Nat) (f : α → α) (ht : Tab.wf d t = true) :
    Tab.wf d (Tab.upd d t k f) = true := Tab.wf_put d t k _ ht

end Sys2Proof.Machine
end

