-- ==== Sys2Proof/Laws/Settle.lean ====
section
/-! SUPPORT. What `settle` can do: the lemma that every statement about a next state rests on. -/

namespace Sys2Proof.Machine

/-- A write leaves every other register alone. -/
theorem rd_wr_ne (s : State) {a b : Nat} (v : Word) (h : b ≠ a) : rd (wr s a v) b = rd s b :=
  Tab.get_put_ne _ _ _ h

/-- A register reads as written. -/
@[simp] theorem rd_wr_same (s : State) (a : Nat) (v : Word) : rd (wr s a v) a = v :=
  Tab.get_put_same _ _ _ _

theorem rd_wr (s : State) (a b : Nat) (v : Word) : rd (wr s a v) b = if b = a then v else rd s b :=
  Tab.get_put _ _ _ _ _

/-- A fold that an entry at key `k` does not change is not changed by inserting one. -/
theorem foldl_ins {β : Type} (f : β → Nat × Word → β) (k : Nat) (hf : ∀ m v, f m (k, v) = m) (t : Tab Word) (v : Word) (m : β) :
    (Tab.ins k v t).foldl f m = t.foldl f m := by
  induction t generalizing m with
  | nil => simp [Tab.ins, hf]
  | cons a t ih =>
    obtain ⟨k', v'⟩ := a
    unfold Tab.ins
    split_ifs with h1 h2
    · simp [hf]
    · subst h2; simp [hf]
    · simp [ih]

theorem foldl_del {β : Type} (f : β → Nat × Word → β) (k : Nat) (hf : ∀ m v, f m (k, v) = m) (t : Tab Word) (m : β) :
    (Tab.del k t).foldl f m = t.foldl f m := by
  induction t generalizing m with
  | nil => rfl
  | cons a t ih =>
    obtain ⟨k', v'⟩ := a
    unfold Tab.del
    split_ifs with h
    · subst h; simp [hf, ih]
    · simp [ih]

theorem foldl_put {β : Type} (f : β → Nat × Word → β) (k : Nat) (hf : ∀ m v, f m (k, v) = m) (t : Tab Word) (v : Word) (m : β) :
    (Tab.put regReset t k v).foldl f m = t.foldl f m := by
  unfold Tab.put
  split_ifs
  · exact foldl_del f k hf t m
  · exact foldl_ins f k hf t v m

/-- Event registers and their enables stand elsewhere than the pending bits. -/
theorem evtBlock_pba (a : Nat) (h0 : 0x6000 ≤ a) (h1 : a < 0x8000) : evtBlock a = none := by
  unfold evtBlock
  simp only [Reg.TLN_EVT, Reg.TL_EVT, Reg.TIM_EVT, Reg.TIM_CMP_EVT, Reg.PWR_EVT, Reg.STW_EVT, Reg.THM_EVT, Reg.RAS_EVT, Reg.NOC_EVT,
    Reg.MEM_EVT]
  rw [if_neg (by omega), if_neg (by omega), if_neg (by omega), if_neg (by omega), if_neg (by omega), if_neg (by omega),
    if_neg (by omega), if_neg (by omega), if_neg (by omega), if_neg (by omega), if_neg (by omega), if_neg (by omega)]

/-- One entry's part of the stored summary. -/
theorem storedSum_wr (s : State) (a : Nat) (v : Word) (h0 : 0x7000 ≤ a) (h1 : a < 0x8000) : storedSum (wr s a v) = storedSum s := by
  have hstep : ∀ e : Nat × Word, evtBlock e.1 ≠ none → rd (wr s a v) (e.1 + 4) = rd s (e.1 + 4) := fun e he =>
    rd_wr_ne s v fun hc => he (evtBlock_pba e.1 (by omega) (by omega))
  unfold storedSum
  refine Eq.trans (foldl_put _ a (fun m w => ?_) s.regs v 0) (List.foldl_ext _ _ _ fun m e _ => ?_)
  · simp only [evtBlock_pba a (by omega) h1]
  · cases h : evtBlock e.1 with
    | none => rfl
    | some k => simp only [hstep e (by simp [h])]

theorem devEvtSum_wr (s : State) (a : Nat) (v : Word) (h0 : 0x7000 ≤ a) (h1 : a < 0x8000) : devEvtSum (wr s a v) = devEvtSum s := by
  have ht : rd (wr s a v) Reg.TIM_EVT_EN = rd s Reg.TIM_EVT_EN := rd_wr_ne s v (by simp only [Reg.TIM_EVT_EN]; omega)
  have hl : ∀ b, rd (wr s a v) (Reg.LNK_EVT_EN b) = rd s (Reg.LNK_EVT_EN b) := fun b =>
    rd_wr_ne s v (by simp only [Reg.LNK_EVT_EN]; omega)
  unfold devEvtSum
  simp only [storedSum_wr s a v h0 h1, ht, hl]
  rfl

theorem alertStat_wr (s : State) (a : Nat) (v : Word) (h0 : 0x7000 ≤ a) (h1 : a < 0x8000) : alertStat (wr s a v) = alertStat s := by
  have h : ∀ b f, b < 0x7000 ∨ 0x8000 ≤ b → fld (wr s a v) b f = fld s b f := fun b f hb => by
    unfold fld; rw [rd_wr_ne s v (by omega)]
  unfold alertStat isSet
  rw [devEvtSum_wr s a v h0 h1, h _ _ (by simp only [Reg.SEP_STAT]; omega), h _ _ (by simp only [Reg.MGT_BOOT_STAT]; omega),
    h _ _ (by simp only [Reg.THM_STAT]; omega)]

/-- Two states with the same registers and the same event queues have the same summary. -/
theorem devEvtSum_congr {s t : State} (hr : t.regs = s.regs) (ht : t.tim = s.tim) (hl : t.lnk = s.lnk) :
    devEvtSum t = devEvtSum s := by
  unfold devEvtSum storedSum rd
  rw [hr, ht, hl]

theorem alertStat_congr {s t : State} (hr : t.regs = s.regs) (ht : t.tim = s.tim) (hl : t.lnk = s.lnk) :
    alertStat t = alertStat s := by
  unfold alertStat isSet fld rd
  rw [devEvtSum_congr hr ht hl, hr]

/-- What a message of the physical function can do. -/
theorem msixSend_cases (s : State) (v : Nat) :
    msixSend s 0 v = s ∨
    (∃ k w, k < 64 ∧ msixSend s 0 v = wr s (fnKey 0 (Reg.MSIX_PBA k)) w) ∨
    (∃ a d, msixSend s 0 v = emit s (.msix 0 v a d)) := by
  unfold msixSend
  split_ifs with h1 h2 h3
  · exact .inl rfl
  · refine .inr (.inl ⟨v / 32, _, ?_, rfl⟩)
    have : msixSize s 0 ≤ 2048 := by unfold msixSize; split_ifs <;> omega
    omega
  · exact .inr (.inr ⟨_, _, rfl⟩)
  · exact .inl rfl

/-- What bringing the event summary up to date can do. -/
theorem settleEvents_spec (s : State) :
    (settleEvents s) = { s with
      regs := (settleEvents s).regs, out := (settleEvents s).out, hif := { s.hif with devEvt := devEvtSum s } } ∧
    (∀ a, isPba a = false → rd (settleEvents s) a = rd s a) ∧
    (∃ new : List Out, (settleEvents s).out = new ++ s.out ∧ new.all Out.ofEvents = true) ∧
    alertStat (settleEvents s) = alertStat s ∧ devEvtSum (settleEvents s) = devEvtSum s := by
  unfold settleEvents
  simp only []
  split_ifs
  · set s1 : State := { s with hif := { s.hif with devEvt := devEvtSum s } } with hs1
    rcases msixSend_cases s1 (fld s1 Reg.HIF_DEVEVT_VEC F.HIF_DEVEVT_VEC_VECTOR) with h | ⟨k, w, hk, h⟩ | ⟨a, d, h⟩
    · rw [h]
      exact ⟨rfl, fun _ _ => rfl, ⟨[], rfl, rfl⟩, alertStat_congr rfl rfl rfl, devEvtSum_congr rfl rfl rfl⟩
    · have ha0 : 0x7000 ≤ fnKey 0 (Reg.MSIX_PBA k) := by simp only [fnKey, Reg.MSIX_PBA]; omega
      have ha1 : fnKey 0 (Reg.MSIX_PBA k) < 0x8000 := by simp only [fnKey, Reg.MSIX_PBA]; omega
      rw [h]
      refine ⟨rfl, fun a hp => rd_wr_ne _ _ ?_, ⟨[], rfl, rfl⟩, (alertStat_wr _ _ _ ha0 ha1).trans (alertStat_congr rfl rfl rfl),
        (devEvtSum_wr _ _ _ ha0 ha1).trans (devEvtSum_congr rfl rfl rfl)⟩
      rintro rfl
      simp only [isPba, upto, List.any_eq_false, decide_eq_true_eq, List.mem_range] at hp
      exact hp k hk rfl
    · rw [h]
      exact ⟨rfl, fun _ _ => rfl, ⟨[.msix 0 _ a d], rfl, by simp [Out.ofEvents]⟩, alertStat_congr rfl rfl rfl,
        devEvtSum_congr rfl rfl rfl⟩
  · exact ⟨rfl, fun _ _ => rfl, ⟨[], rfl, rfl⟩, alertStat_congr rfl rfl rfl, devEvtSum_congr rfl rfl rfl⟩

/-- What a change of ALERT_N can do. -/
theorem setAlert_spec (s : State) (low : Bool) :
    setAlert s low = { s with out := (setAlert s low).out, mgt := { s.mgt with alertLow := low } } ∧
    (∃ new : List Out, (setAlert s low).out = new ++ s.out ∧ new.all Out.ofEvents = true) := by
  unfold setAlert
  simp only []
  split_ifs
  · exact ⟨rfl, [.ibi 1, .alert low], rfl, by simp [Out.ofEvents]⟩
  · exact ⟨rfl, [.alert low], rfl, by simp [Out.ofEvents]⟩

/-- `settle` brings the event summary and ALERT_N up to date and does nothing else. -/
theorem settled_settle (s : State) : Settled s (settle s) := by
  obtain ⟨h1, h2, ⟨new, h3, h4⟩, h5, h6⟩ := settleEvents_spec s
  set u := settleEvents s with hu
  have hdev : u.hif.devEvt = devEvtSum s := by rw [h1]
  have hmgt : u.mgt = s.mgt := by rw [h1]
  show Settled s (settleAlert u)
  unfold settleAlert
  split_ifs with hl
  · exact ⟨by rw [h1], h2, ⟨new, h3, h4⟩, hl.symm, by unfold SummaryRight; rw [hdev, h6]⟩
  · obtain ⟨g1, more, g2, g3⟩ := setAlert_spec u (alertDue u)
    have hregs : (setAlert u (alertDue u)).regs = u.regs := by rw [g1]
    have htim : (setAlert u (alertDue u)).tim = u.tim := by rw [g1]
    have hlnk : (setAlert u (alertDue u)).lnk = u.lnk := by rw [g1]
    have hal : (setAlert u (alertDue u)).mgt.alertLow = alertDue u := by rw [g1]
    have hev : (setAlert u (alertDue u)).hif = u.hif := by rw [g1]
    refine ⟨?_, ?_, ⟨more ++ new, by rw [g2, h3, List.append_assoc], by rw [List.all_append, g3, h4]; rfl⟩, ?_, ?_⟩
    · rw [g1, h1]
    · intro a ha
      rw [← h2 a ha]
      unfold rd
      rw [hregs]
    · unfold AlertRight
      have hen : rd (setAlert u (alertDue u)) Reg.MGT_ALERT_EN = rd u Reg.MGT_ALERT_EN := by unfold rd; rw [hregs]
      rw [hal, alertStat_congr hregs htim hlnk, hen]
      rfl
    · unfold SummaryRight
      rw [hev, hdev, devEvtSum_congr hregs htim hlnk, h6]

/-- A meaning that ends in `done` leads to the state it names. -/
theorem done_leads {c : Instr} {s u : State} (h : exec c s = done u) : Leads c s u := ⟨settle u, h, settled_settle u⟩

end Sys2Proof.Machine
end

