-- ==== Sys2Proof/Laws/Engine.lean ====
section
/-! SUPPORT. What the shared operations of an engine's bundle do, for an engine with nothing in flight. -/

namespace Sys2Proof.Machine

@[simp] theorem eng_setEng_same (s : State) (e : Nat) (x : EngS) : eng (setEng s e x) e = x := Tab.get_put_same _ _ _ _

theorem eng_setEng_ne (s : State) {e k : Nat} (x : EngS) (h : k ≠ e) : eng (setEng s e x) k = eng s k := Tab.get_put_ne _ _ _ h

@[simp] theorem eng_updEng_same (s : State) (e : Nat) (g : EngS → EngS) : eng (updEng s e g) e = g (eng s e) := by simp [updEng]

theorem eng_updEng_ne (s : State) {e k : Nat} (g : EngS → EngS) (h : k ≠ e) : eng (updEng s e g) k = eng s k :=
  eng_setEng_ne s _ h

/-- What `calm` says, one by one. -/
theorem calm_iff (s : State) (e : Nat) : calm s e = true ↔
    (eng s e).ready = true ∧ s.pwr.clocksStopped = false ∧ (eng s e).slotB = none ∧ (eng s e).impAcc = none ∧
    (eng s e).accov = none ∧ (eng s e).fl = [] ∧ (eng s e).cp0N = none ∧ (eng s e).cp1N = none ∧ (eng s e).cp3N = none ∧
    (eng s e).accN = (eng s e).acc ∧ (eng s e).pc < (eng s e).size ∧ (eng s e).atLoopEnd = false := by
  simp [calm, and_assoc, Option.isNone_iff_eq_none, List.isEmpty_iff]

/-- A legal slot A instruction of a calm engine completes. -/
theorem issue_calm {s : State} {e : Nat} (h : calm s e = true) (a : SlotA) (k : State → State) (hu : a.undef = false)
    (hi : a.illegal = false) (hb : a.brk = false) : issue s e a k = k s := by
  obtain ⟨h1, h2, h3, h4, h5, h6, h7, h8, h9, h10, h11, h12⟩ := (calm_iff s e).1 h
  have hat : atBoundary s e = none := by simp [atBoundary, h4, h5]
  simp [issue, h1, h2, h3, hat, hu, hi, hb, Nat.not_le.mpr h11, EngS.illegal, h12]

/-- An undefined slot A word of a calm engine is squashed. -/
theorem issue_undef {s : State} {e : Nat} (h : calm s e = true) (a : SlotA) (k : State → State) (hu : a.undef = true) :
    issue s e a k = takeExc s e 1 (eng s e).pc 0 false := by
  obtain ⟨h1, h2, h3, h4, h5, h6, h7, h8, h9, h10, h11, h12⟩ := (calm_iff s e).1 h
  have hat : atBoundary s e = none := by simp [atBoundary, h4, h5]
  simp [issue, h1, h2, h3, hat, hu, Nat.not_le.mpr h11]

/-- With nothing in flight a register reads as it stands. -/
theorem rdS_still {s : State} {e : Nat} (h : (eng s e).fl = []) (r : Nat) : rdS s e r = ((sreg (eng s e) r).toNat, s) := by
  unfold rdS sreg
  split_ifs with h0
  · rfl
  · simp [EngS.inFlight, h, readOld]

/-- The loop-end check does nothing away from the end of an active loop. -/
theorem loopEnd_away (x : EngS) (h : x.atLoopEnd = false) : loopEnd [0, 1, 2] x = ((x.pc + 8) % 2 ^ 15, x) := by
  have hn : ∀ n, n < 3 → ¬(x.srN (Sr.LC n) % 2 ^ 24 ≠ 0 ∧ x.pc = x.srN (Sr.LE n)) := by
    intro n hn hc
    simp only [EngS.atLoopEnd, upto, List.any_eq_false, List.mem_range] at h
    have := h n hn
    simp [← hc.2] at this
    exact hc.1 this
  simp only [loopEnd]
  rw [if_neg (hn 0 (by omega)), if_neg (hn 1 (by omega)), if_neg (hn 2 (by omega))]

end Sys2Proof.Machine
end

