-- ==== Sys2Proof/Laws/Memory.lean ====
section
/-! SUPPORT. The laws of memory: what a read finds after each operation, and that each keeps the canonical form. -/

namespace Sys2Proof.Machine

/-! ## Reads -/

theorem memGet_memPut (m : Tab Byte) (a x : Nat) (b : Byte) : memGet (memPut m a b) x = if x = a then b else memGet m x :=
  Tab.get_put _ _ _ _ _

/-- A read after a write of bytes: the byte written where one was, the old byte elsewhere. -/
theorem memGet_memPutN (m : Tab Byte) (a x : Nat) (bs : List Byte) :
    memGet (memPutN m a bs) x = if a ≤ x ∧ x < a + bs.length then bs.getD (x - a) 0 else memGet m x := by
  induction bs generalizing m a with
  | nil => rw [if_neg (by simp)]; rfl
  | cons b bs ih =>
    rw [memPutN, ih, memGet_memPut]
    by_cases hx : x = a
    · subst hx
      rw [if_neg (by omega), if_pos rfl, if_pos (by simp)]
      simp
    · by_cases h : a + 1 ≤ x ∧ x < a + 1 + bs.length
      · rw [if_pos h, if_pos (by simp; omega)]
        obtain ⟨k, rfl⟩ : ∃ k, x = a + 1 + k := ⟨x - (a + 1), by omega⟩
        rw [show a + 1 + k - (a + 1) = k by omega, show a + 1 + k - a = k + 1 by omega]
        simp
      · rw [if_neg h, if_neg hx, if_neg (by simp; omega)]

theorem memGet_memPutN_out (m : Tab Byte) {a x : Nat} (bs : List Byte) (h : x < a ∨ a + bs.length ≤ x) :
    memGet (memPutN m a bs) x = memGet m x := by
  rw [memGet_memPutN, if_neg (by omega)]

/-- A memory whose entries are restricted by their addresses reads as 0 where they are dropped. -/
theorem memGet_filter (m : Tab Byte) (p : Nat → Bool) (x : Nat) :
    memGet (m.filter fun e => p e.1) x = if p x then memGet m x else 0 := by
  induction m with
  | nil => simp [memGet, Tab.get]
  | cons e m ih =>
    obtain ⟨k, v⟩ := e
    unfold memGet at ih ⊢
    by_cases hk : k = x
    · subst hk
      cases hp : p k
      · simpa [hp, List.filter_cons] using ih
      · simp [hp, Tab.get]
    · cases hp : p k <;> simp [hp, Tab.get, hk, ih]

/-- A read of device memory after a store. -/
theorem memGet_storeN (s : State) (a x : Nat) (bs : List Byte) :
    memGet (storeN s a bs).mem x = if a ≤ x ∧ x < a + bs.length then bs.getD (x - a) 0 else memGet s.mem x :=
  memGet_memPutN _ _ _ _

/-- A read of host memory after a store. -/
theorem memGet_hostStore (s : State) (a x : Nat) (bs : List Byte) :
    memGet (hostStore s a bs).hostMem x = if a ≤ x ∧ x < a + bs.length then bs.getD (x - a) 0 else memGet s.hostMem x :=
  memGet_memPutN _ _ _ _

/-- A read of device memory after a clear. -/
theorem memGet_clearMem (s : State) (lo hi x : Nat) :
    memGet (clearMem s lo hi).mem x = if x < lo ∨ hi ≤ x then memGet s.mem x else 0 := by
  have := memGet_filter s.mem (fun k => decide (k < lo) || decide (hi ≤ k)) x
  simpa [clearMem] using this

@[simp] theorem memGetN_length (m : Tab Byte) (a n : Nat) : (memGetN m a n).length = n := by simp [memGetN, upto]

@[simp] theorem loadN_length (s : State) (a n : Nat) : (loadN s a n).length = n := memGetN_length _ _ _

@[simp] theorem leBytes_length (n v : Nat) : (leBytes n v).length = n := by
  induction n generalizing v with
  | zero => rfl
  | succ n ih => simp [leBytes, ih]

/-- The bytes of a number give it back. -/
theorem leNat_leBytes (n v : Nat) : leNat (leBytes n v) = v % 256 ^ n := by
  induction n generalizing v with
  | zero => simp [leBytes, leNat, Nat.mod_one]
  | succ n ih =>
    have h : v % 256 ^ (n + 1) = v % 256 + 256 * (v / 256 % 256 ^ n) := by rw [pow_succ', Nat.mod_mul]
    rw [leBytes, leNat, ih, BitVec.toNat_ofNat, h]

/-- What was stored is what is read. -/
theorem loadN_storeN (s : State) (a : Nat) (bs : List Byte) : loadN (storeN s a bs) a bs.length = bs := by
  apply List.ext_getElem
  · simp
  · intro i h1 h2
    simp only [loadN, memGetN, upto, List.getElem_map, List.getElem_range, memGet_storeN]
    rw [if_pos ⟨by omega, by omega⟩, show a + i - a = i by omega]
    simp [List.getD, h2]

/-! ## The canonical form -/

theorem wf_memPut {m : Tab Byte} (a : Nat) (b : Byte) (h : Memory.wf m = true) : Memory.wf (memPut m a b) = true :=
  Tab.wf_put _ _ _ _ h

theorem wf_memPutN {m : Tab Byte} (a : Nat) (bs : List Byte) (h : Memory.wf m = true) : Memory.wf (memPutN m a bs) = true := by
  induction bs generalizing m a with
  | nil => exact h
  | cons b bs ih => exact ih (a + 1) (wf_memPut a b h)

theorem above_filter {α : Type} {j : Nat} (t : Tab α) (p : Nat × α → Bool) (h : Tab.above j t = true) :
    Tab.above j (t.filter p) = true := by
  induction t with
  | nil => rfl
  | cons e t ih =>
    obtain ⟨k, v⟩ := e
    simp only [Tab.above, Bool.and_eq_true, decide_eq_true_eq] at h
    cases hp : p (k, v) <;> simp [hp, Tab.above, ih h.2, h.1]

/-- Dropping entries keeps the canonical form. -/
theorem wf_filter {α : Type} [DecidableEq α] (d : Nat → α) (t : Tab α) (p : Nat × α → Bool) (h : Tab.wf d t = true) :
    Tab.wf d (t.filter p) = true := by
  induction t with
  | nil => rfl
  | cons e t ih =>
    obtain ⟨k, v⟩ := e
    simp only [Tab.wf, Bool.and_eq_true, decide_eq_true_eq] at h
    obtain ⟨⟨h1, h2⟩, h3⟩ := h
    cases hp : p (k, v)
    · simpa [List.filter_cons, hp] using ih h3
    · simp [hp, Tab.wf, h1, ih h3, above_filter t p h2]

/-- A store keeps device memory in canonical form. -/
theorem wf_storeN {s : State} (a : Nat) (bs : List Byte) (h : Memory.wf s.mem = true) : Memory.wf (storeN s a bs).mem = true :=
  wf_memPutN a bs h

theorem wf_storeLE {s : State} (a n v : Nat) (h : Memory.wf s.mem = true) : Memory.wf (storeLE s a n v).mem = true :=
  wf_storeN a _ h

/-- A clear keeps it. -/
theorem wf_clearMem {s : State} (lo hi : Nat) (h : Memory.wf s.mem = true) : Memory.wf (clearMem s lo hi).mem = true :=
  wf_filter _ _ _ h

/-- Damage to bytes does not change what they hold. -/
theorem wf_damage {s : State} (a n k : Nat) (h : Memory.wf s.mem = true) : Memory.wf (damage s a n k).mem = true := h

/-- A store keeps host memory in canonical form. -/
theorem wf_hostStore {s : State} (a : Nat) (bs : List Byte) (h : Memory.wf s.hostMem = true) :
    Memory.wf (hostStore s a bs).hostMem = true := wf_memPutN a bs h

/-- A power-on reset empties device memory; a warm reset keeps the part below a bound. -/
theorem wf_keepBelow (m : Tab Byte) (n : Nat) (h : Memory.wf m = true) :
    Memory.wf (m.filter fun e => decide (e.1 < n)) = true := wf_filter _ _ _ h

/-- Memory after reset is in canonical form. -/
theorem wf_reset : Memory.wf State.reset.mem = true ∧ Memory.wf State.reset.hostMem = true ∧ Memory.wf State.reset.flash = true :=
  ⟨rfl, rfl, rfl⟩

end Sys2Proof.Machine
end

