-- ==== Sys2Proof/Laws/Link.lean ====
section
/-! SUPPORT. The laws of frames: stuffing, scrambling and the order of bits are each undone on receipt, so that a frame of any contents
arrives as it was sent. -/

namespace Sys2Proof.Machine

theorem unstuff_stuff_run (bs : List Bool) (r : Nat) (v : Bool) (h : r < 15) : unstuff r v (stuff r v bs) = some bs := by
  induction bs generalizing r v with
  | nil => rfl
  | cons b bs ih =>
    unfold stuff
    simp only []
    by_cases hr : (if r ≠ 0 ∧ b = v then r + 1 else 1) = 15
    · rw [if_pos hr]
      have h15 : ¬ r = 15 := by omega
      unfold unstuff
      rw [if_neg h15]
      simp only [hr]
      unfold unstuff
      rw [if_pos rfl, if_neg (by simp), ih 1 (!b) (by omega)]
      rfl
    · rw [if_neg hr]
      have h15 : ¬ r = 15 := by omega
      unfold unstuff
      rw [if_neg h15]
      simp only []
      rw [ih _ b (by split_ifs at hr ⊢ <;> omega)]
      rfl

/-- Stuffed bits are removed again. -/
theorem unstuff_stuff (bs : List Bool) : unstuff 0 false (stuff 0 false bs) = some bs := unstuff_stuff_run bs 0 false (by omega)

/-- The scrambler undoes itself. -/
theorem scramble_scramble (bs : List Bool) (st : Nat) : scramble st (scramble st bs) = bs := by
  induction bs generalizing st with
  | nil => rfl
  | cons b bs ih =>
    simp only [scramble]
    rw [ih]
    congr 1
    cases b <;> cases (bitAt st 30) <;> cases (bitAt st 27) <;> rfl

@[simp] theorem scramble_length (bs : List Bool) (st : Nat) : (scramble st bs).length = bs.length := by
  induction bs generalizing st with
  | nil => rfl
  | cons b bs ih => simp [scramble, ih]

theorem scramble_append (a b : List Bool) (st : Nat) : ∃ t, scramble st (a ++ b) = scramble st a ++ t := by
  induction a generalizing st with
  | nil => exact ⟨scramble st b, rfl⟩
  | cons x a ih =>
    obtain ⟨t, ht⟩ := ih ((st * 2 + (bitAt st 30 != bitAt st 27).toNat) % 2 ^ 31)
    exact ⟨t, by simp only [List.cons_append, scramble, ht]⟩

theorem bytesToBits_append (a b : List Byte) : bytesToBits (a ++ b) = bytesToBits a ++ bytesToBits b := by simp [bytesToBits]

theorem byteOfBits_bitsMsb (b : Byte) : byteOfBits (bitsMsb b) = b := by
  revert b; decide +kernel

@[simp] theorem bytesToBits_length (bs : List Byte) : (bytesToBits bs).length = 8 * bs.length := by
  induction bs with
  | nil => rfl
  | cons b bs ih =>
    have : bytesToBits (b :: bs) = bitsMsb b ++ bytesToBits bs := rfl
    rw [this, List.length_append, ih]
    simp [bitsMsb]
    omega

/-- Bits give their bytes back. -/
theorem bitsToBytes_bytesToBits (bs : List Byte) : bitsToBytes bs.length (bytesToBits bs) = bs := by
  induction bs with
  | nil => rfl
  | cons b bs ih =>
    have h : bytesToBits (b :: bs) = bitsMsb b ++ bytesToBits bs := rfl
    have h8 : (bitsMsb b).length = 8 := rfl
    rw [h, List.length_cons, bitsToBytes, List.take_left' h8, List.drop_left' h8, byteOfBits_bitsMsb, ih]

/-- A frame of any header and payload with its CRC passes the checks of its receiver, which finds the bytes sent. -/
theorem frame_round_trip (q : Nat) (p : List Byte) (h : p.length = 2056) :
    let bytes := p ++ leBytes 4 (crcOf 6 p)
    let bs := scramble (scrSeed q) (bytesToBits bytes)
    unstuff 0 false (stuff 0 false bs) = some bs ∧ bs.length = 16480 ∧
    bitsToBytes 2060 (scramble (scrSeed q) (bs.take 16480)) = bytes ∧ leAt bytes 2056 4 = crcOf 6 (bytes.take 2056) % 2 ^ 32 := by
  intro bytes bs
  have hb : bytes.length = 2060 := by simp [bytes, h]
  have hl : bs.length = 16480 := by simp [bs, hb]
  refine ⟨unstuff_stuff bs, hl, ?_, ?_⟩
  · rw [List.take_of_length_le (by omega), scramble_scramble, ← hb, bitsToBytes_bytesToBits]
  · have h1 : bytes.take 2056 = p := List.take_left' h
    have h2 : bytes.drop 2056 = leBytes 4 (crcOf 6 p) := List.drop_left' h
    rw [h1, leAt, h2, List.take_of_length_le (by simp), leNat_leBytes, show (256 : Nat) ^ 4 = 2 ^ 32 from by norm_num]

theorem crcBitLsb_lt (g st : Nat) (b : Bool) (hg : g < 2 ^ 32) (h : st < 2 ^ 32) : crcBitLsb g st b < 2 ^ 32 := by
  unfold crcBitLsb
  simp only []
  split_ifs
  · exact Nat.xor_lt_two_pow (by omega) hg
  · omega

theorem crcBits_lt (bs : List Bool) (st : Nat) (h : st < 2 ^ 32) : bs.foldl (crcBit 6) st < 2 ^ 32 := by
  induction bs generalizing st with
  | nil => exact h
  | cons b bs ih =>
    apply ih
    show crcBitLsb (crcPoly 6).2 st b < 2 ^ 32
    exact crcBitLsb_lt _ _ _ (by decide) h

/-- A CRC-32C has 32 bits. -/
theorem crcOf_lt (bs : List Byte) : crcOf 6 bs < 2 ^ 32 := by
  have h : ∀ st, st < 2 ^ 32 → crcBytes 6 st bs < 2 ^ 32 := by
    unfold crcBytes
    induction bs with
    | nil => exact fun st h => h
    | cons b bs ih => exact fun st h => ih _ (crcBits_lt _ _ h)
  show crcBytes 6 (crcInit 6) bs ^^^ 0xFFFFFFFF < 2 ^ 32
  exact Nat.xor_lt_two_pow (h _ (by decide)) (by decide)

end Sys2Proof.Machine
end

