-- ==== Sys2Proof/Laws/Regs.lean ====
section
/-! SUPPORT. Fields and registers: what a read finds after a write. -/

namespace Sys2Proof.Machine

theorem getF_testBit (w : Word) (f : Fld) (i : Nat) : (getF w f).testBit i = (decide (i < f.width) && w.getLsbD (f.lo + i)) := by
  simp [getF, Nat.testBit_mod_two_pow, Nat.testBit_div_two_pow, BitVec.getLsbD, Nat.add_comm]

theorem fldMask_testBit (f : Fld) (i : Nat) :
    ((2 ^ f.width - 1) * 2 ^ f.lo).testBit i = (decide (f.lo ≤ i) && decide (i - f.lo < f.width)) := by
  rw [Nat.mul_comm, Nat.testBit_two_pow_mul, Nat.testBit_two_pow_sub_one]

theorem putF_getLsbD (w : Word) (f : Fld) (v i : Nat) (hi : i < 32) :
    (putF w f v).getLsbD i = if f.lo ≤ i ∧ i < f.lo + f.width then v.testBit (i - f.lo) else w.getLsbD i := by
  have hm : (BitVec.ofNat 32 ((2 ^ f.width - 1) * 2 ^ f.lo)).getLsbD i = (decide (f.lo ≤ i) && decide (i - f.lo < f.width)) := by
    rw [BitVec.getLsbD_ofNat, fldMask_testBit]; simp [hi]
  have hv : (BitVec.ofNat 32 (v * 2 ^ f.lo)).getLsbD i = (decide (f.lo ≤ i) && v.testBit (i - f.lo)) := by
    rw [BitVec.getLsbD_ofNat, Nat.mul_comm, Nat.testBit_two_pow_mul]; simp [hi]
  unfold putF
  simp only [BitVec.getLsbD_or, BitVec.getLsbD_and, BitVec.getLsbD_not, hm, hv, hi]
  split_ifs with h
  · have h2 : i - f.lo < f.width := by omega
    simp [h.1, h2]
  · by_cases h1 : f.lo ≤ i
    · have h2 : ¬i - f.lo < f.width := by omega
      simp [h1, h2]
    · simp [h1]

/-- A field reads as it was put, cut to its width. -/
theorem getF_putF (w : Word) (f : Fld) (v : Nat) (h : f.lo + f.width ≤ 32) : getF (putF w f v) f = v % 2 ^ f.width := by
  apply Nat.eq_of_testBit_eq
  intro i
  rw [getF_testBit, Nat.testBit_mod_two_pow]
  by_cases hi : i < f.width
  · rw [putF_getLsbD _ _ _ _ (by omega), if_pos ⟨by omega, by omega⟩, show f.lo + i - f.lo = i by omega]
  · simp [hi]

/-- Other fields stay. -/
theorem getF_putF_ne (w : Word) (f g : Fld) (v : Nat) (hg : g.lo + g.width ≤ 32) (h : g.lo + g.width ≤ f.lo ∨ f.lo + f.width ≤ g.lo) :
    getF (putF w f v) g = getF w g := by
  apply Nat.eq_of_testBit_eq
  intro i
  rw [getF_testBit, getF_testBit]
  by_cases hi : i < g.width
  · rw [putF_getLsbD _ _ _ _ (by omega), if_neg (by omega)]
  · simp [hi]

theorem getF_lt (w : Word) (f : Fld) : getF w f < 2 ^ f.width := Nat.mod_lt _ (Nat.two_pow_pos _)

@[simp] theorem rd_setFld_same (s : State) (a : Nat) (f : Fld) (v : Nat) : rd (setFld s a f v) a = putF (rd s a) f v := rd_wr_same _ _ _

theorem rd_setFld_ne (s : State) {a b : Nat} (f : Fld) (v : Nat) (h : b ≠ a) : rd (setFld s a f v) b = rd s b := rd_wr_ne _ _ h

/-- A field of a register reads as it was set. -/
theorem fld_setFld (s : State) (a : Nat) (f : Fld) (v : Nat) (h : f.lo + f.width ≤ 32) : fld (setFld s a f v) a f = v % 2 ^ f.width := by
  rw [fld, rd_setFld_same, getF_putF _ _ _ h]

theorem fld_setFld_ne (s : State) (a : Nat) (f g : Fld) (v : Nat) (hg : g.lo + g.width ≤ 32)
    (h : g.lo + g.width ≤ f.lo ∨ f.lo + f.width ≤ g.lo) : fld (setFld s a f v) a g = fld s a g := by
  rw [fld, rd_setFld_same, getF_putF_ne _ _ _ _ hg h, fld]

theorem fld_setFld_reg (s : State) {a b : Nat} (f g : Fld) (v : Nat) (h : b ≠ a) : fld (setFld s a f v) b g = fld s b g := by
  rw [fld, rd_setFld_ne _ _ _ h, fld]

@[simp] theorem rd_inc_same (s : State) (a : Nat) : rd (inc s a) a = rd s a + 1 := rd_wr_same _ _ _

theorem rd_inc_ne (s : State) {a b : Nat} (h : b ≠ a) : rd (inc s a) b = rd s b := rd_wr_ne _ _ h

@[simp] theorem rd_addCnt_same (s : State) (a n : Nat) : rd (addCnt s a n) a = rd s a + BitVec.ofNat 32 n := rd_wr_same _ _ _

theorem rd_addCnt_ne (s : State) {a b : Nat} (n : Nat) (h : b ≠ a) : rd (addCnt s a n) b = rd s b := rd_wr_ne _ _ h

@[simp] theorem rd_resetReg_same (s : State) (a : Nat) : rd (resetReg s a) a = regReset a := rd_wr_same _ _ _

theorem rd_wr64_ne (s : State) {a b v : Nat} (h : b ≠ a) (h4 : b ≠ a + 4) : rd (wr64 s a v) b = rd s b := by
  rw [wr64, rd_wr_ne _ _ h4, rd_wr_ne _ _ h]

/-- A register pair reads as written, modulo 2^64. -/
theorem rd64_wr64 (s : State) (a v : Nat) : rd64 (wr64 s a v) a = v % 2 ^ 64 := by
  unfold rd64 wr64
  rw [rd_wr_same, rd_wr_ne _ _ (by omega), rd_wr_same, BitVec.toNat_ofNat, BitVec.toNat_ofNat]
  omega

theorem rd64_lt (s : State) (a : Nat) : rd64 s a < 2 ^ 64 := by
  have h1 := (rd s a).isLt
  have h2 := (rd s (a + 4)).isLt
  unfold rd64
  omega

/-- A range of registers at reset: the registers in it read as at reset, the others as before. -/
theorem rd_resetRange (s : State) (lo hi a : Nat) : rd (resetRange s lo hi) a = if lo ≤ a ∧ a < hi then regReset a else rd s a := by
  unfold rd resetRange
  simp only []
  induction s.regs with
  | nil => simp [Tab.get]
  | cons e t ih =>
    obtain ⟨k, v⟩ := e
    by_cases hk : k = a
    · subst hk
      by_cases h : lo ≤ k ∧ k < hi
      · rw [if_pos h] at ih ⊢
        rw [List.filter_cons_of_neg (by simp; omega)]
        exact ih
      · rw [if_neg h, List.filter_cons_of_pos (by simp; omega)]
        simp [Tab.get]
    · rw [List.filter_cons]
      split_ifs at ih ⊢ <;> simp [Tab.get, hk, ih]

end Sys2Proof.Machine
end

