-- ==== Sys2Proof/Laws/State.lean ====
section
/-! SUPPORT. Field by field, what each update of the state leaves alone. -/

namespace Sys2Proof.Machine

variable (s : State)

@[simp] theorem wr_pending (a : Nat) (v : Word) : (wr s a v).pending = s.pending := rfl
@[simp] theorem wr_fresh (a : Nat) (v : Word) : (wr s a v).fresh = s.fresh := rfl
@[simp] theorem wr_out (a : Nat) (v : Word) : (wr s a v).out = s.out := rfl
@[simp] theorem wr_holdR (a : Nat) (v : Word) : (wr s a v).holdR = s.holdR := rfl
@[simp] theorem wr_holdW (a : Nat) (v : Word) : (wr s a v).holdW = s.holdW := rfl
@[simp] theorem wr_mem (a : Nat) (v : Word) : (wr s a v).mem = s.mem := rfl
@[simp] theorem wr_hostMem (a : Nat) (v : Word) : (wr s a v).hostMem = s.hostMem := rfl
@[simp] theorem wr_flash (a : Nat) (v : Word) : (wr s a v).flash = s.flash := rfl
@[simp] theorem wr_damaged (a : Nat) (v : Word) : (wr s a v).damaged = s.damaged := rfl
@[simp] theorem wr_tim (a : Nat) (v : Word) : (wr s a v).tim = s.tim := rfl
@[simp] theorem wr_tln (a : Nat) (v : Word) : (wr s a v).tln = s.tln := rfl
@[simp] theorem wr_hif (a : Nat) (v : Word) : (wr s a v).hif = s.hif := rfl
@[simp] theorem wr_pwr (a : Nat) (v : Word) : (wr s a v).pwr = s.pwr := rfl
@[simp] theorem wr_ras (a : Nat) (v : Word) : (wr s a v).ras = s.ras := rfl
@[simp] theorem wr_mgt (a : Nat) (v : Word) : (wr s a v).mgt = s.mgt := rfl
@[simp] theorem wr_noc (a : Nat) (v : Word) : (wr s a v).noc = s.noc := rfl
@[simp] theorem wr_lnk (a : Nat) (v : Word) : (wr s a v).lnk = s.lnk := rfl
@[simp] theorem wr_eng (a : Nat) (v : Word) : (wr s a v).eng = s.eng := rfl
@[simp] theorem wr_cp3 (a : Nat) (v : Word) : (wr s a v).cp3 = s.cp3 := rfl
@[simp] theorem wr_job (a : Nat) (v : Word) : (wr s a v).job = s.job := rfl
@[simp] theorem wr_cxu (a : Nat) (v : Word) : (wr s a v).cxu = s.cxu := rfl
@[simp] theorem wr_dma (a : Nat) (v : Word) : (wr s a v).dma = s.dma := rfl

@[simp] theorem wr64_pending (a v : Nat) : (wr64 s a v).pending = s.pending := rfl
@[simp] theorem wr64_fresh (a v : Nat) : (wr64 s a v).fresh = s.fresh := rfl
@[simp] theorem wr64_out (a v : Nat) : (wr64 s a v).out = s.out := rfl
@[simp] theorem wr64_holdR (a v : Nat) : (wr64 s a v).holdR = s.holdR := rfl
@[simp] theorem wr64_holdW (a v : Nat) : (wr64 s a v).holdW = s.holdW := rfl
@[simp] theorem wr64_mem (a v : Nat) : (wr64 s a v).mem = s.mem := rfl
@[simp] theorem wr64_hostMem (a v : Nat) : (wr64 s a v).hostMem = s.hostMem := rfl
@[simp] theorem wr64_flash (a v : Nat) : (wr64 s a v).flash = s.flash := rfl
@[simp] theorem wr64_damaged (a v : Nat) : (wr64 s a v).damaged = s.damaged := rfl
@[simp] theorem wr64_tim (a v : Nat) : (wr64 s a v).tim = s.tim := rfl
@[simp] theorem wr64_tln (a v : Nat) : (wr64 s a v).tln = s.tln := rfl
@[simp] theorem wr64_hif (a v : Nat) : (wr64 s a v).hif = s.hif := rfl
@[simp] theorem wr64_pwr (a v : Nat) : (wr64 s a v).pwr = s.pwr := rfl
@[simp] theorem wr64_ras (a v : Nat) : (wr64 s a v).ras = s.ras := rfl
@[simp] theorem wr64_mgt (a v : Nat) : (wr64 s a v).mgt = s.mgt := rfl
@[simp] theorem wr64_noc (a v : Nat) : (wr64 s a v).noc = s.noc := rfl
@[simp] theorem wr64_lnk (a v : Nat) : (wr64 s a v).lnk = s.lnk := rfl
@[simp] theorem wr64_eng (a v : Nat) : (wr64 s a v).eng = s.eng := rfl
@[simp] theorem wr64_cp3 (a v : Nat) : (wr64 s a v).cp3 = s.cp3 := rfl
@[simp] theorem wr64_job (a v : Nat) : (wr64 s a v).job = s.job := rfl
@[simp] theorem wr64_cxu (a v : Nat) : (wr64 s a v).cxu = s.cxu := rfl
@[simp] theorem wr64_dma (a v : Nat) : (wr64 s a v).dma = s.dma := rfl

@[simp] theorem setFld_pending (a : Nat) (f : Fld) (v : Nat) : (setFld s a f v).pending = s.pending := rfl
@[simp] theorem setFld_fresh (a : Nat) (f : Fld) (v : Nat) : (setFld s a f v).fresh = s.fresh := rfl
@[simp] theorem setFld_out (a : Nat) (f : Fld) (v : Nat) : (setFld s a f v).out = s.out := rfl
@[simp] theorem setFld_holdR (a : Nat) (f : Fld) (v : Nat) : (setFld s a f v).holdR = s.holdR := rfl
@[simp] theorem setFld_holdW (a : Nat) (f : Fld) (v : Nat) : (setFld s a f v).holdW = s.holdW := rfl
@[simp] theorem setFld_mem (a : Nat) (f : Fld) (v : Nat) : (setFld s a f v).mem = s.mem := rfl
@[simp] theorem setFld_hostMem (a : Nat) (f : Fld) (v : Nat) : (setFld s a f v).hostMem = s.hostMem := rfl
@[simp] theorem setFld_flash (a : Nat) (f : Fld) (v : Nat) : (setFld s a f v).flash = s.flash := rfl
@[simp] theorem setFld_damaged (a : Nat) (f : Fld) (v : Nat) : (setFld s a f v).damaged = s.damaged := rfl
@[simp] theorem setFld_tim (a : Nat) (f : Fld) (v : Nat) : (setFld s a f v).tim = s.tim := rfl
@[simp] theorem setFld_tln (a : Nat) (f : Fld) (v : Nat) : (setFld s a f v).tln = s.tln := rfl
@[simp] theorem setFld_hif (a : Nat) (f : Fld) (v : Nat) : (setFld s a f v).hif = s.hif := rfl
@[simp] theorem setFld_pwr (a : Nat) (f : Fld) (v : Nat) : (setFld s a f v).pwr = s.pwr := rfl
@[simp] theorem setFld_ras (a : Nat) (f : Fld) (v : Nat) : (setFld s a f v).ras = s.ras := rfl
@[simp] theorem setFld_mgt (a : Nat) (f : Fld) (v : Nat) : (setFld s a f v).mgt = s.mgt := rfl
@[simp] theorem setFld_noc (a : Nat) (f : Fld) (v : Nat) : (setFld s a f v).noc = s.noc := rfl
@[simp] theorem setFld_lnk (a : Nat) (f : Fld) (v : Nat) : (setFld s a f v).lnk = s.lnk := rfl
@[simp] theorem setFld_eng (a : Nat) (f : Fld) (v : Nat) : (setFld s a f v).eng = s.eng := rfl
@[simp] theorem setFld_cp3 (a : Nat) (f : Fld) (v : Nat) : (setFld s a f v).cp3 = s.cp3 := rfl
@[simp] theorem setFld_job (a : Nat) (f : Fld) (v : Nat) : (setFld s a f v).job = s.job := rfl
@[simp] theorem setFld_cxu (a : Nat) (f : Fld) (v : Nat) : (setFld s a f v).cxu = s.cxu := rfl
@[simp] theorem setFld_dma (a : Nat) (f : Fld) (v : Nat) : (setFld s a f v).dma = s.dma := rfl

@[simp] theorem inc_pending (a : Nat) : (inc s a).pending = s.pending := rfl
@[simp] theorem inc_fresh (a : Nat) : (inc s a).fresh = s.fresh := rfl
@[simp] theorem inc_out (a : Nat) : (inc s a).out = s.out := rfl
@[simp] theorem inc_holdR (a : Nat) : (inc s a).holdR = s.holdR := rfl
@[simp] theorem inc_holdW (a : Nat) : (inc s a).holdW = s.holdW := rfl
@[simp] theorem inc_mem (a : Nat) : (inc s a).mem = s.mem := rfl
@[simp] theorem inc_hostMem (a : Nat) : (inc s a).hostMem = s.hostMem := rfl
@[simp] theorem inc_flash (a : Nat) : (inc s a).flash = s.flash := rfl
@[simp] theorem inc_damaged (a : Nat) : (inc s a).damaged = s.damaged := rfl
@[simp] theorem inc_tim (a : Nat) : (inc s a).tim = s.tim := rfl
@[simp] theorem inc_tln (a : Nat) : (inc s a).tln = s.tln := rfl
@[simp] theorem inc_hif (a : Nat) : (inc s a).hif = s.hif := rfl
@[simp] theorem inc_pwr (a : Nat) : (inc s a).pwr = s.pwr := rfl
@[simp] theorem inc_ras (a : Nat) : (inc s a).ras = s.ras := rfl
@[simp] theorem inc_mgt (a : Nat) : (inc s a).mgt = s.mgt := rfl
@[simp] theorem inc_noc (a : Nat) : (inc s a).noc = s.noc := rfl
@[simp] theorem inc_lnk (a : Nat) : (inc s a).lnk = s.lnk := rfl
@[simp] theorem inc_eng (a : Nat) : (inc s a).eng = s.eng := rfl
@[simp] theorem inc_cp3 (a : Nat) : (inc s a).cp3 = s.cp3 := rfl
@[simp] theorem inc_job (a : Nat) : (inc s a).job = s.job := rfl
@[simp] theorem inc_cxu (a : Nat) : (inc s a).cxu = s.cxu := rfl
@[simp] theorem inc_dma (a : Nat) : (inc s a).dma = s.dma := rfl

@[simp] theorem addCnt_pending (a n : Nat) : (addCnt s a n).pending = s.pending := rfl
@[simp] theorem addCnt_fresh (a n : Nat) : (addCnt s a n).fresh = s.fresh := rfl
@[simp] theorem addCnt_out (a n : Nat) : (addCnt s a n).out = s.out := rfl
@[simp] theorem addCnt_holdR (a n : Nat) : (addCnt s a n).holdR = s.holdR := rfl
@[simp] theorem addCnt_holdW (a n : Nat) : (addCnt s a n).holdW = s.holdW := rfl
@[simp] theorem addCnt_mem (a n : Nat) : (addCnt s a n).mem = s.mem := rfl
@[simp] theorem addCnt_hostMem (a n : Nat) : (addCnt s a n).hostMem = s.hostMem := rfl
@[simp] theorem addCnt_flash (a n : Nat) : (addCnt s a n).flash = s.flash := rfl
@[simp] theorem addCnt_damaged (a n : Nat) : (addCnt s a n).damaged = s.damaged := rfl
@[simp] theorem addCnt_tim (a n : Nat) : (addCnt s a n).tim = s.tim := rfl
@[simp] theorem addCnt_tln (a n : Nat) : (addCnt s a n).tln = s.tln := rfl
@[simp] theorem addCnt_hif (a n : Nat) : (addCnt s a n).hif = s.hif := rfl
@[simp] theorem addCnt_pwr (a n : Nat) : (addCnt s a n).pwr = s.pwr := rfl
@[simp] theorem addCnt_ras (a n : Nat) : (addCnt s a n).ras = s.ras := rfl
@[simp] theorem addCnt_mgt (a n : Nat) : (addCnt s a n).mgt = s.mgt := rfl
@[simp] theorem addCnt_noc (a n : Nat) : (addCnt s a n).noc = s.noc := rfl
@[simp] theorem addCnt_lnk (a n : Nat) : (addCnt s a n).lnk = s.lnk := rfl
@[simp] theorem addCnt_eng (a n : Nat) : (addCnt s a n).eng = s.eng := rfl
@[simp] theorem addCnt_cp3 (a n : Nat) : (addCnt s a n).cp3 = s.cp3 := rfl
@[simp] theorem addCnt_job (a n : Nat) : (addCnt s a n).job = s.job := rfl
@[simp] theorem addCnt_cxu (a n : Nat) : (addCnt s a n).cxu = s.cxu := rfl
@[simp] theorem addCnt_dma (a n : Nat) : (addCnt s a n).dma = s.dma := rfl

@[simp] theorem evt_pending (a : Nat) (f : Fld) : (evt s a f).pending = s.pending := rfl
@[simp] theorem evt_fresh (a : Nat) (f : Fld) : (evt s a f).fresh = s.fresh := rfl
@[simp] theorem evt_out (a : Nat) (f : Fld) : (evt s a f).out = s.out := rfl
@[simp] theorem evt_holdR (a : Nat) (f : Fld) : (evt s a f).holdR = s.holdR := rfl
@[simp] theorem evt_holdW (a : Nat) (f : Fld) : (evt s a f).holdW = s.holdW := rfl
@[simp] theorem evt_mem (a : Nat) (f : Fld) : (evt s a f).mem = s.mem := rfl
@[simp] theorem evt_hostMem (a : Nat) (f : Fld) : (evt s a f).hostMem = s.hostMem := rfl
@[simp] theorem evt_flash (a : Nat) (f : Fld) : (evt s a f).flash = s.flash := rfl
@[simp] theorem evt_damaged (a : Nat) (f : Fld) : (evt s a f).damaged = s.damaged := rfl
@[simp] theorem evt_tim (a : Nat) (f : Fld) : (evt s a f).tim = s.tim := rfl
@[simp] theorem evt_tln (a : Nat) (f : Fld) : (evt s a f).tln = s.tln := rfl
@[simp] theorem evt_hif (a : Nat) (f : Fld) : (evt s a f).hif = s.hif := rfl
@[simp] theorem evt_pwr (a : Nat) (f : Fld) : (evt s a f).pwr = s.pwr := rfl
@[simp] theorem evt_ras (a : Nat) (f : Fld) : (evt s a f).ras = s.ras := rfl
@[simp] theorem evt_mgt (a : Nat) (f : Fld) : (evt s a f).mgt = s.mgt := rfl
@[simp] theorem evt_noc (a : Nat) (f : Fld) : (evt s a f).noc = s.noc := rfl
@[simp] theorem evt_lnk (a : Nat) (f : Fld) : (evt s a f).lnk = s.lnk := rfl
@[simp] theorem evt_eng (a : Nat) (f : Fld) : (evt s a f).eng = s.eng := rfl
@[simp] theorem evt_cp3 (a : Nat) (f : Fld) : (evt s a f).cp3 = s.cp3 := rfl
@[simp] theorem evt_job (a : Nat) (f : Fld) : (evt s a f).job = s.job := rfl
@[simp] theorem evt_cxu (a : Nat) (f : Fld) : (evt s a f).cxu = s.cxu := rfl
@[simp] theorem evt_dma (a : Nat) (f : Fld) : (evt s a f).dma = s.dma := rfl

@[simp] theorem resetRange_pending (a b : Nat) : (resetRange s a b).pending = s.pending := rfl
@[simp] theorem resetRange_fresh (a b : Nat) : (resetRange s a b).fresh = s.fresh := rfl
@[simp] theorem resetRange_out (a b : Nat) : (resetRange s a b).out = s.out := rfl
@[simp] theorem resetRange_holdR (a b : Nat) : (resetRange s a b).holdR = s.holdR := rfl
@[simp] theorem resetRange_holdW (a b : Nat) : (resetRange s a b).holdW = s.holdW := rfl
@[simp] theorem resetRange_mem (a b : Nat) : (resetRange s a b).mem = s.mem := rfl
@[simp] theorem resetRange_hostMem (a b : Nat) : (resetRange s a b).hostMem = s.hostMem := rfl
@[simp] theorem resetRange_flash (a b : Nat) : (resetRange s a b).flash = s.flash := rfl
@[simp] theorem resetRange_damaged (a b : Nat) : (resetRange s a b).damaged = s.damaged := rfl
@[simp] theorem resetRange_tim (a b : Nat) : (resetRange s a b).tim = s.tim := rfl
@[simp] theorem resetRange_tln (a b : Nat) : (resetRange s a b).tln = s.tln := rfl
@[simp] theorem resetRange_hif (a b : Nat) : (resetRange s a b).hif = s.hif := rfl
@[simp] theorem resetRange_pwr (a b : Nat) : (resetRange s a b).pwr = s.pwr := rfl
@[simp] theorem resetRange_ras (a b : Nat) : (resetRange s a b).ras = s.ras := rfl
@[simp] theorem resetRange_mgt (a b : Nat) : (resetRange s a b).mgt = s.mgt := rfl
@[simp] theorem resetRange_noc (a b : Nat) : (resetRange s a b).noc = s.noc := rfl
@[simp] theorem resetRange_lnk (a b : Nat) : (resetRange s a b).lnk = s.lnk := rfl
@[simp] theorem resetRange_eng (a b : Nat) : (resetRange s a b).eng = s.eng := rfl
@[simp] theorem resetRange_cp3 (a b : Nat) : (resetRange s a b).cp3 = s.cp3 := rfl
@[simp] theorem resetRange_job (a b : Nat) : (resetRange s a b).job = s.job := rfl
@[simp] theorem resetRange_cxu (a b : Nat) : (resetRange s a b).cxu = s.cxu := rfl
@[simp] theorem resetRange_dma (a b : Nat) : (resetRange s a b).dma = s.dma := rfl

@[simp] theorem emit_pending (o : Out) : (emit s o).pending = s.pending := rfl
@[simp] theorem emit_fresh (o : Out) : (emit s o).fresh = s.fresh := rfl
@[simp] theorem emit_regs (o : Out) : (emit s o).regs = s.regs := rfl
@[simp] theorem emit_holdR (o : Out) : (emit s o).holdR = s.holdR := rfl
@[simp] theorem emit_holdW (o : Out) : (emit s o).holdW = s.holdW := rfl
@[simp] theorem emit_mem (o : Out) : (emit s o).mem = s.mem := rfl
@[simp] theorem emit_hostMem (o : Out) : (emit s o).hostMem = s.hostMem := rfl
@[simp] theorem emit_flash (o : Out) : (emit s o).flash = s.flash := rfl
@[simp] theorem emit_damaged (o : Out) : (emit s o).damaged = s.damaged := rfl
@[simp] theorem emit_tim (o : Out) : (emit s o).tim = s.tim := rfl
@[simp] theorem emit_tln (o : Out) : (emit s o).tln = s.tln := rfl
@[simp] theorem emit_hif (o : Out) : (emit s o).hif = s.hif := rfl
@[simp] theorem emit_pwr (o : Out) : (emit s o).pwr = s.pwr := rfl
@[simp] theorem emit_ras (o : Out) : (emit s o).ras = s.ras := rfl
@[simp] theorem emit_mgt (o : Out) : (emit s o).mgt = s.mgt := rfl
@[simp] theorem emit_noc (o : Out) : (emit s o).noc = s.noc := rfl
@[simp] theorem emit_lnk (o : Out) : (emit s o).lnk = s.lnk := rfl
@[simp] theorem emit_eng (o : Out) : (emit s o).eng = s.eng := rfl
@[simp] theorem emit_cp3 (o : Out) : (emit s o).cp3 = s.cp3 := rfl
@[simp] theorem emit_job (o : Out) : (emit s o).job = s.job := rfl
@[simp] theorem emit_cxu (o : Out) : (emit s o).cxu = s.cxu := rfl
@[simp] theorem emit_dma (o : Out) : (emit s o).dma = s.dma := rfl

@[simp] theorem setEng_pending (e : Nat) (x : EngS) : (setEng s e x).pending = s.pending := rfl
@[simp] theorem setEng_fresh (e : Nat) (x : EngS) : (setEng s e x).fresh = s.fresh := rfl
@[simp] theorem setEng_out (e : Nat) (x : EngS) : (setEng s e x).out = s.out := rfl
@[simp] theorem setEng_regs (e : Nat) (x : EngS) : (setEng s e x).regs = s.regs := rfl
@[simp] theorem setEng_holdR (e : Nat) (x : EngS) : (setEng s e x).holdR = s.holdR := rfl
@[simp] theorem setEng_holdW (e : Nat) (x : EngS) : (setEng s e x).holdW = s.holdW := rfl
@[simp] theorem setEng_mem (e : Nat) (x : EngS) : (setEng s e x).mem = s.mem := rfl
@[simp] theorem setEng_hostMem (e : Nat) (x : EngS) : (setEng s e x).hostMem = s.hostMem := rfl
@[simp] theorem setEng_flash (e : Nat) (x : EngS) : (setEng s e x).flash = s.flash := rfl
@[simp] theorem setEng_damaged (e : Nat) (x : EngS) : (setEng s e x).damaged = s.damaged := rfl
@[simp] theorem setEng_tim (e : Nat) (x : EngS) : (setEng s e x).tim = s.tim := rfl
@[simp] theorem setEng_tln (e : Nat) (x : EngS) : (setEng s e x).tln = s.tln := rfl
@[simp] theorem setEng_hif (e : Nat) (x : EngS) : (setEng s e x).hif = s.hif := rfl
@[simp] theorem setEng_pwr (e : Nat) (x : EngS) : (setEng s e x).pwr = s.pwr := rfl
@[simp] theorem setEng_ras (e : Nat) (x : EngS) : (setEng s e x).ras = s.ras := rfl
@[simp] theorem setEng_mgt (e : Nat) (x : EngS) : (setEng s e x).mgt = s.mgt := rfl
@[simp] theorem setEng_noc (e : Nat) (x : EngS) : (setEng s e x).noc = s.noc := rfl
@[simp] theorem setEng_lnk (e : Nat) (x : EngS) : (setEng s e x).lnk = s.lnk := rfl
@[simp] theorem setEng_cp3 (e : Nat) (x : EngS) : (setEng s e x).cp3 = s.cp3 := rfl
@[simp] theorem setEng_job (e : Nat) (x : EngS) : (setEng s e x).job = s.job := rfl
@[simp] theorem setEng_cxu (e : Nat) (x : EngS) : (setEng s e x).cxu = s.cxu := rfl
@[simp] theorem setEng_dma (e : Nat) (x : EngS) : (setEng s e x).dma = s.dma := rfl

@[simp] theorem storeN_pending (a : Nat) (bs : List Byte) : (storeN s a bs).pending = s.pending := rfl
@[simp] theorem storeN_fresh (a : Nat) (bs : List Byte) : (storeN s a bs).fresh = s.fresh := rfl
@[simp] theorem storeN_out (a : Nat) (bs : List Byte) : (storeN s a bs).out = s.out := rfl
@[simp] theorem storeN_regs (a : Nat) (bs : List Byte) : (storeN s a bs).regs = s.regs := rfl
@[simp] theorem storeN_holdR (a : Nat) (bs : List Byte) : (storeN s a bs).holdR = s.holdR := rfl
@[simp] theorem storeN_holdW (a : Nat) (bs : List Byte) : (storeN s a bs).holdW = s.holdW := rfl
@[simp] theorem storeN_hostMem (a : Nat) (bs : List Byte) : (storeN s a bs).hostMem = s.hostMem := rfl
@[simp] theorem storeN_flash (a : Nat) (bs : List Byte) : (storeN s a bs).flash = s.flash := rfl
@[simp] theorem storeN_tim (a : Nat) (bs : List Byte) : (storeN s a bs).tim = s.tim := rfl
@[simp] theorem storeN_tln (a : Nat) (bs : List Byte) : (storeN s a bs).tln = s.tln := rfl
@[simp] theorem storeN_hif (a : Nat) (bs : List Byte) : (storeN s a bs).hif = s.hif := rfl
@[simp] theorem storeN_pwr (a : Nat) (bs : List Byte) : (storeN s a bs).pwr = s.pwr := rfl
@[simp] theorem storeN_ras (a : Nat) (bs : List Byte) : (storeN s a bs).ras = s.ras := rfl
@[simp] theorem storeN_mgt (a : Nat) (bs : List Byte) : (storeN s a bs).mgt = s.mgt := rfl
@[simp] theorem storeN_noc (a : Nat) (bs : List Byte) : (storeN s a bs).noc = s.noc := rfl
@[simp] theorem storeN_lnk (a : Nat) (bs : List Byte) : (storeN s a bs).lnk = s.lnk := rfl
@[simp] theorem storeN_eng (a : Nat) (bs : List Byte) : (storeN s a bs).eng = s.eng := rfl
@[simp] theorem storeN_cp3 (a : Nat) (bs : List Byte) : (storeN s a bs).cp3 = s.cp3 := rfl
@[simp] theorem storeN_job (a : Nat) (bs : List Byte) : (storeN s a bs).job = s.job := rfl
@[simp] theorem storeN_cxu (a : Nat) (bs : List Byte) : (storeN s a bs).cxu = s.cxu := rfl
@[simp] theorem storeN_dma (a : Nat) (bs : List Byte) : (storeN s a bs).dma = s.dma := rfl

@[simp] theorem clearMem_pending (a b : Nat) : (clearMem s a b).pending = s.pending := rfl
@[simp] theorem clearMem_fresh (a b : Nat) : (clearMem s a b).fresh = s.fresh := rfl
@[simp] theorem clearMem_out (a b : Nat) : (clearMem s a b).out = s.out := rfl
@[simp] theorem clearMem_regs (a b : Nat) : (clearMem s a b).regs = s.regs := rfl
@[simp] theorem clearMem_holdR (a b : Nat) : (clearMem s a b).holdR = s.holdR := rfl
@[simp] theorem clearMem_holdW (a b : Nat) : (clearMem s a b).holdW = s.holdW := rfl
@[simp] theorem clearMem_hostMem (a b : Nat) : (clearMem s a b).hostMem = s.hostMem := rfl
@[simp] theorem clearMem_flash (a b : Nat) : (clearMem s a b).flash = s.flash := rfl
@[simp] theorem clearMem_tim (a b : Nat) : (clearMem s a b).tim = s.tim := rfl
@[simp] theorem clearMem_tln (a b : Nat) : (clearMem s a b).tln = s.tln := rfl
@[simp] theorem clearMem_hif (a b : Nat) : (clearMem s a b).hif = s.hif := rfl
@[simp] theorem clearMem_pwr (a b : Nat) : (clearMem s a b).pwr = s.pwr := rfl
@[simp] theorem clearMem_ras (a b : Nat) : (clearMem s a b).ras = s.ras := rfl
@[simp] theorem clearMem_mgt (a b : Nat) : (clearMem s a b).mgt = s.mgt := rfl
@[simp] theorem clearMem_noc (a b : Nat) : (clearMem s a b).noc = s.noc := rfl
@[simp] theorem clearMem_lnk (a b : Nat) : (clearMem s a b).lnk = s.lnk := rfl
@[simp] theorem clearMem_eng (a b : Nat) : (clearMem s a b).eng = s.eng := rfl
@[simp] theorem clearMem_cp3 (a b : Nat) : (clearMem s a b).cp3 = s.cp3 := rfl
@[simp] theorem clearMem_job (a b : Nat) : (clearMem s a b).job = s.job := rfl
@[simp] theorem clearMem_cxu (a b : Nat) : (clearMem s a b).cxu = s.cxu := rfl
@[simp] theorem clearMem_dma (a b : Nat) : (clearMem s a b).dma = s.dma := rfl

@[simp] theorem damage_pending (a n k : Nat) : (damage s a n k).pending = s.pending := rfl
@[simp] theorem damage_fresh (a n k : Nat) : (damage s a n k).fresh = s.fresh := rfl
@[simp] theorem damage_out (a n k : Nat) : (damage s a n k).out = s.out := rfl
@[simp] theorem damage_regs (a n k : Nat) : (damage s a n k).regs = s.regs := rfl
@[simp] theorem damage_holdR (a n k : Nat) : (damage s a n k).holdR = s.holdR := rfl
@[simp] theorem damage_holdW (a n k : Nat) : (damage s a n k).holdW = s.holdW := rfl
@[simp] theorem damage_mem (a n k : Nat) : (damage s a n k).mem = s.mem := rfl
@[simp] theorem damage_hostMem (a n k : Nat) : (damage s a n k).hostMem = s.hostMem := rfl
@[simp] theorem damage_flash (a n k : Nat) : (damage s a n k).flash = s.flash := rfl
@[simp] theorem damage_tim (a n k : Nat) : (damage s a n k).tim = s.tim := rfl
@[simp] theorem damage_tln (a n k : Nat) : (damage s a n k).tln = s.tln := rfl
@[simp] theorem damage_hif (a n k : Nat) : (damage s a n k).hif = s.hif := rfl
@[simp] theorem damage_pwr (a n k : Nat) : (damage s a n k).pwr = s.pwr := rfl
@[simp] theorem damage_ras (a n k : Nat) : (damage s a n k).ras = s.ras := rfl
@[simp] theorem damage_mgt (a n k : Nat) : (damage s a n k).mgt = s.mgt := rfl
@[simp] theorem damage_noc (a n k : Nat) : (damage s a n k).noc = s.noc := rfl
@[simp] theorem damage_lnk (a n k : Nat) : (damage s a n k).lnk = s.lnk := rfl
@[simp] theorem damage_eng (a n k : Nat) : (damage s a n k).eng = s.eng := rfl
@[simp] theorem damage_cp3 (a n k : Nat) : (damage s a n k).cp3 = s.cp3 := rfl
@[simp] theorem damage_job (a n k : Nat) : (damage s a n k).job = s.job := rfl
@[simp] theorem damage_cxu (a n k : Nat) : (damage s a n k).cxu = s.cxu := rfl
@[simp] theorem damage_dma (a n k : Nat) : (damage s a n k).dma = s.dma := rfl

@[simp] theorem hostStore_pending (a : Nat) (bs : List Byte) : (hostStore s a bs).pending = s.pending := rfl
@[simp] theorem hostStore_fresh (a : Nat) (bs : List Byte) : (hostStore s a bs).fresh = s.fresh := rfl
@[simp] theorem hostStore_out (a : Nat) (bs : List Byte) : (hostStore s a bs).out = s.out := rfl
@[simp] theorem hostStore_regs (a : Nat) (bs : List Byte) : (hostStore s a bs).regs = s.regs := rfl
@[simp] theorem hostStore_holdR (a : Nat) (bs : List Byte) : (hostStore s a bs).holdR = s.holdR := rfl
@[simp] theorem hostStore_holdW (a : Nat) (bs : List Byte) : (hostStore s a bs).holdW = s.holdW := rfl
@[simp] theorem hostStore_mem (a : Nat) (bs : List Byte) : (hostStore s a bs).mem = s.mem := rfl
@[simp] theorem hostStore_flash (a : Nat) (bs : List Byte) : (hostStore s a bs).flash = s.flash := rfl
@[simp] theorem hostStore_damaged (a : Nat) (bs : List Byte) : (hostStore s a bs).damaged = s.damaged := rfl
@[simp] theorem hostStore_tim (a : Nat) (bs : List Byte) : (hostStore s a bs).tim = s.tim := rfl
@[simp] theorem hostStore_tln (a : Nat) (bs : List Byte) : (hostStore s a bs).tln = s.tln := rfl
@[simp] theorem hostStore_hif (a : Nat) (bs : List Byte) : (hostStore s a bs).hif = s.hif := rfl
@[simp] theorem hostStore_pwr (a : Nat) (bs : List Byte) : (hostStore s a bs).pwr = s.pwr := rfl
@[simp] theorem hostStore_ras (a : Nat) (bs : List Byte) : (hostStore s a bs).ras = s.ras := rfl
@[simp] theorem hostStore_mgt (a : Nat) (bs : List Byte) : (hostStore s a bs).mgt = s.mgt := rfl
@[simp] theorem hostStore_noc (a : Nat) (bs : List Byte) : (hostStore s a bs).noc = s.noc := rfl
@[simp] theorem hostStore_lnk (a : Nat) (bs : List Byte) : (hostStore s a bs).lnk = s.lnk := rfl
@[simp] theorem hostStore_eng (a : Nat) (bs : List Byte) : (hostStore s a bs).eng = s.eng := rfl
@[simp] theorem hostStore_cp3 (a : Nat) (bs : List Byte) : (hostStore s a bs).cp3 = s.cp3 := rfl
@[simp] theorem hostStore_job (a : Nat) (bs : List Byte) : (hostStore s a bs).job = s.job := rfl
@[simp] theorem hostStore_cxu (a : Nat) (bs : List Byte) : (hostStore s a bs).cxu = s.cxu := rfl
@[simp] theorem hostStore_dma (a : Nat) (bs : List Byte) : (hostStore s a bs).dma = s.dma := rfl

@[simp] theorem updCxu_pending (n : Nat) (g : CxuS → CxuS) : (updCxu s n g).pending = s.pending := rfl
@[simp] theorem updCxu_fresh (n : Nat) (g : CxuS → CxuS) : (updCxu s n g).fresh = s.fresh := rfl
@[simp] theorem updCxu_out (n : Nat) (g : CxuS → CxuS) : (updCxu s n g).out = s.out := rfl
@[simp] theorem updCxu_regs (n : Nat) (g : CxuS → CxuS) : (updCxu s n g).regs = s.regs := rfl
@[simp] theorem updCxu_holdR (n : Nat) (g : CxuS → CxuS) : (updCxu s n g).holdR = s.holdR := rfl
@[simp] theorem updCxu_holdW (n : Nat) (g : CxuS → CxuS) : (updCxu s n g).holdW = s.holdW := rfl
@[simp] theorem updCxu_mem (n : Nat) (g : CxuS → CxuS) : (updCxu s n g).mem = s.mem := rfl
@[simp] theorem updCxu_hostMem (n : Nat) (g : CxuS → CxuS) : (updCxu s n g).hostMem = s.hostMem := rfl
@[simp] theorem updCxu_flash (n : Nat) (g : CxuS → CxuS) : (updCxu s n g).flash = s.flash := rfl
@[simp] theorem updCxu_damaged (n : Nat) (g : CxuS → CxuS) : (updCxu s n g).damaged = s.damaged := rfl
@[simp] theorem updCxu_tim (n : Nat) (g : CxuS → CxuS) : (updCxu s n g).tim = s.tim := rfl
@[simp] theorem updCxu_tln (n : Nat) (g : CxuS → CxuS) : (updCxu s n g).tln = s.tln := rfl
@[simp] theorem updCxu_hif (n : Nat) (g : CxuS → CxuS) : (updCxu s n g).hif = s.hif := rfl
@[simp] theorem updCxu_pwr (n : Nat) (g : CxuS → CxuS) : (updCxu s n g).pwr = s.pwr := rfl
@[simp] theorem updCxu_ras (n : Nat) (g : CxuS → CxuS) : (updCxu s n g).ras = s.ras := rfl
@[simp] theorem updCxu_mgt (n : Nat) (g : CxuS → CxuS) : (updCxu s n g).mgt = s.mgt := rfl
@[simp] theorem updCxu_noc (n : Nat) (g : CxuS → CxuS) : (updCxu s n g).noc = s.noc := rfl
@[simp] theorem updCxu_lnk (n : Nat) (g : CxuS → CxuS) : (updCxu s n g).lnk = s.lnk := rfl
@[simp] theorem updCxu_eng (n : Nat) (g : CxuS → CxuS) : (updCxu s n g).eng = s.eng := rfl
@[simp] theorem updCxu_cp3 (n : Nat) (g : CxuS → CxuS) : (updCxu s n g).cp3 = s.cp3 := rfl
@[simp] theorem updCxu_job (n : Nat) (g : CxuS → CxuS) : (updCxu s n g).job = s.job := rfl
@[simp] theorem updCxu_dma (n : Nat) (g : CxuS → CxuS) : (updCxu s n g).dma = s.dma := rfl

@[simp] theorem updCh_pending (n : Nat) (g : ChS → ChS) : (updCh s n g).pending = s.pending := rfl
@[simp] theorem updCh_fresh (n : Nat) (g : ChS → ChS) : (updCh s n g).fresh = s.fresh := rfl
@[simp] theorem updCh_out (n : Nat) (g : ChS → ChS) : (updCh s n g).out = s.out := rfl
@[simp] theorem updCh_regs (n : Nat) (g : ChS → ChS) : (updCh s n g).regs = s.regs := rfl
@[simp] theorem updCh_holdR (n : Nat) (g : ChS → ChS) : (updCh s n g).holdR = s.holdR := rfl
@[simp] theorem updCh_holdW (n : Nat) (g : ChS → ChS) : (updCh s n g).holdW = s.holdW := rfl
@[simp] theorem updCh_mem (n : Nat) (g : ChS → ChS) : (updCh s n g).mem = s.mem := rfl
@[simp] theorem updCh_hostMem (n : Nat) (g : ChS → ChS) : (updCh s n g).hostMem = s.hostMem := rfl
@[simp] theorem updCh_flash (n : Nat) (g : ChS → ChS) : (updCh s n g).flash = s.flash := rfl
@[simp] theorem updCh_damaged (n : Nat) (g : ChS → ChS) : (updCh s n g).damaged = s.damaged := rfl
@[simp] theorem updCh_tim (n : Nat) (g : ChS → ChS) : (updCh s n g).tim = s.tim := rfl
@[simp] theorem updCh_tln (n : Nat) (g : ChS → ChS) : (updCh s n g).tln = s.tln := rfl
@[simp] theorem updCh_hif (n : Nat) (g : ChS → ChS) : (updCh s n g).hif = s.hif := rfl
@[simp] theorem updCh_pwr (n : Nat) (g : ChS → ChS) : (updCh s n g).pwr = s.pwr := rfl
@[simp] theorem updCh_ras (n : Nat) (g : ChS → ChS) : (updCh s n g).ras = s.ras := rfl
@[simp] theorem updCh_mgt (n : Nat) (g : ChS → ChS) : (updCh s n g).mgt = s.mgt := rfl
@[simp] theorem updCh_noc (n : Nat) (g : ChS → ChS) : (updCh s n g).noc = s.noc := rfl
@[simp] theorem updCh_lnk (n : Nat) (g : ChS → ChS) : (updCh s n g).lnk = s.lnk := rfl
@[simp] theorem updCh_eng (n : Nat) (g : ChS → ChS) : (updCh s n g).eng = s.eng := rfl
@[simp] theorem updCh_cp3 (n : Nat) (g : ChS → ChS) : (updCh s n g).cp3 = s.cp3 := rfl
@[simp] theorem updCh_job (n : Nat) (g : ChS → ChS) : (updCh s n g).job = s.job := rfl
@[simp] theorem updCh_cxu (n : Nat) (g : ChS → ChS) : (updCh s n g).cxu = s.cxu := rfl

@[simp] theorem setCp3U_pending (n : Nat) (x : Cp3U) : (setCp3U s n x).pending = s.pending := rfl
@[simp] theorem setCp3U_fresh (n : Nat) (x : Cp3U) : (setCp3U s n x).fresh = s.fresh := rfl
@[simp] theorem setCp3U_out (n : Nat) (x : Cp3U) : (setCp3U s n x).out = s.out := rfl
@[simp] theorem setCp3U_regs (n : Nat) (x : Cp3U) : (setCp3U s n x).regs = s.regs := rfl
@[simp] theorem setCp3U_holdR (n : Nat) (x : Cp3U) : (setCp3U s n x).holdR = s.holdR := rfl
@[simp] theorem setCp3U_holdW (n : Nat) (x : Cp3U) : (setCp3U s n x).holdW = s.holdW := rfl
@[simp] theorem setCp3U_mem (n : Nat) (x : Cp3U) : (setCp3U s n x).mem = s.mem := rfl
@[simp] theorem setCp3U_hostMem (n : Nat) (x : Cp3U) : (setCp3U s n x).hostMem = s.hostMem := rfl
@[simp] theorem setCp3U_flash (n : Nat) (x : Cp3U) : (setCp3U s n x).flash = s.flash := rfl
@[simp] theorem setCp3U_damaged (n : Nat) (x : Cp3U) : (setCp3U s n x).damaged = s.damaged := rfl
@[simp] theorem setCp3U_tim (n : Nat) (x : Cp3U) : (setCp3U s n x).tim = s.tim := rfl
@[simp] theorem setCp3U_tln (n : Nat) (x : Cp3U) : (setCp3U s n x).tln = s.tln := rfl
@[simp] theorem setCp3U_hif (n : Nat) (x : Cp3U) : (setCp3U s n x).hif = s.hif := rfl
@[simp] theorem setCp3U_pwr (n : Nat) (x : Cp3U) : (setCp3U s n x).pwr = s.pwr := rfl
@[simp] theorem setCp3U_ras (n : Nat) (x : Cp3U) : (setCp3U s n x).ras = s.ras := rfl
@[simp] theorem setCp3U_mgt (n : Nat) (x : Cp3U) : (setCp3U s n x).mgt = s.mgt := rfl
@[simp] theorem setCp3U_noc (n : Nat) (x : Cp3U) : (setCp3U s n x).noc = s.noc := rfl
@[simp] theorem setCp3U_lnk (n : Nat) (x : Cp3U) : (setCp3U s n x).lnk = s.lnk := rfl
@[simp] theorem setCp3U_eng (n : Nat) (x : Cp3U) : (setCp3U s n x).eng = s.eng := rfl
@[simp] theorem setCp3U_job (n : Nat) (x : Cp3U) : (setCp3U s n x).job = s.job := rfl
@[simp] theorem setCp3U_cxu (n : Nat) (x : Cp3U) : (setCp3U s n x).cxu = s.cxu := rfl
@[simp] theorem setCp3U_dma (n : Nat) (x : Cp3U) : (setCp3U s n x).dma = s.dma := rfl

@[simp] theorem updTl_pending (n : Nat) (g : TlS → TlS) : (updTl s n g).pending = s.pending := rfl
@[simp] theorem updTl_fresh (n : Nat) (g : TlS → TlS) : (updTl s n g).fresh = s.fresh := rfl
@[simp] theorem updTl_out (n : Nat) (g : TlS → TlS) : (updTl s n g).out = s.out := rfl
@[simp] theorem updTl_regs (n : Nat) (g : TlS → TlS) : (updTl s n g).regs = s.regs := rfl
@[simp] theorem updTl_holdR (n : Nat) (g : TlS → TlS) : (updTl s n g).holdR = s.holdR := rfl
@[simp] theorem updTl_holdW (n : Nat) (g : TlS → TlS) : (updTl s n g).holdW = s.holdW := rfl
@[simp] theorem updTl_mem (n : Nat) (g : TlS → TlS) : (updTl s n g).mem = s.mem := rfl
@[simp] theorem updTl_hostMem (n : Nat) (g : TlS → TlS) : (updTl s n g).hostMem = s.hostMem := rfl
@[simp] theorem updTl_flash (n : Nat) (g : TlS → TlS) : (updTl s n g).flash = s.flash := rfl
@[simp] theorem updTl_damaged (n : Nat) (g : TlS → TlS) : (updTl s n g).damaged = s.damaged := rfl
@[simp] theorem updTl_tim (n : Nat) (g : TlS → TlS) : (updTl s n g).tim = s.tim := rfl
@[simp] theorem updTl_hif (n : Nat) (g : TlS → TlS) : (updTl s n g).hif = s.hif := rfl
@[simp] theorem updTl_pwr (n : Nat) (g : TlS → TlS) : (updTl s n g).pwr = s.pwr := rfl
@[simp] theorem updTl_ras (n : Nat) (g : TlS → TlS) : (updTl s n g).ras = s.ras := rfl
@[simp] theorem updTl_mgt (n : Nat) (g : TlS → TlS) : (updTl s n g).mgt = s.mgt := rfl
@[simp] theorem updTl_noc (n : Nat) (g : TlS → TlS) : (updTl s n g).noc = s.noc := rfl
@[simp] theorem updTl_lnk (n : Nat) (g : TlS → TlS) : (updTl s n g).lnk = s.lnk := rfl
@[simp] theorem updTl_eng (n : Nat) (g : TlS → TlS) : (updTl s n g).eng = s.eng := rfl
@[simp] theorem updTl_cp3 (n : Nat) (g : TlS → TlS) : (updTl s n g).cp3 = s.cp3 := rfl
@[simp] theorem updTl_job (n : Nat) (g : TlS → TlS) : (updTl s n g).job = s.job := rfl
@[simp] theorem updTl_cxu (n : Nat) (g : TlS → TlS) : (updTl s n g).cxu = s.cxu := rfl
@[simp] theorem updTl_dma (n : Nat) (g : TlS → TlS) : (updTl s n g).dma = s.dma := rfl
@[simp] theorem updTl_tln_pals (n : Nat) (g : TlS → TlS) : (updTl s n g).tln.pals = s.tln.pals := rfl
@[simp] theorem updTl_tln_nextKey (n : Nat) (g : TlS → TlS) : (updTl s n g).tln.nextKey = s.tln.nextKey := rfl
@[simp] theorem updTl_tln_tasks (n : Nat) (g : TlS → TlS) : (updTl s n g).tln.tasks = s.tln.tasks := rfl
@[simp] theorem updTl_tln_bufs (n : Nat) (g : TlS → TlS) : (updTl s n g).tln.bufs = s.tln.bufs := rfl
@[simp] theorem updTl_tln_handed (n : Nat) (g : TlS → TlS) : (updTl s n g).tln.handed = s.tln.handed := rfl
@[simp] theorem updTl_tln_pcache (n : Nat) (g : TlS → TlS) : (updTl s n g).tln.pcache = s.tln.pcache := rfl

@[simp] theorem updPal_pending (n : Nat) (g : Pal → Pal) : (updPal s n g).pending = s.pending := rfl
@[simp] theorem updPal_fresh (n : Nat) (g : Pal → Pal) : (updPal s n g).fresh = s.fresh := rfl
@[simp] theorem updPal_out (n : Nat) (g : Pal → Pal) : (updPal s n g).out = s.out := rfl
@[simp] theorem updPal_regs (n : Nat) (g : Pal → Pal) : (updPal s n g).regs = s.regs := rfl
@[simp] theorem updPal_holdR (n : Nat) (g : Pal → Pal) : (updPal s n g).holdR = s.holdR := rfl
@[simp] theorem updPal_holdW (n : Nat) (g : Pal → Pal) : (updPal s n g).holdW = s.holdW := rfl
@[simp] theorem updPal_mem (n : Nat) (g : Pal → Pal) : (updPal s n g).mem = s.mem := rfl
@[simp] theorem updPal_hostMem (n : Nat) (g : Pal → Pal) : (updPal s n g).hostMem = s.hostMem := rfl
@[simp] theorem updPal_flash (n : Nat) (g : Pal → Pal) : (updPal s n g).flash = s.flash := rfl
@[simp] theorem updPal_damaged (n : Nat) (g : Pal → Pal) : (updPal s n g).damaged = s.damaged := rfl
@[simp] theorem updPal_tim (n : Nat) (g : Pal → Pal) : (updPal s n g).tim = s.tim := rfl
@[simp] theorem updPal_hif (n : Nat) (g : Pal → Pal) : (updPal s n g).hif = s.hif := rfl
@[simp] theorem updPal_pwr (n : Nat) (g : Pal → Pal) : (updPal s n g).pwr = s.pwr := rfl
@[simp] theorem updPal_ras (n : Nat) (g : Pal → Pal) : (updPal s n g).ras = s.ras := rfl
@[simp] theorem updPal_mgt (n : Nat) (g : Pal → Pal) : (updPal s n g).mgt = s.mgt := rfl
@[simp] theorem updPal_noc (n : Nat) (g : Pal → Pal) : (updPal s n g).noc = s.noc := rfl
@[simp] theorem updPal_lnk (n : Nat) (g : Pal → Pal) : (updPal s n g).lnk = s.lnk := rfl
@[simp] theorem updPal_eng (n : Nat) (g : Pal → Pal) : (updPal s n g).eng = s.eng := rfl
@[simp] theorem updPal_cp3 (n : Nat) (g : Pal → Pal) : (updPal s n g).cp3 = s.cp3 := rfl
@[simp] theorem updPal_job (n : Nat) (g : Pal → Pal) : (updPal s n g).job = s.job := rfl
@[simp] theorem updPal_cxu (n : Nat) (g : Pal → Pal) : (updPal s n g).cxu = s.cxu := rfl
@[simp] theorem updPal_dma (n : Nat) (g : Pal → Pal) : (updPal s n g).dma = s.dma := rfl
@[simp] theorem updPal_tln_tls (n : Nat) (g : Pal → Pal) : (updPal s n g).tln.tls = s.tln.tls := rfl
@[simp] theorem updPal_tln_nextKey (n : Nat) (g : Pal → Pal) : (updPal s n g).tln.nextKey = s.tln.nextKey := rfl
@[simp] theorem updPal_tln_tasks (n : Nat) (g : Pal → Pal) : (updPal s n g).tln.tasks = s.tln.tasks := rfl
@[simp] theorem updPal_tln_bufs (n : Nat) (g : Pal → Pal) : (updPal s n g).tln.bufs = s.tln.bufs := rfl
@[simp] theorem updPal_tln_handed (n : Nat) (g : Pal → Pal) : (updPal s n g).tln.handed = s.tln.handed := rfl
@[simp] theorem updPal_tln_pcache (n : Nat) (g : Pal → Pal) : (updPal s n g).tln.pcache = s.tln.pcache := rfl

@[simp] theorem updTask_pending (n : Nat) (g : Task → Task) : (updTask s n g).pending = s.pending := rfl
@[simp] theorem updTask_fresh (n : Nat) (g : Task → Task) : (updTask s n g).fresh = s.fresh := rfl
@[simp] theorem updTask_out (n : Nat) (g : Task → Task) : (updTask s n g).out = s.out := rfl
@[simp] theorem updTask_regs (n : Nat) (g : Task → Task) : (updTask s n g).regs = s.regs := rfl
@[simp] theorem updTask_holdR (n : Nat) (g : Task → Task) : (updTask s n g).holdR = s.holdR := rfl
@[simp] theorem updTask_holdW (n : Nat) (g : Task → Task) : (updTask s n g).holdW = s.holdW := rfl
@[simp] theorem updTask_mem (n : Nat) (g : Task → Task) : (updTask s n g).mem = s.mem := rfl
@[simp] theorem updTask_hostMem (n : Nat) (g : Task → Task) : (updTask s n g).hostMem = s.hostMem := rfl
@[simp] theorem updTask_flash (n : Nat) (g : Task → Task) : (updTask s n g).flash = s.flash := rfl
@[simp] theorem updTask_damaged (n : Nat) (g : Task → Task) : (updTask s n g).damaged = s.damaged := rfl
@[simp] theorem updTask_tim (n : Nat) (g : Task → Task) : (updTask s n g).tim = s.tim := rfl
@[simp] theorem updTask_hif (n : Nat) (g : Task → Task) : (updTask s n g).hif = s.hif := rfl
@[simp] theorem updTask_pwr (n : Nat) (g : Task → Task) : (updTask s n g).pwr = s.pwr := rfl
@[simp] theorem updTask_ras (n : Nat) (g : Task → Task) : (updTask s n g).ras = s.ras := rfl
@[simp] theorem updTask_mgt (n : Nat) (g : Task → Task) : (updTask s n g).mgt = s.mgt := rfl
@[simp] theorem updTask_noc (n : Nat) (g : Task → Task) : (updTask s n g).noc = s.noc := rfl
@[simp] theorem updTask_lnk (n : Nat) (g : Task → Task) : (updTask s n g).lnk = s.lnk := rfl
@[simp] theorem updTask_eng (n : Nat) (g : Task → Task) : (updTask s n g).eng = s.eng := rfl
@[simp] theorem updTask_cp3 (n : Nat) (g : Task → Task) : (updTask s n g).cp3 = s.cp3 := rfl
@[simp] theorem updTask_job (n : Nat) (g : Task → Task) : (updTask s n g).job = s.job := rfl
@[simp] theorem updTask_cxu (n : Nat) (g : Task → Task) : (updTask s n g).cxu = s.cxu := rfl
@[simp] theorem updTask_dma (n : Nat) (g : Task → Task) : (updTask s n g).dma = s.dma := rfl
@[simp] theorem updTask_tln_tls (n : Nat) (g : Task → Task) : (updTask s n g).tln.tls = s.tln.tls := rfl
@[simp] theorem updTask_tln_pals (n : Nat) (g : Task → Task) : (updTask s n g).tln.pals = s.tln.pals := rfl
@[simp] theorem updTask_tln_nextKey (n : Nat) (g : Task → Task) : (updTask s n g).tln.nextKey = s.tln.nextKey := rfl
@[simp] theorem updTask_tln_bufs (n : Nat) (g : Task → Task) : (updTask s n g).tln.bufs = s.tln.bufs := rfl
@[simp] theorem updTask_tln_handed (n : Nat) (g : Task → Task) : (updTask s n g).tln.handed = s.tln.handed := rfl
@[simp] theorem updTask_tln_pcache (n : Nat) (g : Task → Task) : (updTask s n g).tln.pcache = s.tln.pcache := rfl

@[simp] theorem updBuf_pending (n : Nat) (g : BufS → BufS) : (updBuf s n g).pending = s.pending := rfl
@[simp] theorem updBuf_fresh (n : Nat) (g : BufS → BufS) : (updBuf s n g).fresh = s.fresh := rfl
@[simp] theorem updBuf_out (n : Nat) (g : BufS → BufS) : (updBuf s n g).out = s.out := rfl
@[simp] theorem updBuf_regs (n : Nat) (g : BufS → BufS) : (updBuf s n g).regs = s.regs := rfl
@[simp] theorem updBuf_holdR (n : Nat) (g : BufS → BufS) : (updBuf s n g).holdR = s.holdR := rfl
@[simp] theorem updBuf_holdW (n : Nat) (g : BufS → BufS) : (updBuf s n g).holdW = s.holdW := rfl
@[simp] theorem updBuf_mem (n : Nat) (g : BufS → BufS) : (updBuf s n g).mem = s.mem := rfl
@[simp] theorem updBuf_hostMem (n : Nat) (g : BufS → BufS) : (updBuf s n g).hostMem = s.hostMem := rfl
@[simp] theorem updBuf_flash (n : Nat) (g : BufS → BufS) : (updBuf s n g).flash = s.flash := rfl
@[simp] theorem updBuf_damaged (n : Nat) (g : BufS → BufS) : (updBuf s n g).damaged = s.damaged := rfl
@[simp] theorem updBuf_tim (n : Nat) (g : BufS → BufS) : (updBuf s n g).tim = s.tim := rfl
@[simp] theorem updBuf_hif (n : Nat) (g : BufS → BufS) : (updBuf s n g).hif = s.hif := rfl
@[simp] theorem updBuf_pwr (n : Nat) (g : BufS → BufS) : (updBuf s n g).pwr = s.pwr := rfl
@[simp] theorem updBuf_ras (n : Nat) (g : BufS → BufS) : (updBuf s n g).ras = s.ras := rfl
@[simp] theorem updBuf_mgt (n : Nat) (g : BufS → BufS) : (updBuf s n g).mgt = s.mgt := rfl
@[simp] theorem updBuf_noc (n : Nat) (g : BufS → BufS) : (updBuf s n g).noc = s.noc := rfl
@[simp] theorem updBuf_lnk (n : Nat) (g : BufS → BufS) : (updBuf s n g).lnk = s.lnk := rfl
@[simp] theorem updBuf_eng (n : Nat) (g : BufS → BufS) : (updBuf s n g).eng = s.eng := rfl
@[simp] theorem updBuf_cp3 (n : Nat) (g : BufS → BufS) : (updBuf s n g).cp3 = s.cp3 := rfl
@[simp] theorem updBuf_job (n : Nat) (g : BufS → BufS) : (updBuf s n g).job = s.job := rfl
@[simp] theorem updBuf_cxu (n : Nat) (g : BufS → BufS) : (updBuf s n g).cxu = s.cxu := rfl
@[simp] theorem updBuf_dma (n : Nat) (g : BufS → BufS) : (updBuf s n g).dma = s.dma := rfl
@[simp] theorem updBuf_tln_tls (n : Nat) (g : BufS → BufS) : (updBuf s n g).tln.tls = s.tln.tls := rfl
@[simp] theorem updBuf_tln_pals (n : Nat) (g : BufS → BufS) : (updBuf s n g).tln.pals = s.tln.pals := rfl
@[simp] theorem updBuf_tln_nextKey (n : Nat) (g : BufS → BufS) : (updBuf s n g).tln.nextKey = s.tln.nextKey := rfl
@[simp] theorem updBuf_tln_tasks (n : Nat) (g : BufS → BufS) : (updBuf s n g).tln.tasks = s.tln.tasks := rfl
@[simp] theorem updBuf_tln_handed (n : Nat) (g : BufS → BufS) : (updBuf s n g).tln.handed = s.tln.handed := rfl
@[simp] theorem updBuf_tln_pcache (n : Nat) (g : BufS → BufS) : (updBuf s n g).tln.pcache = s.tln.pcache := rfl

@[simp] theorem setPcache_pending (n : Nat) (l : List (Nat × Nat × Nat)) : (setPcache s n l).pending = s.pending := rfl
@[simp] theorem setPcache_fresh (n : Nat) (l : List (Nat × Nat × Nat)) : (setPcache s n l).fresh = s.fresh := rfl
@[simp] theorem setPcache_out (n : Nat) (l : List (Nat × Nat × Nat)) : (setPcache s n l).out = s.out := rfl
@[simp] theorem setPcache_regs (n : Nat) (l : List (Nat × Nat × Nat)) : (setPcache s n l).regs = s.regs := rfl
@[simp] theorem setPcache_holdR (n : Nat) (l : List (Nat × Nat × Nat)) : (setPcache s n l).holdR = s.holdR := rfl
@[simp] theorem setPcache_holdW (n : Nat) (l : List (Nat × Nat × Nat)) : (setPcache s n l).holdW = s.holdW := rfl
@[simp] theorem setPcache_mem (n : Nat) (l : List (Nat × Nat × Nat)) : (setPcache s n l).mem = s.mem := rfl
@[simp] theorem setPcache_hostMem (n : Nat) (l : List (Nat × Nat × Nat)) : (setPcache s n l).hostMem = s.hostMem := rfl
@[simp] theorem setPcache_flash (n : Nat) (l : List (Nat × Nat × Nat)) : (setPcache s n l).flash = s.flash := rfl
@[simp] theorem setPcache_damaged (n : Nat) (l : List (Nat × Nat × Nat)) : (setPcache s n l).damaged = s.damaged := rfl
@[simp] theorem setPcache_tim (n : Nat) (l : List (Nat × Nat × Nat)) : (setPcache s n l).tim = s.tim := rfl
@[simp] theorem setPcache_hif (n : Nat) (l : List (Nat × Nat × Nat)) : (setPcache s n l).hif = s.hif := rfl
@[simp] theorem setPcache_pwr (n : Nat) (l : List (Nat × Nat × Nat)) : (setPcache s n l).pwr = s.pwr := rfl
@[simp] theorem setPcache_ras (n : Nat) (l : List (Nat × Nat × Nat)) : (setPcache s n l).ras = s.ras := rfl
@[simp] theorem setPcache_mgt (n : Nat) (l : List (Nat × Nat × Nat)) : (setPcache s n l).mgt = s.mgt := rfl
@[simp] theorem setPcache_noc (n : Nat) (l : List (Nat × Nat × Nat)) : (setPcache s n l).noc = s.noc := rfl
@[simp] theorem setPcache_lnk (n : Nat) (l : List (Nat × Nat × Nat)) : (setPcache s n l).lnk = s.lnk := rfl
@[simp] theorem setPcache_eng (n : Nat) (l : List (Nat × Nat × Nat)) : (setPcache s n l).eng = s.eng := rfl
@[simp] theorem setPcache_cp3 (n : Nat) (l : List (Nat × Nat × Nat)) : (setPcache s n l).cp3 = s.cp3 := rfl
@[simp] theorem setPcache_job (n : Nat) (l : List (Nat × Nat × Nat)) : (setPcache s n l).job = s.job := rfl
@[simp] theorem setPcache_cxu (n : Nat) (l : List (Nat × Nat × Nat)) : (setPcache s n l).cxu = s.cxu := rfl
@[simp] theorem setPcache_dma (n : Nat) (l : List (Nat × Nat × Nat)) : (setPcache s n l).dma = s.dma := rfl
@[simp] theorem setPcache_tln_tls (n : Nat) (l : List (Nat × Nat × Nat)) : (setPcache s n l).tln.tls = s.tln.tls := rfl
@[simp] theorem setPcache_tln_pals (n : Nat) (l : List (Nat × Nat × Nat)) : (setPcache s n l).tln.pals = s.tln.pals := rfl
@[simp] theorem setPcache_tln_nextKey (n : Nat) (l : List (Nat × Nat × Nat)) : (setPcache s n l).tln.nextKey = s.tln.nextKey := rfl
@[simp] theorem setPcache_tln_tasks (n : Nat) (l : List (Nat × Nat × Nat)) : (setPcache s n l).tln.tasks = s.tln.tasks := rfl
@[simp] theorem setPcache_tln_bufs (n : Nat) (l : List (Nat × Nat × Nat)) : (setPcache s n l).tln.bufs = s.tln.bufs := rfl
@[simp] theorem setPcache_tln_handed (n : Nat) (l : List (Nat × Nat × Nat)) : (setPcache s n l).tln.handed = s.tln.handed := rfl

@[simp] theorem updLane_pending (n : Nat) (g : LaneS → LaneS) : (updLane s n g).pending = s.pending := rfl
@[simp] theorem updLane_fresh (n : Nat) (g : LaneS → LaneS) : (updLane s n g).fresh = s.fresh := rfl
@[simp] theorem updLane_out (n : Nat) (g : LaneS → LaneS) : (updLane s n g).out = s.out := rfl
@[simp] theorem updLane_regs (n : Nat) (g : LaneS → LaneS) : (updLane s n g).regs = s.regs := rfl
@[simp] theorem updLane_holdR (n : Nat) (g : LaneS → LaneS) : (updLane s n g).holdR = s.holdR := rfl
@[simp] theorem updLane_holdW (n : Nat) (g : LaneS → LaneS) : (updLane s n g).holdW = s.holdW := rfl
@[simp] theorem updLane_mem (n : Nat) (g : LaneS → LaneS) : (updLane s n g).mem = s.mem := rfl
@[simp] theorem updLane_hostMem (n : Nat) (g : LaneS → LaneS) : (updLane s n g).hostMem = s.hostMem := rfl
@[simp] theorem updLane_flash (n : Nat) (g : LaneS → LaneS) : (updLane s n g).flash = s.flash := rfl
@[simp] theorem updLane_damaged (n : Nat) (g : LaneS → LaneS) : (updLane s n g).damaged = s.damaged := rfl
@[simp] theorem updLane_tim (n : Nat) (g : LaneS → LaneS) : (updLane s n g).tim = s.tim := rfl
@[simp] theorem updLane_tln (n : Nat) (g : LaneS → LaneS) : (updLane s n g).tln = s.tln := rfl
@[simp] theorem updLane_hif (n : Nat) (g : LaneS → LaneS) : (updLane s n g).hif = s.hif := rfl
@[simp] theorem updLane_pwr (n : Nat) (g : LaneS → LaneS) : (updLane s n g).pwr = s.pwr := rfl
@[simp] theorem updLane_ras (n : Nat) (g : LaneS → LaneS) : (updLane s n g).ras = s.ras := rfl
@[simp] theorem updLane_mgt (n : Nat) (g : LaneS → LaneS) : (updLane s n g).mgt = s.mgt := rfl
@[simp] theorem updLane_noc (n : Nat) (g : LaneS → LaneS) : (updLane s n g).noc = s.noc := rfl
@[simp] theorem updLane_eng (n : Nat) (g : LaneS → LaneS) : (updLane s n g).eng = s.eng := rfl
@[simp] theorem updLane_cp3 (n : Nat) (g : LaneS → LaneS) : (updLane s n g).cp3 = s.cp3 := rfl
@[simp] theorem updLane_job (n : Nat) (g : LaneS → LaneS) : (updLane s n g).job = s.job := rfl
@[simp] theorem updLane_cxu (n : Nat) (g : LaneS → LaneS) : (updLane s n g).cxu = s.cxu := rfl
@[simp] theorem updLane_dma (n : Nat) (g : LaneS → LaneS) : (updLane s n g).dma = s.dma := rfl
@[simp] theorem updLane_lnk_bundles (n : Nat) (g : LaneS → LaneS) : (updLane s n g).lnk.bundles = s.lnk.bundles := rfl
@[simp] theorem updLane_lnk_rx (n : Nat) (g : LaneS → LaneS) : (updLane s n g).lnk.rx = s.lnk.rx := rfl
@[simp] theorem updLane_lnk_tx (n : Nat) (g : LaneS → LaneS) : (updLane s n g).lnk.tx = s.lnk.tx := rfl
@[simp] theorem updLane_lnk_reads (n : Nat) (g : LaneS → LaneS) : (updLane s n g).lnk.reads = s.lnk.reads := rfl
@[simp] theorem updLane_lnk_tdNext (n : Nat) (g : LaneS → LaneS) : (updLane s n g).lnk.tdNext = s.lnk.tdNext := rfl

@[simp] theorem updBundle_pending (n : Nat) (g : BundleS → BundleS) : (updBundle s n g).pending = s.pending := rfl
@[simp] theorem updBundle_fresh (n : Nat) (g : BundleS → BundleS) : (updBundle s n g).fresh = s.fresh := rfl
@[simp] theorem updBundle_out (n : Nat) (g : BundleS → BundleS) : (updBundle s n g).out = s.out := rfl
@[simp] theorem updBundle_regs (n : Nat) (g : BundleS → BundleS) : (updBundle s n g).regs = s.regs := rfl
@[simp] theorem updBundle_holdR (n : Nat) (g : BundleS → BundleS) : (updBundle s n g).holdR = s.holdR := rfl
@[simp] theorem updBundle_holdW (n : Nat) (g : BundleS → BundleS) : (updBundle s n g).holdW = s.holdW := rfl
@[simp] theorem updBundle_mem (n : Nat) (g : BundleS → BundleS) : (updBundle s n g).mem = s.mem := rfl
@[simp] theorem updBundle_hostMem (n : Nat) (g : BundleS → BundleS) : (updBundle s n g).hostMem = s.hostMem := rfl
@[simp] theorem updBundle_flash (n : Nat) (g : BundleS → BundleS) : (updBundle s n g).flash = s.flash := rfl
@[simp] theorem updBundle_damaged (n : Nat) (g : BundleS → BundleS) : (updBundle s n g).damaged = s.damaged := rfl
@[simp] theorem updBundle_tim (n : Nat) (g : BundleS → BundleS) : (updBundle s n g).tim = s.tim := rfl
@[simp] theorem updBundle_tln (n : Nat) (g : BundleS → BundleS) : (updBundle s n g).tln = s.tln := rfl
@[simp] theorem updBundle_hif (n : Nat) (g : BundleS → BundleS) : (updBundle s n g).hif = s.hif := rfl
@[simp] theorem updBundle_pwr (n : Nat) (g : BundleS → BundleS) : (updBundle s n g).pwr = s.pwr := rfl
@[simp] theorem updBundle_ras (n : Nat) (g : BundleS → BundleS) : (updBundle s n g).ras = s.ras := rfl
@[simp] theorem updBundle_mgt (n : Nat) (g : BundleS → BundleS) : (updBundle s n g).mgt = s.mgt := rfl
@[simp] theorem updBundle_noc (n : Nat) (g : BundleS → BundleS) : (updBundle s n g).noc = s.noc := rfl
@[simp] theorem updBundle_eng (n : Nat) (g : BundleS → BundleS) : (updBundle s n g).eng = s.eng := rfl
@[simp] theorem updBundle_cp3 (n : Nat) (g : BundleS → BundleS) : (updBundle s n g).cp3 = s.cp3 := rfl
@[simp] theorem updBundle_job (n : Nat) (g : BundleS → BundleS) : (updBundle s n g).job = s.job := rfl
@[simp] theorem updBundle_cxu (n : Nat) (g : BundleS → BundleS) : (updBundle s n g).cxu = s.cxu := rfl
@[simp] theorem updBundle_dma (n : Nat) (g : BundleS → BundleS) : (updBundle s n g).dma = s.dma := rfl
@[simp] theorem updBundle_lnk_lanes (n : Nat) (g : BundleS → BundleS) : (updBundle s n g).lnk.lanes = s.lnk.lanes := rfl
@[simp] theorem updBundle_lnk_rx (n : Nat) (g : BundleS → BundleS) : (updBundle s n g).lnk.rx = s.lnk.rx := rfl
@[simp] theorem updBundle_lnk_tx (n : Nat) (g : BundleS → BundleS) : (updBundle s n g).lnk.tx = s.lnk.tx := rfl
@[simp] theorem updBundle_lnk_reads (n : Nat) (g : BundleS → BundleS) : (updBundle s n g).lnk.reads = s.lnk.reads := rfl
@[simp] theorem updBundle_lnk_tdNext (n : Nat) (g : BundleS → BundleS) : (updBundle s n g).lnk.tdNext = s.lnk.tdNext := rfl

@[simp] theorem setRxBinds_pending (n : Nat) (b : List RxBind) : (setRxBinds s n b).pending = s.pending := rfl
@[simp] theorem setRxBinds_fresh (n : Nat) (b : List RxBind) : (setRxBinds s n b).fresh = s.fresh := rfl
@[simp] theorem setRxBinds_out (n : Nat) (b : List RxBind) : (setRxBinds s n b).out = s.out := rfl
@[simp] theorem setRxBinds_regs (n : Nat) (b : List RxBind) : (setRxBinds s n b).regs = s.regs := rfl
@[simp] theorem setRxBinds_holdR (n : Nat) (b : List RxBind) : (setRxBinds s n b).holdR = s.holdR := rfl
@[simp] theorem setRxBinds_holdW (n : Nat) (b : List RxBind) : (setRxBinds s n b).holdW = s.holdW := rfl
@[simp] theorem setRxBinds_mem (n : Nat) (b : List RxBind) : (setRxBinds s n b).mem = s.mem := rfl
@[simp] theorem setRxBinds_hostMem (n : Nat) (b : List RxBind) : (setRxBinds s n b).hostMem = s.hostMem := rfl
@[simp] theorem setRxBinds_flash (n : Nat) (b : List RxBind) : (setRxBinds s n b).flash = s.flash := rfl
@[simp] theorem setRxBinds_damaged (n : Nat) (b : List RxBind) : (setRxBinds s n b).damaged = s.damaged := rfl
@[simp] theorem setRxBinds_tim (n : Nat) (b : List RxBind) : (setRxBinds s n b).tim = s.tim := rfl
@[simp] theorem setRxBinds_tln (n : Nat) (b : List RxBind) : (setRxBinds s n b).tln = s.tln := rfl
@[simp] theorem setRxBinds_hif (n : Nat) (b : List RxBind) : (setRxBinds s n b).hif = s.hif := rfl
@[simp] theorem setRxBinds_pwr (n : Nat) (b : List RxBind) : (setRxBinds s n b).pwr = s.pwr := rfl
@[simp] theorem setRxBinds_ras (n : Nat) (b : List RxBind) : (setRxBinds s n b).ras = s.ras := rfl
@[simp] theorem setRxBinds_mgt (n : Nat) (b : List RxBind) : (setRxBinds s n b).mgt = s.mgt := rfl
@[simp] theorem setRxBinds_noc (n : Nat) (b : List RxBind) : (setRxBinds s n b).noc = s.noc := rfl
@[simp] theorem setRxBinds_eng (n : Nat) (b : List RxBind) : (setRxBinds s n b).eng = s.eng := rfl
@[simp] theorem setRxBinds_cp3 (n : Nat) (b : List RxBind) : (setRxBinds s n b).cp3 = s.cp3 := rfl
@[simp] theorem setRxBinds_job (n : Nat) (b : List RxBind) : (setRxBinds s n b).job = s.job := rfl
@[simp] theorem setRxBinds_cxu (n : Nat) (b : List RxBind) : (setRxBinds s n b).cxu = s.cxu := rfl
@[simp] theorem setRxBinds_dma (n : Nat) (b : List RxBind) : (setRxBinds s n b).dma = s.dma := rfl
@[simp] theorem setRxBinds_lnk_lanes (n : Nat) (b : List RxBind) : (setRxBinds s n b).lnk.lanes = s.lnk.lanes := rfl
@[simp] theorem setRxBinds_lnk_bundles (n : Nat) (b : List RxBind) : (setRxBinds s n b).lnk.bundles = s.lnk.bundles := rfl
@[simp] theorem setRxBinds_lnk_tx (n : Nat) (b : List RxBind) : (setRxBinds s n b).lnk.tx = s.lnk.tx := rfl
@[simp] theorem setRxBinds_lnk_reads (n : Nat) (b : List RxBind) : (setRxBinds s n b).lnk.reads = s.lnk.reads := rfl
@[simp] theorem setRxBinds_lnk_tdNext (n : Nat) (b : List RxBind) : (setRxBinds s n b).lnk.tdNext = s.lnk.tdNext := rfl

@[simp] theorem updDom_pending (n : Nat) (g : DomS → DomS) : (updDom s n g).pending = s.pending := rfl
@[simp] theorem updDom_fresh (n : Nat) (g : DomS → DomS) : (updDom s n g).fresh = s.fresh := rfl
@[simp] theorem updDom_out (n : Nat) (g : DomS → DomS) : (updDom s n g).out = s.out := rfl
@[simp] theorem updDom_regs (n : Nat) (g : DomS → DomS) : (updDom s n g).regs = s.regs := rfl
@[simp] theorem updDom_holdR (n : Nat) (g : DomS → DomS) : (updDom s n g).holdR = s.holdR := rfl
@[simp] theorem updDom_holdW (n : Nat) (g : DomS → DomS) : (updDom s n g).holdW = s.holdW := rfl
@[simp] theorem updDom_mem (n : Nat) (g : DomS → DomS) : (updDom s n g).mem = s.mem := rfl
@[simp] theorem updDom_hostMem (n : Nat) (g : DomS → DomS) : (updDom s n g).hostMem = s.hostMem := rfl
@[simp] theorem updDom_flash (n : Nat) (g : DomS → DomS) : (updDom s n g).flash = s.flash := rfl
@[simp] theorem updDom_damaged (n : Nat) (g : DomS → DomS) : (updDom s n g).damaged = s.damaged := rfl
@[simp] theorem updDom_tim (n : Nat) (g : DomS → DomS) : (updDom s n g).tim = s.tim := rfl
@[simp] theorem updDom_tln (n : Nat) (g : DomS → DomS) : (updDom s n g).tln = s.tln := rfl
@[simp] theorem updDom_hif (n : Nat) (g : DomS → DomS) : (updDom s n g).hif = s.hif := rfl
@[simp] theorem updDom_ras (n : Nat) (g : DomS → DomS) : (updDom s n g).ras = s.ras := rfl
@[simp] theorem updDom_mgt (n : Nat) (g : DomS → DomS) : (updDom s n g).mgt = s.mgt := rfl
@[simp] theorem updDom_noc (n : Nat) (g : DomS → DomS) : (updDom s n g).noc = s.noc := rfl
@[simp] theorem updDom_lnk (n : Nat) (g : DomS → DomS) : (updDom s n g).lnk = s.lnk := rfl
@[simp] theorem updDom_eng (n : Nat) (g : DomS → DomS) : (updDom s n g).eng = s.eng := rfl
@[simp] theorem updDom_cp3 (n : Nat) (g : DomS → DomS) : (updDom s n g).cp3 = s.cp3 := rfl
@[simp] theorem updDom_job (n : Nat) (g : DomS → DomS) : (updDom s n g).job = s.job := rfl
@[simp] theorem updDom_cxu (n : Nat) (g : DomS → DomS) : (updDom s n g).cxu = s.cxu := rfl
@[simp] theorem updDom_dma (n : Nat) (g : DomS → DomS) : (updDom s n g).dma = s.dma := rfl
@[simp] theorem updDom_pwr_levelTarget (n : Nat) (g : DomS → DomS) : (updDom s n g).pwr.levelTarget = s.pwr.levelTarget := rfl
@[simp] theorem updDom_pwr_heldLevel (n : Nat) (g : DomS → DomS) : (updDom s n g).pwr.heldLevel = s.pwr.heldLevel := rfl
@[simp] theorem updDom_pwr_sens (n : Nat) (g : DomS → DomS) : (updDom s n g).pwr.sens = s.pwr.sens := rfl
@[simp] theorem updDom_pwr_clocksStopped (n : Nat) (g : DomS → DomS) : (updDom s n g).pwr.clocksStopped = s.pwr.clocksStopped := rfl
@[simp] theorem updDom_pwr_resAt (n : Nat) (g : DomS → DomS) : (updDom s n g).pwr.resAt = s.pwr.resAt := rfl

@[simp] theorem updSens_pending (n : Nat) (g : SensS → SensS) : (updSens s n g).pending = s.pending := rfl
@[simp] theorem updSens_fresh (n : Nat) (g : SensS → SensS) : (updSens s n g).fresh = s.fresh := rfl
@[simp] theorem updSens_out (n : Nat) (g : SensS → SensS) : (updSens s n g).out = s.out := rfl
@[simp] theorem updSens_regs (n : Nat) (g : SensS → SensS) : (updSens s n g).regs = s.regs := rfl
@[simp] theorem updSens_holdR (n : Nat) (g : SensS → SensS) : (updSens s n g).holdR = s.holdR := rfl
@[simp] theorem updSens_holdW (n : Nat) (g : SensS → SensS) : (updSens s n g).holdW = s.holdW := rfl
@[simp] theorem updSens_mem (n : Nat) (g : SensS → SensS) : (updSens s n g).mem = s.mem := rfl
@[simp] theorem updSens_hostMem (n : Nat) (g : SensS → SensS) : (updSens s n g).hostMem = s.hostMem := rfl
@[simp] theorem updSens_flash (n : Nat) (g : SensS → SensS) : (updSens s n g).flash = s.flash := rfl
@[simp] theorem updSens_damaged (n : Nat) (g : SensS → SensS) : (updSens s n g).damaged = s.damaged := rfl
@[simp] theorem updSens_tim (n : Nat) (g : SensS → SensS) : (updSens s n g).tim = s.tim := rfl
@[simp] theorem updSens_tln (n : Nat) (g : SensS → SensS) : (updSens s n g).tln = s.tln := rfl
@[simp] theorem updSens_hif (n : Nat) (g : SensS → SensS) : (updSens s n g).hif = s.hif := rfl
@[simp] theorem updSens_ras (n : Nat) (g : SensS → SensS) : (updSens s n g).ras = s.ras := rfl
@[simp] theorem updSens_mgt (n : Nat) (g : SensS → SensS) : (updSens s n g).mgt = s.mgt := rfl
@[simp] theorem updSens_noc (n : Nat) (g : SensS → SensS) : (updSens s n g).noc = s.noc := rfl
@[simp] theorem updSens_lnk (n : Nat) (g : SensS → SensS) : (updSens s n g).lnk = s.lnk := rfl
@[simp] theorem updSens_eng (n : Nat) (g : SensS → SensS) : (updSens s n g).eng = s.eng := rfl
@[simp] theorem updSens_cp3 (n : Nat) (g : SensS → SensS) : (updSens s n g).cp3 = s.cp3 := rfl
@[simp] theorem updSens_job (n : Nat) (g : SensS → SensS) : (updSens s n g).job = s.job := rfl
@[simp] theorem updSens_cxu (n : Nat) (g : SensS → SensS) : (updSens s n g).cxu = s.cxu := rfl
@[simp] theorem updSens_dma (n : Nat) (g : SensS → SensS) : (updSens s n g).dma = s.dma := rfl
@[simp] theorem updSens_pwr_doms (n : Nat) (g : SensS → SensS) : (updSens s n g).pwr.doms = s.pwr.doms := rfl
@[simp] theorem updSens_pwr_levelTarget (n : Nat) (g : SensS → SensS) : (updSens s n g).pwr.levelTarget = s.pwr.levelTarget := rfl
@[simp] theorem updSens_pwr_heldLevel (n : Nat) (g : SensS → SensS) : (updSens s n g).pwr.heldLevel = s.pwr.heldLevel := rfl
@[simp] theorem updSens_pwr_clocksStopped (n : Nat) (g : SensS → SensS) : (updSens s n g).pwr.clocksStopped = s.pwr.clocksStopped := rfl
@[simp] theorem updSens_pwr_resAt (n : Nat) (g : SensS → SensS) : (updSens s n g).pwr.resAt = s.pwr.resAt := rfl

@[simp] theorem updUnit_pending (n : Nat) (g : UnitS → UnitS) : (updUnit s n g).pending = s.pending := rfl
@[simp] theorem updUnit_fresh (n : Nat) (g : UnitS → UnitS) : (updUnit s n g).fresh = s.fresh := rfl
@[simp] theorem updUnit_out (n : Nat) (g : UnitS → UnitS) : (updUnit s n g).out = s.out := rfl
@[simp] theorem updUnit_regs (n : Nat) (g : UnitS → UnitS) : (updUnit s n g).regs = s.regs := rfl
@[simp] theorem updUnit_holdR (n : Nat) (g : UnitS → UnitS) : (updUnit s n g).holdR = s.holdR := rfl
@[simp] theorem updUnit_holdW (n : Nat) (g : UnitS → UnitS) : (updUnit s n g).holdW = s.holdW := rfl
@[simp] theorem updUnit_mem (n : Nat) (g : UnitS → UnitS) : (updUnit s n g).mem = s.mem := rfl
@[simp] theorem updUnit_hostMem (n : Nat) (g : UnitS → UnitS) : (updUnit s n g).hostMem = s.hostMem := rfl
@[simp] theorem updUnit_flash (n : Nat) (g : UnitS → UnitS) : (updUnit s n g).flash = s.flash := rfl
@[simp] theorem updUnit_damaged (n : Nat) (g : UnitS → UnitS) : (updUnit s n g).damaged = s.damaged := rfl
@[simp] theorem updUnit_tim (n : Nat) (g : UnitS → UnitS) : (updUnit s n g).tim = s.tim := rfl
@[simp] theorem updUnit_tln (n : Nat) (g : UnitS → UnitS) : (updUnit s n g).tln = s.tln := rfl
@[simp] theorem updUnit_hif (n : Nat) (g : UnitS → UnitS) : (updUnit s n g).hif = s.hif := rfl
@[simp] theorem updUnit_pwr (n : Nat) (g : UnitS → UnitS) : (updUnit s n g).pwr = s.pwr := rfl
@[simp] theorem updUnit_mgt (n : Nat) (g : UnitS → UnitS) : (updUnit s n g).mgt = s.mgt := rfl
@[simp] theorem updUnit_noc (n : Nat) (g : UnitS → UnitS) : (updUnit s n g).noc = s.noc := rfl
@[simp] theorem updUnit_lnk (n : Nat) (g : UnitS → UnitS) : (updUnit s n g).lnk = s.lnk := rfl
@[simp] theorem updUnit_eng (n : Nat) (g : UnitS → UnitS) : (updUnit s n g).eng = s.eng := rfl
@[simp] theorem updUnit_cp3 (n : Nat) (g : UnitS → UnitS) : (updUnit s n g).cp3 = s.cp3 := rfl
@[simp] theorem updUnit_job (n : Nat) (g : UnitS → UnitS) : (updUnit s n g).job = s.job := rfl
@[simp] theorem updUnit_cxu (n : Nat) (g : UnitS → UnitS) : (updUnit s n g).cxu = s.cxu := rfl
@[simp] theorem updUnit_dma (n : Nat) (g : UnitS → UnitS) : (updUnit s n g).dma = s.dma := rfl
@[simp] theorem updUnit_ras_qcap (n : Nat) (g : UnitS → UnitS) : (updUnit s n g).ras.qcap = s.ras.qcap := rfl
@[simp] theorem updUnit_ras_queue (n : Nat) (g : UnitS → UnitS) : (updUnit s n g).ras.queue = s.ras.queue := rfl
@[simp] theorem updUnit_ras_entries (n : Nat) (g : UnitS → UnitS) : (updUnit s n g).ras.entries = s.ras.entries := rfl
@[simp] theorem updUnit_ras_badEntries (n : Nat) (g : UnitS → UnitS) : (updUnit s n g).ras.badEntries = s.ras.badEntries := rfl
@[simp] theorem updUnit_ras_dropSince (n : Nat) (g : UnitS → UnitS) : (updUnit s n g).ras.dropSince = s.ras.dropSince := rfl
@[simp] theorem updUnit_ras_rdcap (n : Nat) (g : UnitS → UnitS) : (updUnit s n g).ras.rdcap = s.ras.rdcap := rfl
@[simp] theorem updUnit_ras_dumpCause (n : Nat) (g : UnitS → UnitS) : (updUnit s n g).ras.dumpCause = s.ras.dumpCause := rfl
@[simp] theorem updUnit_ras_dumpStamp (n : Nat) (g : UnitS → UnitS) : (updUnit s n g).ras.dumpStamp = s.ras.dumpStamp := rfl

@[simp] theorem setFence_pending (n : Nat) (x : FenceS) : (setFence s n x).pending = s.pending := rfl
@[simp] theorem setFence_fresh (n : Nat) (x : FenceS) : (setFence s n x).fresh = s.fresh := rfl
@[simp] theorem setFence_out (n : Nat) (x : FenceS) : (setFence s n x).out = s.out := rfl
@[simp] theorem setFence_regs (n : Nat) (x : FenceS) : (setFence s n x).regs = s.regs := rfl
@[simp] theorem setFence_holdR (n : Nat) (x : FenceS) : (setFence s n x).holdR = s.holdR := rfl
@[simp] theorem setFence_holdW (n : Nat) (x : FenceS) : (setFence s n x).holdW = s.holdW := rfl
@[simp] theorem setFence_mem (n : Nat) (x : FenceS) : (setFence s n x).mem = s.mem := rfl
@[simp] theorem setFence_hostMem (n : Nat) (x : FenceS) : (setFence s n x).hostMem = s.hostMem := rfl
@[simp] theorem setFence_flash (n : Nat) (x : FenceS) : (setFence s n x).flash = s.flash := rfl
@[simp] theorem setFence_damaged (n : Nat) (x : FenceS) : (setFence s n x).damaged = s.damaged := rfl
@[simp] theorem setFence_tim (n : Nat) (x : FenceS) : (setFence s n x).tim = s.tim := rfl
@[simp] theorem setFence_tln (n : Nat) (x : FenceS) : (setFence s n x).tln = s.tln := rfl
@[simp] theorem setFence_hif (n : Nat) (x : FenceS) : (setFence s n x).hif = s.hif := rfl
@[simp] theorem setFence_pwr (n : Nat) (x : FenceS) : (setFence s n x).pwr = s.pwr := rfl
@[simp] theorem setFence_ras (n : Nat) (x : FenceS) : (setFence s n x).ras = s.ras := rfl
@[simp] theorem setFence_mgt (n : Nat) (x : FenceS) : (setFence s n x).mgt = s.mgt := rfl
@[simp] theorem setFence_lnk (n : Nat) (x : FenceS) : (setFence s n x).lnk = s.lnk := rfl
@[simp] theorem setFence_eng (n : Nat) (x : FenceS) : (setFence s n x).eng = s.eng := rfl
@[simp] theorem setFence_cp3 (n : Nat) (x : FenceS) : (setFence s n x).cp3 = s.cp3 := rfl
@[simp] theorem setFence_job (n : Nat) (x : FenceS) : (setFence s n x).job = s.job := rfl
@[simp] theorem setFence_cxu (n : Nat) (x : FenceS) : (setFence s n x).cxu = s.cxu := rfl
@[simp] theorem setFence_dma (n : Nat) (x : FenceS) : (setFence s n x).dma = s.dma := rfl
@[simp] theorem setFence_noc_routes (n : Nat) (x : FenceS) : (setFence s n x).noc.routes = s.noc.routes := rfl
@[simp] theorem setFence_noc_heldReq (n : Nat) (x : FenceS) : (setFence s n x).noc.heldReq = s.noc.heldReq := rfl
@[simp] theorem setFence_noc_late (n : Nat) (x : FenceS) : (setFence s n x).noc.late = s.noc.late := rfl
@[simp] theorem setFence_noc_lines (n : Nat) (x : FenceS) : (setFence s n x).noc.lines = s.noc.lines := rfl
@[simp] theorem setFence_noc_hdrErrs (n : Nat) (x : FenceS) : (setFence s n x).noc.hdrErrs = s.noc.hdrErrs := rfl
@[simp] theorem setFence_noc_probing (n : Nat) (x : FenceS) : (setFence s n x).noc.probing = s.noc.probing := rfl
@[simp] theorem setFence_noc_dropping (n : Nat) (x : FenceS) : (setFence s n x).noc.dropping = s.noc.dropping := rfl
@[simp] theorem setFence_noc_held (n : Nat) (x : FenceS) : (setFence s n x).noc.held = s.noc.held := rfl
@[simp] theorem setFence_noc_coh (n : Nat) (x : FenceS) : (setFence s n x).noc.coh = s.noc.coh := rfl

@[simp] theorem setLine_pending (c a : Nat) (x : LineS) : (setLine s c a x).pending = s.pending := rfl
@[simp] theorem setLine_fresh (c a : Nat) (x : LineS) : (setLine s c a x).fresh = s.fresh := rfl
@[simp] theorem setLine_out (c a : Nat) (x : LineS) : (setLine s c a x).out = s.out := rfl
@[simp] theorem setLine_regs (c a : Nat) (x : LineS) : (setLine s c a x).regs = s.regs := rfl
@[simp] theorem setLine_holdR (c a : Nat) (x : LineS) : (setLine s c a x).holdR = s.holdR := rfl
@[simp] theorem setLine_holdW (c a : Nat) (x : LineS) : (setLine s c a x).holdW = s.holdW := rfl
@[simp] theorem setLine_mem (c a : Nat) (x : LineS) : (setLine s c a x).mem = s.mem := rfl
@[simp] theorem setLine_hostMem (c a : Nat) (x : LineS) : (setLine s c a x).hostMem = s.hostMem := rfl
@[simp] theorem setLine_flash (c a : Nat) (x : LineS) : (setLine s c a x).flash = s.flash := rfl
@[simp] theorem setLine_damaged (c a : Nat) (x : LineS) : (setLine s c a x).damaged = s.damaged := rfl
@[simp] theorem setLine_tim (c a : Nat) (x : LineS) : (setLine s c a x).tim = s.tim := rfl
@[simp] theorem setLine_tln (c a : Nat) (x : LineS) : (setLine s c a x).tln = s.tln := rfl
@[simp] theorem setLine_hif (c a : Nat) (x : LineS) : (setLine s c a x).hif = s.hif := rfl
@[simp] theorem setLine_pwr (c a : Nat) (x : LineS) : (setLine s c a x).pwr = s.pwr := rfl
@[simp] theorem setLine_ras (c a : Nat) (x : LineS) : (setLine s c a x).ras = s.ras := rfl
@[simp] theorem setLine_mgt (c a : Nat) (x : LineS) : (setLine s c a x).mgt = s.mgt := rfl
@[simp] theorem setLine_lnk (c a : Nat) (x : LineS) : (setLine s c a x).lnk = s.lnk := rfl
@[simp] theorem setLine_eng (c a : Nat) (x : LineS) : (setLine s c a x).eng = s.eng := rfl
@[simp] theorem setLine_cp3 (c a : Nat) (x : LineS) : (setLine s c a x).cp3 = s.cp3 := rfl
@[simp] theorem setLine_job (c a : Nat) (x : LineS) : (setLine s c a x).job = s.job := rfl
@[simp] theorem setLine_cxu (c a : Nat) (x : LineS) : (setLine s c a x).cxu = s.cxu := rfl
@[simp] theorem setLine_dma (c a : Nat) (x : LineS) : (setLine s c a x).dma = s.dma := rfl
@[simp] theorem setLine_noc_fences (c a : Nat) (x : LineS) : (setLine s c a x).noc.fences = s.noc.fences := rfl
@[simp] theorem setLine_noc_routes (c a : Nat) (x : LineS) : (setLine s c a x).noc.routes = s.noc.routes := rfl
@[simp] theorem setLine_noc_heldReq (c a : Nat) (x : LineS) : (setLine s c a x).noc.heldReq = s.noc.heldReq := rfl
@[simp] theorem setLine_noc_late (c a : Nat) (x : LineS) : (setLine s c a x).noc.late = s.noc.late := rfl
@[simp] theorem setLine_noc_hdrErrs (c a : Nat) (x : LineS) : (setLine s c a x).noc.hdrErrs = s.noc.hdrErrs := rfl
@[simp] theorem setLine_noc_probing (c a : Nat) (x : LineS) : (setLine s c a x).noc.probing = s.noc.probing := rfl
@[simp] theorem setLine_noc_dropping (c a : Nat) (x : LineS) : (setLine s c a x).noc.dropping = s.noc.dropping := rfl
@[simp] theorem setLine_noc_held (c a : Nat) (x : LineS) : (setLine s c a x).noc.held = s.noc.held := rfl
@[simp] theorem setLine_noc_coh (c a : Nat) (x : LineS) : (setLine s c a x).noc.coh = s.noc.coh := rfl

@[simp] theorem setJob_pending (j : JobS) : (setJob s j).pending = s.pending := rfl
@[simp] theorem setJob_fresh (j : JobS) : (setJob s j).fresh = s.fresh := rfl
@[simp] theorem setJob_out (j : JobS) : (setJob s j).out = s.out := rfl
@[simp] theorem setJob_regs (j : JobS) : (setJob s j).regs = s.regs := rfl
@[simp] theorem setJob_holdR (j : JobS) : (setJob s j).holdR = s.holdR := rfl
@[simp] theorem setJob_holdW (j : JobS) : (setJob s j).holdW = s.holdW := rfl
@[simp] theorem setJob_mem (j : JobS) : (setJob s j).mem = s.mem := rfl
@[simp] theorem setJob_hostMem (j : JobS) : (setJob s j).hostMem = s.hostMem := rfl
@[simp] theorem setJob_flash (j : JobS) : (setJob s j).flash = s.flash := rfl
@[simp] theorem setJob_damaged (j : JobS) : (setJob s j).damaged = s.damaged := rfl
@[simp] theorem setJob_tim (j : JobS) : (setJob s j).tim = s.tim := rfl
@[simp] theorem setJob_tln (j : JobS) : (setJob s j).tln = s.tln := rfl
@[simp] theorem setJob_hif (j : JobS) : (setJob s j).hif = s.hif := rfl
@[simp] theorem setJob_pwr (j : JobS) : (setJob s j).pwr = s.pwr := rfl
@[simp] theorem setJob_ras (j : JobS) : (setJob s j).ras = s.ras := rfl
@[simp] theorem setJob_mgt (j : JobS) : (setJob s j).mgt = s.mgt := rfl
@[simp] theorem setJob_noc (j : JobS) : (setJob s j).noc = s.noc := rfl
@[simp] theorem setJob_lnk (j : JobS) : (setJob s j).lnk = s.lnk := rfl
@[simp] theorem setJob_eng (j : JobS) : (setJob s j).eng = s.eng := rfl
@[simp] theorem setJob_cp3 (j : JobS) : (setJob s j).cp3 = s.cp3 := rfl
@[simp] theorem setJob_cxu (j : JobS) : (setJob s j).cxu = s.cxu := rfl
@[simp] theorem setJob_dma (j : JobS) : (setJob s j).dma = s.dma := rfl
@[simp] theorem setJob_job_next (j : JobS) : (setJob s j).job.next = s.job.next := rfl

@[simp] theorem dropJob_pending (n : Nat) : (dropJob s n).pending = s.pending := rfl
@[simp] theorem dropJob_fresh (n : Nat) : (dropJob s n).fresh = s.fresh := rfl
@[simp] theorem dropJob_out (n : Nat) : (dropJob s n).out = s.out := rfl
@[simp] theorem dropJob_regs (n : Nat) : (dropJob s n).regs = s.regs := rfl
@[simp] theorem dropJob_holdR (n : Nat) : (dropJob s n).holdR = s.holdR := rfl
@[simp] theorem dropJob_holdW (n : Nat) : (dropJob s n).holdW = s.holdW := rfl
@[simp] theorem dropJob_mem (n : Nat) : (dropJob s n).mem = s.mem := rfl
@[simp] theorem dropJob_hostMem (n : Nat) : (dropJob s n).hostMem = s.hostMem := rfl
@[simp] theorem dropJob_flash (n : Nat) : (dropJob s n).flash = s.flash := rfl
@[simp] theorem dropJob_damaged (n : Nat) : (dropJob s n).damaged = s.damaged := rfl
@[simp] theorem dropJob_tim (n : Nat) : (dropJob s n).tim = s.tim := rfl
@[simp] theorem dropJob_tln (n : Nat) : (dropJob s n).tln = s.tln := rfl
@[simp] theorem dropJob_hif (n : Nat) : (dropJob s n).hif = s.hif := rfl
@[simp] theorem dropJob_pwr (n : Nat) : (dropJob s n).pwr = s.pwr := rfl
@[simp] theorem dropJob_ras (n : Nat) : (dropJob s n).ras = s.ras := rfl
@[simp] theorem dropJob_mgt (n : Nat) : (dropJob s n).mgt = s.mgt := rfl
@[simp] theorem dropJob_noc (n : Nat) : (dropJob s n).noc = s.noc := rfl
@[simp] theorem dropJob_lnk (n : Nat) : (dropJob s n).lnk = s.lnk := rfl
@[simp] theorem dropJob_eng (n : Nat) : (dropJob s n).eng = s.eng := rfl
@[simp] theorem dropJob_cp3 (n : Nat) : (dropJob s n).cp3 = s.cp3 := rfl
@[simp] theorem dropJob_cxu (n : Nat) : (dropJob s n).cxu = s.cxu := rfl
@[simp] theorem dropJob_dma (n : Nat) : (dropJob s n).dma = s.dma := rfl
@[simp] theorem dropJob_job_next (n : Nat) : (dropJob s n).job.next = s.job.next := rfl

@[simp] theorem setRaw_pending (n : Nat) : (setRaw s n).pending = s.pending := rfl
@[simp] theorem setRaw_fresh (n : Nat) : (setRaw s n).fresh = s.fresh := rfl
@[simp] theorem setRaw_out (n : Nat) : (setRaw s n).out = s.out := rfl
@[simp] theorem setRaw_regs (n : Nat) : (setRaw s n).regs = s.regs := rfl
@[simp] theorem setRaw_holdR (n : Nat) : (setRaw s n).holdR = s.holdR := rfl
@[simp] theorem setRaw_holdW (n : Nat) : (setRaw s n).holdW = s.holdW := rfl
@[simp] theorem setRaw_mem (n : Nat) : (setRaw s n).mem = s.mem := rfl
@[simp] theorem setRaw_hostMem (n : Nat) : (setRaw s n).hostMem = s.hostMem := rfl
@[simp] theorem setRaw_flash (n : Nat) : (setRaw s n).flash = s.flash := rfl
@[simp] theorem setRaw_damaged (n : Nat) : (setRaw s n).damaged = s.damaged := rfl
@[simp] theorem setRaw_tln (n : Nat) : (setRaw s n).tln = s.tln := rfl
@[simp] theorem setRaw_hif (n : Nat) : (setRaw s n).hif = s.hif := rfl
@[simp] theorem setRaw_pwr (n : Nat) : (setRaw s n).pwr = s.pwr := rfl
@[simp] theorem setRaw_ras (n : Nat) : (setRaw s n).ras = s.ras := rfl
@[simp] theorem setRaw_mgt (n : Nat) : (setRaw s n).mgt = s.mgt := rfl
@[simp] theorem setRaw_noc (n : Nat) : (setRaw s n).noc = s.noc := rfl
@[simp] theorem setRaw_lnk (n : Nat) : (setRaw s n).lnk = s.lnk := rfl
@[simp] theorem setRaw_eng (n : Nat) : (setRaw s n).eng = s.eng := rfl
@[simp] theorem setRaw_cp3 (n : Nat) : (setRaw s n).cp3 = s.cp3 := rfl
@[simp] theorem setRaw_job (n : Nat) : (setRaw s n).job = s.job := rfl
@[simp] theorem setRaw_cxu (n : Nat) : (setRaw s n).cxu = s.cxu := rfl
@[simp] theorem setRaw_dma (n : Nat) : (setRaw s n).dma = s.dma := rfl
@[simp] theorem setRaw_tim_counting (n : Nat) : (setRaw s n).tim.counting = s.tim.counting := rfl
@[simp] theorem setRaw_tim_snap (n : Nat) : (setRaw s n).tim.snap = s.tim.snap := rfl
@[simp] theorem setRaw_tim_lastPps (n : Nat) : (setRaw s n).tim.lastPps = s.tim.lastPps := rfl
@[simp] theorem setRaw_tim_ppsEnd (n : Nat) : (setRaw s n).tim.ppsEnd = s.tim.ppsEnd := rfl
@[simp] theorem setRaw_tim_trx (n : Nat) : (setRaw s n).tim.trx = s.tim.trx := rfl
@[simp] theorem setRaw_tim_ttx (n : Nat) : (setRaw s n).tim.ttx = s.tim.ttx := rfl
@[simp] theorem setRaw_tim_resp (n : Nat) : (setRaw s n).tim.resp = s.tim.resp := rfl
@[simp] theorem setRaw_tim_copies (n : Nat) : (setRaw s n).tim.copies = s.tim.copies := rfl

end Sys2Proof.Machine
end

