-- ==== Sys2Proof/Laws/Shared.lean ====
section
/-! SUPPORT. For operations that many commands share: everything each can do, said once. -/

namespace Sys2Proof.Machine

/-! ## Registers only -/

theorem onlyRegs_refl (ks : List Nat) (s : State) : OnlyRegs ks s s := ⟨rfl, fun _ _ => rfl⟩

theorem onlyRegs_trans {ks : List Nat} {s t u : State} (h1 : OnlyRegs ks s t) (h2 : OnlyRegs ks t u) : OnlyRegs ks s u := by
  refine ⟨?_, fun a ha => (h2.2 a ha).trans (h1.2 a ha)⟩
  have e1 := h1.1
  have e2 := h2.1
  rw [e1] at e2
  exact e2

theorem onlyRegs_wr (ks : List Nat) (s : State) {a : Nat} (v : Word) (h : a ∈ ks) : OnlyRegs ks s (wr s a v) :=
  ⟨rfl, fun _ hb => rd_wr_ne s v fun e => hb (e ▸ h)⟩

theorem onlyRegs_wr64 (ks : List Nat) (s : State) {a : Nat} (v : Nat) (h : a ∈ ks) (h4 : a + 4 ∈ ks) : OnlyRegs ks s (wr64 s a v) :=
  onlyRegs_trans (onlyRegs_wr ks s _ h) (onlyRegs_wr ks _ _ h4)

theorem onlyRegs_setFld (ks : List Nat) (s : State) {a : Nat} (f : Fld) (v : Nat) (h : a ∈ ks) : OnlyRegs ks s (setFld s a f v) :=
  onlyRegs_wr ks s _ h

theorem onlyRegs_inc (ks : List Nat) (s : State) {a : Nat} (h : a ∈ ks) : OnlyRegs ks s (inc s a) := onlyRegs_wr ks s _ h

theorem onlyRegs_evt (ks : List Nat) (s : State) {a : Nat} (f : Fld) (h : a ∈ ks) : OnlyRegs ks s (evt s a f) := onlyRegs_wr ks s _ h

/-- The registers that an error answer of the fabric writes (R305, R323). -/
abbrev nocErrRegs : List Nat :=
  [Reg.NOC_ERR_INFO, Reg.NOC_ERR_ADDR_LO, Reg.NOC_ERR_ADDR_LO + 4, Reg.NOC_EVT, Reg.NOC_DENIED_CNT, Reg.NOC_TIMEOUT_CNT]

theorem nocErr_only (s : State) (code f src tgt a : Nat) : OnlyRegs nocErrRegs s (nocErr s code f src tgt a) := by
  unfold nocErr
  split_ifs
  · exact onlyRegs_refl _ _
  · exact onlyRegs_trans (onlyRegs_trans (onlyRegs_wr _ _ _ (by simp)) (onlyRegs_wr64 _ _ _ (by simp) (by simp)))
      (onlyRegs_evt _ _ _ (by simp))

/-- An error answer writes its registers and nothing else. -/
theorem nocFail_only (s : State) (iss : Issuer) (a code : Nat) : OnlyRegs nocErrRegs s (nocFail s iss a code) := by
  unfold nocFail
  simp only []
  split_ifs
  · exact onlyRegs_trans (nocErr_only _ _ _ _ _ _) (onlyRegs_trans (onlyRegs_inc _ _ (by simp)) (onlyRegs_evt _ _ _ (by simp)))
  · exact onlyRegs_trans (nocErr_only _ _ _ _ _ _) (onlyRegs_trans (onlyRegs_inc _ _ (by simp)) (onlyRegs_evt _ _ _ (by simp)))
  · exact nocErr_only _ _ _ _ _ _

/-- A denied request counts in the RAS block and nothing else. -/
theorem rasDenied_only (s : State) : OnlyRegs [Reg.RAS_DENIED_CNT, Reg.RAS_EVT] s (rasDenied s) :=
  onlyRegs_trans (onlyRegs_inc _ _ (by simp)) (onlyRegs_evt _ _ _ (by simp))

/-- A dropped posted write writes the fence's registers and nothing else (R313). -/
theorem fenceDrop_only (s : State) (a : Nat) :
    OnlyRegs [Reg.NOC_FENCE_DROP, Reg.NOC_FENCE_DROP_ADDR_LO, Reg.NOC_FENCE_DROP_ADDR_LO + 4, Reg.NOC_EVT] s (fenceDrop s a) := by
  unfold fenceDrop
  simp only []
  split_ifs
  · exact onlyRegs_trans (onlyRegs_wr64 _ _ _ (by simp) (by simp))
      (onlyRegs_trans (onlyRegs_inc _ _ (by simp)) (onlyRegs_evt _ _ _ (by simp)))
  · exact onlyRegs_trans (onlyRegs_inc _ _ (by simp)) (onlyRegs_evt _ _ _ (by simp))

/-! ## The recorder's queue (R507) -/

/-- An event is dropped and counted, or joins the queue. -/
theorem sep_cases (s : State) (type unit code arg : Nat) :
    sep s type unit code arg = inc s Reg.SEP_DROP_CNT ∨
    sep s type unit code arg = { s with ras := { s.ras with queue := s.ras.queue ++ [sepMake s type unit code arg] } } ∨
    sep s type unit code arg =
      { inc s Reg.SEP_DROP_CNT with ras := { s.ras with dropSince := s.ras.dropSince + 1 } } := by
  unfold sep
  split_ifs
  · exact .inl rfl
  · exact .inr (.inl rfl)
  · exact .inr (.inr rfl)
  · exact .inr (.inl rfl)
  · exact .inr (.inr rfl)

/-- Beside SEP_DROP_CNT and the queue an event changes nothing. -/
theorem sep_frame (s : State) (type unit code arg : Nat) : ∃ r q n, sep s type unit code arg =
    { s with regs := r, ras := { s.ras with queue := q, dropSince := n } } ∧
    ∀ a, a ≠ Reg.SEP_DROP_CNT → rd (sep s type unit code arg) a = rd s a := by
  rcases sep_cases s type unit code arg with h | h | h
  · exact ⟨(inc s Reg.SEP_DROP_CNT).regs, s.ras.queue, s.ras.dropSince, h, fun a ha => by rw [h]; exact rd_inc_ne s ha⟩
  · exact ⟨s.regs, _, s.ras.dropSince, h, fun a _ => by rw [h]; rfl⟩
  · exact ⟨(inc s Reg.SEP_DROP_CNT).regs, s.ras.queue, _, h, fun a ha => by rw [h]; exact rd_inc_ne s ha⟩

@[simp] theorem sep_mem (s : State) (type unit code arg : Nat) : (sep s type unit code arg).mem = s.mem := by
  rcases sep_cases s type unit code arg with h | h | h <;> rw [h] <;> rfl

@[simp] theorem sep_tln (s : State) (type unit code arg : Nat) : (sep s type unit code arg).tln = s.tln := by
  rcases sep_cases s type unit code arg with h | h | h <;> rw [h] <;> rfl

@[simp] theorem sep_eng (s : State) (type unit code arg : Nat) : (sep s type unit code arg).eng = s.eng := by
  rcases sep_cases s type unit code arg with h | h | h <;> rw [h] <;> rfl

@[simp] theorem sep_job (s : State) (type unit code arg : Nat) : (sep s type unit code arg).job = s.job := by
  rcases sep_cases s type unit code arg with h | h | h <;> rw [h] <;> rfl

@[simp] theorem sep_noc (s : State) (type unit code arg : Nat) : (sep s type unit code arg).noc = s.noc := by
  rcases sep_cases s type unit code arg with h | h | h <;> rw [h] <;> rfl

/-! ## Power -/

/-- A domain that is not IDLE stays as it is at an arrival. -/
theorem wakeIdle_same (s : State) {n : Nat} (h : domSt s n ≠ 1) : wakeIdle s n = s := by simp [wakeIdle, h]

@[simp] theorem setDom_mem (s : State) (n st : Nat) : (setDom s n st).mem = s.mem := by simp [setDom]

@[simp] theorem wakeIdle_mem (s : State) (n : Nat) : (wakeIdle s n).mem = s.mem := by
  unfold wakeIdle
  split_ifs <;> simp

/-! ## Messages (R435) -/

/-- What a message of a function can do: nothing, set a pending bit of its own, or go out. -/
theorem message_cases (s : State) (f v : Nat) :
    msixSend s f v = s ∨
    (msixSend s f v = wr s (fnKey f (Reg.MSIX_PBA (v / 32))) (rd s (fnKey f (Reg.MSIX_PBA (v / 32))) ||| BitVec.ofNat 32 (2 ^ (v % 32)))) ∨
    (msixSend s f v = emit s (.msix f v (rd64 s (fnKey f (Reg.MSIX_ADDR_LO v))) (rd s (fnKey f (Reg.MSIX_DATA v))))) := by
  unfold msixSend
  simp only []
  split_ifs
  · exact .inl rfl
  · exact .inr (.inl rfl)
  · exact .inr (.inr rfl)
  · exact .inl rfl

/-! ## Engines -/

/-- An exception that is taken changes its engine only, and only what waits for the handler. -/
theorem takeExc_eng (s : State) (e code epc eaddr : Nat) (imp : Bool) :
    eng (takeExc s e code epc eaddr imp) e =
      { eng s e with exc := some ⟨code, imp, epc, some eaddr⟩, slotB := none, frozen := none } := by simp [takeExc]

/-- The first fault an engine finds in itself stands. -/
theorem engFault_eng (s : State) (e kind site addr : Nat) :
    eng (engFault s e kind site addr) e = if (eng s e).fault.isNone then
      { eng s e with fault := some (kind, site, addr), slotB := none, frozen := none } else eng s e := by simp [engFault]

theorem engFault_fault (s : State) (e kind site addr : Nat) (h : (eng s e).fault = none) :
    (eng (engFault s e kind site addr) e).fault = some (kind, site, addr) := by simp [engFault, h]

/-- An update of an engine leaves everything but the engines alone. -/
theorem updEng_frame (s : State) (e : Nat) (g : EngS → EngS) : updEng s e g = { s with eng := (updEng s e g).eng } := rfl

/-! ## Memory over the fabric (R305, R315) -/

/-- A read is refused with the code of its checks, or is a read of memory. -/
theorem fabRead_cases (s : State) (iss : Issuer) (a n : Nat) :
    ((memCheck s iss a n false).1 = OKAY ∧
      fabRead s iss a n = memRead (if (memCheck s iss a n false).2 then rasDenied s else s) a n) ∨
    ((memCheck s iss a n false).1 ≠ OKAY ∧ fabRead s iss a n = ((memCheck s iss a n false).1, [],
      nocFail (if (memCheck s iss a n false).2 then rasDenied s else s) iss a (memCheck s iss a n false).1)) := by
  unfold fabRead
  by_cases h : (memCheck s iss a n false).1 = OKAY
  · exact .inl ⟨h, by simp [h]⟩
  · exact .inr ⟨h, by simp [h]⟩

/-- A write is refused with the code of its checks and stores nothing, or stores its bytes. -/
theorem fabWrite_cases (s : State) (iss : Issuer) (a : Nat) (bs : List Byte) :
    ((memCheck s iss a bs.length true).1 = OKAY ∧
      fabWrite s iss a bs = (OKAY, memWrite (if (memCheck s iss a bs.length true).2 then rasDenied s else s) a bs)) ∨
    ((memCheck s iss a bs.length true).1 ≠ OKAY ∧ fabWrite s iss a bs = ((memCheck s iss a bs.length true).1,
      nocFail (if (memCheck s iss a bs.length true).2 then rasDenied s else s) iss a (memCheck s iss a bs.length true).1)) := by
  unfold fabWrite
  by_cases h : (memCheck s iss a bs.length true).1 = OKAY
  · exact .inl ⟨h, by simp [h]⟩
  · exact .inr ⟨h, by simp [h]⟩

/-- A read of memory that answers OKAY answers as many bytes as were asked for. -/
theorem memRead_length (s : State) (a n : Nat) (h : (memRead s a n).1 = OKAY) : (memRead s a n).2.1.length = n := by
  revert h
  unfold memRead
  cases target a <;> dsimp only <;> split <;> simp [PARERR, OKAY]

theorem fabRead_length (s : State) (iss : Issuer) (a n : Nat) (h : (fabRead s iss a n).1 = OKAY) :
    (fabRead s iss a n).2.1.length = n := by
  rcases fabRead_cases s iss a n with ⟨_, he⟩ | ⟨hc, he⟩
  · rw [he] at h ⊢; exact memRead_length _ _ _ h
  · rw [he] at h; exact absurd h hc

/-! ## The canonical form of memory, over the fabric -/

theorem wf_snoopOne {s : State} (c a : Nat) (inv : Bool) (h : Memory.wf s.mem = true) : Memory.wf (snoopOne s c a inv).mem = true := by
  unfold snoopOne
  dsimp only
  split_ifs
  · exact h
  all_goals first | exact wf_storeN _ _ h | exact h

theorem wf_foldl {α : Type} (f : State → α → State) (hf : ∀ s x, Memory.wf s.mem = true → Memory.wf (f s x).mem = true) (l : List α)
    (s : State) (h : Memory.wf s.mem = true) : Memory.wf (l.foldl f s).mem = true := by
  induction l generalizing s with
  | nil => exact h
  | cons x l ih => exact ih _ (hf s x h)

theorem wf_snoopAll {s : State} (a : Nat) (inv : Bool) (b : Option Nat) (h : Memory.wf s.mem = true) :
    Memory.wf (snoopAll s a inv b).mem = true := by
  unfold snoopAll
  refine wf_foldl _ ?_ _ s h
  intro s c h
  split_ifs
  · exact h
  · exact wf_snoopOne _ _ _ h

theorem wf_foldIf (c : State → Nat → Bool) (g : State → Nat → State) (hg : ∀ s x, Memory.wf s.mem = true → Memory.wf (g s x).mem = true)
    (k : Nat → Nat) (l : List Nat) (s : State) (h : Memory.wf s.mem = true) :
    Memory.wf (l.foldl (fun s i => let x := k i; if c s x then g s x else s) s).mem = true := by
  refine wf_foldl _ (fun s i h => ?_) l s h
  cases hc : c s (k i)
  · simpa [hc] using h
  · simpa [hc] using hg s (k i) h

theorem wf_coherent {s : State} (a n : Nat) (write : Bool) (h : Memory.wf s.mem = true) :
    Memory.wf (coherent s a n write).mem = true := by
  unfold coherent
  exact wf_foldIf inCoherent (fun s x => snoopAll s x write none) (fun s x h => wf_snoopAll x write none h) (fun i => (a / 64 + i) * 64) _ s h

/-- A write of memory keeps its canonical form. -/
theorem wf_memWrite {s : State} (a : Nat) (bs : List Byte) (h : Memory.wf s.mem = true) : Memory.wf (memWrite s a bs).mem = true := by
  unfold memWrite
  cases target a <;> dsimp only
  case hbm => exact wf_storeN _ _ (wf_coherent _ _ _ h)
  all_goals exact wf_storeN _ _ (by simpa using h)

/-- So does a write request of the fabric, whatever its answer. -/
theorem wf_fabWrite {s : State} (iss : Issuer) (a : Nat) (bs : List Byte) (h : Memory.wf s.mem = true) :
    Memory.wf (fabWrite s iss a bs).2.mem = true := by
  have h1 : ∀ b : Bool, (if b then rasDenied s else s).mem = s.mem := fun b => by cases b <;> rfl
  rcases fabWrite_cases s iss a bs with ⟨_, he⟩ | ⟨_, he⟩
  · rw [he]; exact wf_memWrite _ _ (by rw [h1]; exact h)
  · rw [he, (nocFail_only _ _ _ _).1]
    simpa [h1] using h

/-! ## Register accesses (R8) -/

theorem deliverLate_nil (s : State) (h : s.mgt.late = []) : deliverLate s = s := by simp [deliverLate, h]

/-- A write that nothing holds up reaches the block of its register. -/
theorem regWrite_direct {s : State} {w : Requester} {a : Nat} (v : Word) (h : direct s w a = true) (ha : a % 4 = 0) :
    ∃ d k, findReg a = some (d, k) ∧ regWrite s w .word a v = deliverLate (writePair (taken s w) w a d v) := by
  simp only [direct, Bool.and_eq_true, decide_eq_true_eq, Bool.not_eq_true', beq_iff_eq, Option.map_eq_some_iff] at h
  obtain ⟨⟨⟨⟨⟨⟨⟨⟨hr, harr⟩, hv⟩, hx⟩, hb⟩, hd⟩, hl⟩, hc⟩, ⟨d, k⟩, hf, hm⟩ := h
  refine ⟨d, k, hf, ?_⟩
  unfold regWrite
  simp only [hr, harr, Bool.not_true, Bool.false_eq_true, if_false]
  rw [if_neg (by simp [ha])]
  unfold agentWrite
  simp [hc, hv, hx, hf, hm, hb]

end Sys2Proof.Machine
end

