-- ==== Sys2Proof/Laws/Tables.lean ====
section
/-! SUPPORT. What each numbered thing of the state reads as after an update of one. -/

namespace Sys2Proof.Machine

@[simp] theorem tl_updTl_same (s : State) (n : Nat) (g : TlS → TlS) : tl (updTl s n g) n = g (tl s n) :=
  Tab.get_put_same _ _ _ _

theorem tl_updTl_ne (s : State) {n k : Nat} (g : TlS → TlS) (h : k ≠ n) : tl (updTl s n g) k = tl s k := Tab.get_put_ne _ _ _ h

@[simp] theorem task_updTask_same (s : State) (n : Nat) (g : Task → Task) : task (updTask s n g) n = g (task s n) :=
  Tab.get_put_same _ _ _ _

theorem task_updTask_ne (s : State) {n k : Nat} (g : Task → Task) (h : k ≠ n) : task (updTask s n g) k = task s k := Tab.get_put_ne _ _ _ h

@[simp] theorem buf_updBuf_same (s : State) (n : Nat) (g : BufS → BufS) : buf (updBuf s n g) n = g (buf s n) :=
  Tab.get_put_same _ _ _ _

theorem buf_updBuf_ne (s : State) {n k : Nat} (g : BufS → BufS) (h : k ≠ n) : buf (updBuf s n g) k = buf s k := Tab.get_put_ne _ _ _ h

@[simp] theorem cxu_updCxu_same (s : State) (n : Nat) (g : CxuS → CxuS) : cxu (updCxu s n g) n = g (cxu s n) :=
  Tab.get_put_same _ _ _ _

theorem cxu_updCxu_ne (s : State) {n k : Nat} (g : CxuS → CxuS) (h : k ≠ n) : cxu (updCxu s n g) k = cxu s k := Tab.get_put_ne _ _ _ h

@[simp] theorem chan_updCh_same (s : State) (n : Nat) (g : ChS → ChS) : chan (updCh s n g) n = g (chan s n) :=
  Tab.get_put_same _ _ _ _

theorem chan_updCh_ne (s : State) {n k : Nat} (g : ChS → ChS) (h : k ≠ n) : chan (updCh s n g) k = chan s k := Tab.get_put_ne _ _ _ h

@[simp] theorem lane_updLane_same (s : State) (n : Nat) (g : LaneS → LaneS) : lane (updLane s n g) n = g (lane s n) :=
  Tab.get_put_same _ _ _ _

theorem lane_updLane_ne (s : State) {n k : Nat} (g : LaneS → LaneS) (h : k ≠ n) : lane (updLane s n g) k = lane s k := Tab.get_put_ne _ _ _ h

@[simp] theorem bundle_updBundle_same (s : State) (n : Nat) (g : BundleS → BundleS) : bundle (updBundle s n g) n = g (bundle s n) :=
  Tab.get_put_same _ _ _ _

theorem bundle_updBundle_ne (s : State) {n k : Nat} (g : BundleS → BundleS) (h : k ≠ n) : bundle (updBundle s n g) k = bundle s k := Tab.get_put_ne _ _ _ h

@[simp] theorem sens_updSens_same (s : State) (n : Nat) (g : SensS → SensS) : sens (updSens s n g) n = g (sens s n) :=
  Tab.get_put_same _ _ _ _

theorem sens_updSens_ne (s : State) {n k : Nat} (g : SensS → SensS) (h : k ≠ n) : sens (updSens s n g) k = sens s k := Tab.get_put_ne _ _ _ h

@[simp] theorem unit_updUnit_same (s : State) (n : Nat) (g : UnitS → UnitS) : unit (updUnit s n g) n = g (unit s n) :=
  Tab.get_put_same _ _ _ _

theorem unit_updUnit_ne (s : State) {n k : Nat} (g : UnitS → UnitS) (h : k ≠ n) : unit (updUnit s n g) k = unit s k := Tab.get_put_ne _ _ _ h

@[simp] theorem fence_setFence_same (s : State) (n : Nat) (x : FenceS) : fence (setFence s n x) n = x := Tab.get_put_same _ _ _ _

theorem fence_setFence_ne (s : State) {n k : Nat} (x : FenceS) (h : k ≠ n) : fence (setFence s n x) k = fence s k := Tab.get_put_ne _ _ _ h

@[simp] theorem cp3U_setCp3U_same (s : State) (n : Nat) (x : Cp3U) : cp3U (setCp3U s n x) n = x := Tab.get_put_same _ _ _ _

theorem cp3U_setCp3U_ne (s : State) {n k : Nat} (x : Cp3U) (h : k ≠ n) : cp3U (setCp3U s n x) k = cp3U s k := Tab.get_put_ne _ _ _ h

@[simp] theorem rxBinds_setRxBinds_same (s : State) (n : Nat) (x : List RxBind) : rxBinds (setRxBinds s n x) n = x := Tab.get_put_same _ _ _ _

theorem rxBinds_setRxBinds_ne (s : State) {n k : Nat} (x : List RxBind) (h : k ≠ n) : rxBinds (setRxBinds s n x) k = rxBinds s k := Tab.get_put_ne _ _ _ h

@[simp] theorem line_setLine_same (s : State) (c a : Nat) (x : LineS) : line (setLine s c a x) c a = x := Tab.get_put_same _ _ _ _

theorem line_setLine_ne (s : State) {c a d b : Nat} (x : LineS) (h : lineKey d b ≠ lineKey c a) : line (setLine s c a x) d b = line s d b :=
  Tab.get_put_ne _ _ _ h

/-- A job is found as it was set. -/
theorem job_setJob (s : State) (j : JobS) (h : (job? s j.id).isSome = true) : job? (setJob s j) j.id = some j := by
  unfold job? setJob at *
  rw [List.find?_map]
  have hf : (fun x : JobS => decide (x.id = j.id)) ∘ (fun k : JobS => if k.id = j.id then j else k) = fun x => decide (x.id = j.id) := by
    funext x
    by_cases hx : x.id = j.id <;> simp [hx]
  rw [hf]
  obtain ⟨k, hk⟩ := Option.isSome_iff_exists.mp h
  have := List.find?_some hk
  simp only [hk, Option.map_some, decide_eq_true_eq] at this ⊢
  rw [if_pos this]

/-- A job that is dropped is gone. -/
theorem job_dropJob (s : State) (n : Nat) : job? (dropJob s n) n = none := by
  simp [job?, dropJob, List.find?_eq_none]

end Sys2Proof.Machine
end

