-- ==== Sys2Proof/WellFormed.lean ====
section
/-! DEFINITION. Well-formed commands: the limits on operands that the types of Syntax.lean do not make. The machine takes any command;
these say which ones the outside can send. -/

namespace Sys2Proof

/-- Does a PCIe request of `n` bytes at an offset stay inside a naturally aligned 4 KiB block? -/
def inPage (off n : Nat) : Bool := decide (off % 4096 + n ≤ 4096)

/-- A command that the outside can send: a BAR4 read has at least one byte and a BAR4 write up to the Max Payload Size, neither
crossing a 4 KiB boundary (R413); a READ_INC returns at least one word (R522); the bits of a frame fit a lane's frame with its stuff
bits (R357). -/
def wellFormed : Instr → Bool
  | .bar4Read _ _ off n => decide (1 ≤ n.val) && inPage off.toNat n
  | .bar4Write _ off bs => decide (1 ≤ bs.length ∧ bs.length ≤ 512) && inPage off.toNat bs.length
  | .spiReadInc _ bads => decide (bads ≠ [])
  | .frameReceive _ _ line => decide (line.length ≤ 2 * 16480)
  | _ => true

end Sys2Proof
end

