-- ==== Sys2Proof/Tests/Slice0.lean ====
section
/-! SUPPORT. Tests on small states: the checks of WellFormed, and for every statement with hypotheses a state and operands that meet them, with
what the command then does. -/

set_option maxRecDepth 100000
set_option exponentiation.threshold 5000
set_option Elab.async false

open Sys2Proof Sys2Proof.Machine

/-- Does a command answer a next state with a property? -/
def after (c : Instr) (s : State) (p : State → Bool) : Bool :=
  match exec c s with
  | .next t => p t
  | _ => false

/-- A state with some registers set. -/
def withRegs (s : State) (l : List (Nat × Word)) : State := l.foldl (fun s e => wr s e.1 e.2) s

/-- Sectors and strips ACT, their fences open. -/
def sAct : State :=
  (upto 20).foldl (fun s n => setFence (wr s (Reg.PWR_DOMAIN_STATE n) 0) (uDom n) {}) State.reset

/-! ## Signal engines -/

/-- A running engine: image of 4096 bytes, PC 64, G1 = 7, G2 = -3, A0 = 0x100, VL of four complex 16-bit elements, port 3 granted. -/
def xRun : EngS :=
  { st := 3, run := true, size := 0x1000, pc := 64, grant := true
    scal := (((List.replicate 64 0).set 1 7).set 2 0xFFFFFFFD).set 32 0x100
    vec := (List.replicate 32 0).set 1 0x00010002000300040005000600070008
    sr := (List.replicate 80 0).set Sr.VL 0x1404 }

/-- Engine 5 so, everything else as after reset. -/
def sE : State := setEng State.reset 5 xRun

/-- After a slot B command and a NOP in slot A. -/
def bundled (c : Instr) (s : State) (p : State → Bool) : Bool :=
  after c s fun t => after (.nop 5 false false) t p

theorem test_scalar :
    (∃ f, scalarOf (.addSub 5 true 3 1 2) = some (5, 3, f)) ∧ (∃ f, scalarOf (.mul 5 4 1 2) = some (5, 4, f)) ∧ calm sE 5 = true ∧
    isMultiply (.addSub 5 true 3 1 2) = false ∧ isMultiply (.mul 5 4 1 2) = true ∧
    after (.addSub 5 true 3 1 2) sE (fun u => decide ((eng u 5).scal.getD 3 0 = 10 ∧ (eng u 5).pc = 72)) = true ∧
    after (.mul 5 4 1 2) sE (fun u => decide ((eng u 5).scal.getD 4 0 = 0)) = true :=
  ⟨⟨_, rfl⟩, ⟨_, rfl⟩, by decide +kernel, by decide +kernel, by decide +kernel, by decide +kernel, by decide +kernel⟩

/-- R133, R134: -1 times -1 in Q1.15 saturates. R135: 7 has 28 redundant sign bits. -/
theorem test_mulq_norms :
    let s := setEng sE 5 { xRun with scal := xRun.scal.set 1 0xFFFF8000 }
    after (.mulq 5 3 1 1) s (fun u => decide ((eng u 5).drain.scal.getD 3 0 = 0x7FFF) && bitAt ((eng u 5).drain.srN Sr.SST) 0) = true ∧
    after (.norms 5 false 3 1) sE (fun u => decide ((eng u 5).drain.scal.getD 3 0 = 28)) = true := by decide +kernel

theorem test_control :
    (∃ f, controlOf (.call 5 false (-2)) = some (5, f) ∧ (f (eng sE 5)).isSome = true) ∧
    (∃ f, controlOf (.loop 5 1 false false 3 4) = some (5, f) ∧ (f (eng sE 5)).isSome = true) ∧
    after (.call 5 false (-2)) sE (fun u => decide ((eng u 5).pc = 48 ∧ (eng u 5).drain.scal.getD 31 0 = 72)) = true ∧
    after (.beqzBnezBltzBgezBgtzBlez 5 2 2 3) sE (fun u => decide ((eng u 5).pc = 88)) = true :=
  ⟨⟨_, rfl, by decide +kernel⟩, ⟨_, rfl, by decide +kernel⟩, by decide +kernel, by decide +kernel⟩

theorem test_exceptionsRaised :
    undefOf (.j 5 true 0) = some 5 ∧ undefBOf (.nop 5 true true) = some 5 ∧ bitAt (xRun.srN Sr.ESTAT) 2 = false ∧
    ((64 + 8 * (1023 : BitVec 10).toNat) % 2 ^ 15 < (64 + 8) % 2 ^ 15 ∨ (0 : BitVec 10) = 0) ∧
    after (.brk 5 false) sE (fun u => decide ((eng u 5).exc = some ⟨8, false, 64, some 0⟩)) = true ∧
    after (.trap 5 false 33) sE (fun u => decide ((eng u 5).exc = some ⟨9, false, 72, some 33⟩)) = true ∧
    after (.j 5 false 0) (setEng sE 5 { xRun with size := 64 }) (fun u => decide ((eng u 5).exc = some ⟨3, false, 64, some 0⟩)) = true := by
  decide +kernel

/-- R121: UNDEF, code 1, at address 64: the handler is at 32. R126: with EXL set the engine fails. -/
theorem test_handlerEntry :
    let x := { xRun with exc := some ⟨1, false, 64, some 0⟩, sr := xRun.sr.set Sr.ESTAT 1 }
    let h := { xRun with exc := some ⟨1, false, 64, some 0⟩, sr := xRun.sr.set Sr.ESTAT 4 }
    bitAt (x.drain.srN Sr.ESTAT) 2 = false ∧ 1 * 32 < x.drain.size ∧ bitAt (h.drain.srN Sr.ESTAT) 2 = true ∧ h.fault = none ∧
    after (.handlerEntry 5) (setEng sE 5 x) (fun u => decide ((eng u 5).pc = 32 ∧ (eng u 5).srN Sr.EPC = 64 ∧
      (eng u 5).srN Sr.ECAUSE = 1 ∧ (eng u 5).srN Sr.ESTAT = 6)) = true ∧
    after (.handlerEntry 5) (setEng sE 5 h) (fun u => decide ((eng u 5).fault = some (3, 12, 0))) = true := by decide +kernel

theorem test_interrupt :
    let x := { xRun with sr := ((xRun.sr.set Sr.ESTAT 1).set Sr.EIP 6).set Sr.EIE 6 }
    x.ready = true ∧ x.slotB = none ∧ x.early = false ∧ bitAt (x.srN Sr.ESTAT) 0 = true ∧ bitAt (x.srN Sr.EIP) 1 = true ∧
    (bitAt (x.srN Sr.EIP) 0 && bitAt (x.srN Sr.EIE) 0) = false ∧
    after (.interruptAccept 5) (setEng sE 5 x) (fun u => decide ((eng u 5).exc = some ⟨13, false, 64, some 0⟩)) = true ∧
    after (.irqTimer 5) sE (fun u => decide ((eng u 5).srN Sr.EIP = 2)) = true := by decide +kernel

/-- R140: a reserved ESIZE leaves its field of VL. -/
theorem test_special :
    srExists 0x15 = true ∧ srExists Sr.ECMP = true ∧ xRun.srN Sr.VL < 2 ^ 13 ∧
    after (.mts 5 false 8 1) sE (fun u => decide ((eng u 5).drain.srN Sr.ECMP = 7)) = true ∧
    after (.mts 5 false 21 1) (setEng sE 5 { xRun with scal := xRun.scal.set 1 0xC02 })
      (fun u => decide ((eng u 5).drain.srN Sr.VL = 0x402)) = true ∧
    after (.mfs 5 false 3 9) sE (fun u => decide ((eng u 5).drain.scal.getD 3 0 = 5)) = true := by decide +kernel

theorem test_scalarMemory :
    let s := storeN sE (emBase 5 + 0x102) [0xFE, 0xFF]
    let c := accessFor xRun 2 0 (1 : BitVec 10).toNat ((1 : BitVec 10).toInt * accBytes 2)
    memForm 2 2 3 1 = true ∧ c.aligned (accBytes 2) = true ∧ ownBytes c (accBytes 2) = true ∧ ownGood s 5 c (accBytes 2) = true ∧
    after (.ld 5 3 0 2 2 1) s (fun u => decide ((eng u 5).drain.scal.getD 3 0 = 0xFFFFFFFE ∧ (eng u 5).drain.scal.getD 32 0 = 0x102)) = true ∧
    after (.st 5 1 0 0 4 1) sE (fun u => decide (memGetN u.mem (emBase 5 + 0x104) 4 = [7, 0, 0, 0])) = true := by decide +kernel

theorem test_scalarFaults :
    let o := { xRun with scal := (xRun.scal.set 32 0x102).set 33 0x40000 }
    let c := accessFor o 0 0 0 0
    memForm 0 4 3 0 = true ∧ c.aligned 4 = false ∧ (place o 5 ((accessFor o 0 1 0 0).byte 0)).isNone = true ∧
    after (.ld 5 3 0 0 4 0) (setEng sE 5 o) (fun u => decide ((eng u 5).exc = some ⟨4, false, 64, some 0x102⟩)) = true ∧
    after (.st 5 3 1 0 4 0) (setEng sE 5 o) (fun u => decide ((eng u 5).exc = some ⟨5, false, 64, some 0x40000⟩)) = true := by decide +kernel

theorem test_vectorMemory :
    let s := storeN sE (emBase 5 + 0x100) (leBytes 16 0x100F0E0D0C0B0A090807060504030201)
    let a := accessFor xRun 0 0 0 0
    (∃ m, vloadOf (.vld 5 2 0 0 0 0) = some (5, m) ∧ m.legal = true) ∧ (∃ m, vstoreOf (.vstr 5 1 0 0 0 0) = some (5, m) ∧ m.legal = true) ∧
    ((xRun.ty 0).map fun t => (t.part, t.cx, t.n)) = some (2, true, 4) ∧ a.aligned 2 = true ∧ ownRecs ⟨2, true, 4⟩ (preg xRun 0) a 1 = true ∧
    goodRecs s 5 ⟨2, true, 4⟩ (preg xRun 0) a 1 = true ∧
    after (.vld 5 2 0 0 0 0) s (fun u => decide ((eng u 5).drain.vec.getD 2 0 = 0x100F0E0D0C0B0A090807060504030201)) = true ∧
    after (.vstr 5 1 0 0 0 0) sE (fun u => decide (loadLE u (emBase 5 + 0x100) 16 = 0x00010002000300040005000600070008)) = true :=
  ⟨⟨_, rfl, by decide +kernel⟩, ⟨_, rfl, by decide +kernel⟩, by decide +kernel, by decide +kernel, by decide +kernel, by decide +kernel, by decide +kernel, by decide +kernel⟩

theorem test_gatherScatter :
    let ty : VTy := ⟨2, false, 4⟩
    let x := { xRun with sr := xRun.sr.set Sr.VL 0x404 }
    let s := storeN (setEng sE 5 x) (emBase 5 + 0x100) (leBytes 18 0x0908070605040302010F0E0D0C0B0A090807)
    ((x.ty 0).map fun t => (t.part, t.cx, t.n)) = some (2, false, 4) ∧
    ((upto 4).all fun i => decide (gatherAddr x ty 0 1 i % 2 = 0 ∧ gatherAddr x ty 0 1 i + 2 ≤ 0x20000)) = true ∧
    ((upto 4).all fun i => !damagedIn s (emBase 5 + gatherAddr x ty 0 1 i) 2) = true ∧
    after (.vgath 5 false 2 0 1 0) s (fun u => decide ((eng u 5).drain.vec.getD 2 0 = 0x01020304050607080908)) = false ∧
    after (.vgath 5 false 2 0 1 0) s (fun u => decide ((eng u 5).drain.vec.getD 2 0 % 65536 = 0x0908)) = true ∧
    after (.vscat 5 false false 1 0 1 0) s (fun u => decide (loadLE u (emBase 5 + 0x110) 2 = 8)) = true := by decide +kernel

/-- R160: element 2 of four lies outside; the predicate of a first-faulting load keeps elements 0 and 1. -/
theorem test_elementFaults :
    let x := { xRun with scal := xRun.scal.set 32 0x27FF8, pred := xRun.pred.set 1 (BitVec.allOnes 512) }
    let s := setEng State.reset 5 x
    let a := accessFor x 0 0 0 0
    a.aligned 2 = true ∧ a.addr + 2 * 4 ≤ 0x28000 ∧ 0x28000 ≤ a.addr + 2 * 4 ∧
    after (.vld 5 2 0 0 1 0) s (fun u => decide ((eng u 5).exc = some ⟨6, false, 64, some 0x28000⟩ ∧ (eng u 5).srN Sr.VFX = 514)) = true ∧
    after (.vldFf 5 2 0 0 1 0) s (fun u => decide ((eng u 5).drain.pred.getD 1 0 = 255 ∧ (eng u 5).exc = none)) = true := by decide +kernel

theorem test_tileMemory :
    let x := { xRun with scal := xRun.scal.set 32 0x100040 }
    let s := storeN (setEng sAct 5 x) (tileBase 0 + 0x40) [1, 2, 3, 4]
    let w := { x with stores := [⟨0, 0x100040, tileBase 0 + 0x40, [9], false⟩] }
    (accessFor x 0 0 0 0).aligned 4 = true ∧ 0x100000 ≤ (accessFor x 0 0 0 0).byte 0 ∧ (accessFor x 0 0 0 0).byte 0 < 0x200000 ∧
    x.stores = [] ∧ domSt s 0 ≠ 1 ∧ damagedIn s (tileBase 0 + 0x40) 4 = false ∧
    after (.ld 5 3 0 0 4 0) s (fun t => (eng t 5).frozen.isSome && decide ((eng t 5).pc = 64) &&
      after (.engineLoadResponse 5 .delivered) t (fun u => decide ((eng u 5).drain.scal.getD 3 0 = 0x04030201))) = true ∧
    after (.st 5 1 0 0 4 0) s (fun t => decide ((eng t 5).stores.length = 1 ∧ t.mem = s.mem)) = true ∧
    after (.engineStoreResponse 5 .delivered) (setEng s 5 w) (fun u => decide (memGetN u.mem (tileBase 0 + 0x40) 2 = [9, 2])) = true := by
  decide +kernel

theorem test_storeLost :
    let x := { xRun with task := some 8192, stores := [⟨3, 0x100040, 0, [9], true⟩], base := 2 }
    x.base ≤ 3 ∧ x.fault = none ∧
    after (.engineStoreResponse 5 .requestLost) (setEng sAct 5 x) (fun u => decide ((eng u 5).fault = some (5, siteOf 0x100040, 0x100040))) = true := by
  decide +kernel

/-- R194: the sum of the halfwords of V1 with themselves. -/
theorem test_vectorOperations :
    (∃ f, partsOf (.vaddVsub 5 false 2 1 1 0 0) = some (5, f) ∧ (f xRun).isSome = true) ∧
    (∃ f, movesOf (.vzip 5 false 2 1 1 0) = some (5, f) ∧ (f xRun).isSome = true) ∧
    (∃ f, predsOf (.pwhile 5 false 1 1 2) = some (5, f) ∧ (f xRun).isSome = true) ∧
    bundled (.vaddVsub 5 false 2 1 1 0 0) sE (fun u => decide ((eng u 5).drain.vec.getD 2 0 = 0x000200040006000800 * 2 ^ 56 + 0x0A000C000E0010)) = true ∧
    bundled (.pcnt 5 false 3 0) sE (fun u => decide ((eng u 5).drain.scal.getD 3 0 = 4)) = true :=
  ⟨⟨_, rfl, by decide +kernel⟩, ⟨_, rfl, by decide +kernel⟩, ⟨_, rfl, by decide +kernel⟩, by decide +kernel, by decide +kernel⟩

theorem test_accumulators :
    let big : BitVec 2560 := 2 ^ 39 - 1
    let x := { xRun with acc := xRun.acc.set 0 big, accN := xRun.accN.set 0 big, sr := (xRun.sr.set Sr.VCTL 2).set Sr.VL 0x404 }
    (∃ f, accsOf (.vmacVmsuVmpy 5 false 0 0 1 1 0 1) = some (5, f) ∧ (f x).isSome = true ∧ ((f x).map fun o => o.vst ≠ 0) = some True) ∧
    (∃ f, accsOf (.vacclr 5 false 0) = some (5, f) ∧ (f xRun).isSome = true) ∧ bitAt (xRun.srN Sr.VCTL) 1 = false ∧
    bundled (.vacclr 5 false 0) (setEng sE 5 { xRun with acc := xRun.acc.set 0 5, accN := xRun.accN.set 0 5 })
      (fun u => decide ((eng u 5).drain.acc.getD 0 0 = 0)) = true := by
  refine ⟨⟨_, rfl, by decide +kernel, by simp; decide⟩, ⟨_, rfl, by decide +kernel⟩, by decide +kernel, by decide +kernel⟩

/-- R172: eight 9-bit fields of 1 to 8, most significant bit first. -/
theorem test_blockFloat :
    (∃ f, bfpOf (.expb 5 false 2 1 false 8) = some (5, f) ∧ (f xRun).isSome = true) ∧ (bfpTy xRun).isSome = true ∧
    bundled (.vpkm 5 false 2 1 7) sE (fun u => decide ((eng u 5).drain.vec.getD 2 0 = 0x0102030405060708)) = true ∧
    bundled (.expb 5 false 2 1 false 0) sE (fun u => decide ((eng u 5).drain.vec.getD 2 0 % 65536 = 4)) = true :=
  ⟨⟨_, rfl, by decide +kernel⟩, by decide +kernel, by decide +kernel, by decide +kernel⟩

/-- R137: 1.5 + 1 = 2.5 in single precision. -/
theorem test_floats :
    let x := { xRun with vec := ((List.replicate 32 0).set 1 0x3FC00000).set 3 0x3F800000 }
    (∃ f, floatsOf (.faddFsubFmul 5 false false 0 2 1 3) = some (5, f) ∧ (f x).isSome = true) ∧
    openFloat (.fdiv 5 false false 2 1 3) = some (5, 2) ∧ (fmtOf false).decode 0x3FC00000 ≠ .fin false 0 0 ∧
    bundled (.faddFsubFmul 5 false false 0 2 1 3) (setEng sE 5 x) (fun u => decide ((eng u 5).drain.vec.getD 2 0 = 0x40200000)) = true :=
  ⟨⟨_, rfl, by decide +kernel⟩, by decide +kernel, by decide +kernel, by decide +kernel⟩

theorem test_matrix :
    (∃ f, matrixOf (.cmident 5 false 2) = some (5, f) ∧ (f xRun).isSome = true) ∧
    (∃ f, bitUnitOf (.buseq 5 false 2 1) = some (5, f) ∧ (f xRun).isSome = true) ∧
    bundled (.cmident 5 false 2) sE (fun u => after (.coprocessorDone 5 0 false) u fun v => decide (((eng v 5).cp0.cm.getD 2 0).toNat ≠ 0)) = true :=
  ⟨⟨_, rfl, by decide +kernel⟩, ⟨_, rfl, by decide +kernel⟩, by decide +kernel⟩

theorem test_transfers :
    let s := setEng sE 5 { xRun with scal := xRun.scal.set 32 0x100 }
    let o := setEng sE 5 { xRun with scal := xRun.scal.set 32 0x101 }
    (∃ f, transfersOf (.mtc 5 false 1 1 1) = some (5, f) ∧ (f xRun).isSome = true) ∧
    0x100 % 64 = 0 ∧ 0x100 + imageSize 0 ≤ 0x10000 ∧ 0x101 % 64 ≠ 0 ∧ damagedIn s (emBase 5 + 0x100) (imageSize 1) = false ∧
    bundled (.mtc 5 false 1 1 1) s (fun u => after (.coprocessorDone 5 1 false) u fun v => decide ((eng v 5).cp1.crc = 7 ∧ (eng v 5).cp1N = none)) = true ∧
    bundled (.cpload 5 false 1 0) o (fun u => decide ((eng u 5).exc = some ⟨4, false, 64, some 0x101⟩)) = true :=
  ⟨⟨_, rfl, by decide +kernel⟩, by decide +kernel, by decide +kernel, by decide +kernel, by decide +kernel, by decide +kernel, by decide +kernel⟩

theorem test_coprocessorDone :
    after (.coprocessorDone 5 1 true) (setEng sE 5 { xRun with cp1N := some {} }) (fun u => decide ((eng u 5).fault = some (1, 10, 0))) = true := by
  decide +kernel

/-- R226: a BPSK symbol of 100 - 50j at scale 1.0. -/
theorem test_dmap :
    let x := { xRun with
      vec := (List.replicate 32 0).set 1 0xFFCE0064
      sr := xRun.sr.set Sr.VL 0x1401
      cp3 := { cfg := 0x7F01, scale := 0x100 } }
    let s := setEng sAct 5 x
    calm s 5 = true ∧ x.cp3.cfg.toNat / 256 % 128 ≠ 0 ∧ bits (x.srN Sr.VL) 10 3 = 5 ∧ x.count = 1 ∧ bitAt x.cp3.cfg.toNat 4 = false ∧
    unitSt s (uCp3 0) = 0 ∧ fenced s (uCp3 0) = false ∧
    bundled (.dmap 5 false 2 1 0) s (fun u => decide (cp3U u 0 = ⟨some 5, 5⟩)) = true ∧
    bundled (.dmap 5 false 2 1 0) (setCp3U s 0 ⟨some 6, 6⟩) (fun u => decide ((eng u 5).exc = some ⟨1, false, 64, some 0⟩)) = true ∧
    after (.cp3Free 0) (setCp3U s 0 ⟨some 6, 6⟩) (fun u => decide (cp3U u 0 = ⟨none, 6⟩)) = true := by decide +kernel

/-! ## Timelines -/

/-- Timeline 5 runs, its boundary at 0x100 has come, and its prepare point has run. -/
def sTl : State :=
  { withRegs State.reset [(Reg.TLN_CTL, 1), (Reg.TL_CTL 5, 1), (Reg.TL_NEXT_LO 5, 0x100), (Reg.TL_ADJ 5, 0xFF), (Reg.CXU_STAT 3, 1),
      (Reg.CXU_SYNC 3, 0x50), (Reg.TL_SLOTNUM 5, 7)] with
    tim := { raw := 0x200 }
    tln := { tls := [(5, { prepared := true })], pals := [{ key := 1, tl := 5, slot := 7, start := 0x100, addr := 0, param := 0, stat := 0, adv := 0, period := 0, hdr := {} }] } }

theorem test_tlBoundary :
    tlRuns sTl 5 = true ∧ reached (copyMax sTl 20 % 2 ^ 48) (tlNext sTl 5) = true ∧ (tl sTl 5).prepared = true ∧ (tl sTl 5).chosen = none ∧
    after (.tlBoundary 5) sTl (fun u => decide (rd64 u (Reg.TL_NEXT_LO 5) = 0x100 + 0x1E0000 - 1) && decide (rd u (Reg.TL_SLOTNUM 5) = 8)
      && decide (rd u (Reg.TL_EVT 5) = 16) && decide (fld u (Reg.TL_ADJ 5) F.TL_ADJ_ADJ = 0) && !(tl u 5).prepared
      && (u.tln.pals.all (·.active))) = true := by decide +kernel

theorem test_tlBoundary_cxu :
    after (.tlBoundary 5) (setFld (setFld sTl (Reg.CXU_SYNC 3) F.CXU_SYNC_TL_EN 1) (Reg.CXU_SYNC 3) F.CXU_SYNC_TL 5)
      (fun u => decide ((cxu u 3).tlSyncs = [0x100])) = true := by decide +kernel

/-- The same timeline before its prepare point; the ring at 0x4000 holds one entry for slot 7 when TL_TAIL is 1. -/
def sPrep (tail : Nat) : State :=
  let s := withRegs sTl [(Reg.TL_RING_CFG 5, 4), (Reg.TL_RING_LO 5, 0x4000), (Reg.TL_TAIL 5, BitVec.ofNat 32 tail), (Reg.TL_ADV 5, 9), (Reg.MEM_CTL, 1)]
  { storeN s 0x4000 (leBytes 32 (0x10000 + 7 * 2 ^ 192 + 2 ^ 224)) with tln := { s.tln with tls := [] } }

theorem test_tlPreparePoint_early : prepareDue sTl 5 = false ∧ after (.tlPreparePoint 5) sTl (fun u => decide (u = sTl)) = true := by decide +kernel

theorem test_tlPreparePoint_empty :
    prepareDue (sPrep 0) 5 = true ∧ noRelease (sPrep 0) = true ∧ (tl (sPrep 0) 5).chosen = none ∧ (tl (sPrep 0) 5).held = none ∧
    tlHead (sPrep 0) 5 = tlTail (sPrep 0) 5 ∧
    after (.tlPreparePoint 5) (sPrep 0) (fun u => decide (rd u (Reg.TL_EMPTY_CNT 5) = 1) && decide (rd u (Reg.TL_EVT 5) = 2)
      && decide (tl u 5 = { prepared := true, adv := 9 })) = true := by decide +kernel

theorem test_tlPreparePoint_entry :
    prepareDue (sPrep 1) 5 = true ∧ noRelease (sPrep 1) = true ∧ (tl (sPrep 1) 5).chosen = none ∧
    tlHead (sPrep 1) 5 ≠ tlTail (sPrep 1) 5 ∧
    (let s1 := updTl (sPrep 1) 5 fun t => { t with prepared := true, adv := fld (sPrep 1) (Reg.TL_ADV 5) F.TL_ADV_VALUE }
     let b := leBytes 32 (0x10000 + 7 * 2 ^ 192 + 2 ^ 224)
     fabRead s1 (tlnIssuer 0) 0x4000 32 = (OKAY, b, s1) ∧ (decodeRing b false).valid = true ∧ (decodeRing b false).slot = tlSlot (sPrep 1) 5 ∧
     after (.tlPreparePoint 5) (sPrep 1) (fun u => decide ((tl u 5).chosen = some (decodeRing b false, 7, 0x100)) && decide (tlHead u 5 = 1))
       = true) := by
  decide +kernel

/-- An entry has been chosen for timeline 5; its palette at 0x10000 has one task and one buffer, EGRESS. -/
def sBind : State :=
  let s := sPrep 1
  let s := storeN s 0x10000 (leBytes 128 (0x504C5431 + 1 * 2 ^ 32 + 1 * 2 ^ 64 + 1 * 2 ^ 96 + 1000 * 2 ^ 128 + 0x80 * 2 ^ 160 + 0xC0 * 2 ^ 192))
  let s := storeN s 0x100C0 (leBytes 32 (0x20000 + 3 * 2 ^ 48 + 64 * 2 ^ 64 + 50 * 2 ^ 160))
  let e : RingEntry := { pal := 0x10000, param := 0, stat := 0, slot := 7, valid := true, rep := false, rsv := false }
  { s with
    tln := { s.tln with tls := [(5, { prepared := true, adv := 9, chosen := some (e, 7, 0x100) })] }
    hif := { s.hif with valid := [{ handle := 0, addr := 0x10000, func := 0, releasing := false }] } }

theorem test_paletteBind_none : (tl sTl 5).chosen = none ∧ noRelease sTl = true ∧ after (.paletteBind 5) sTl (fun u => decide (u = sTl)) = true := by decide +kernel

theorem test_paletteBind_unknown :
    let s := { sBind with hif := { sBind.hif with valid := [] } }
    (tl s 5).chosen.isSome = true ∧ (s.hif.valid.any fun v => decide (v.addr = 0x10000 ∧ v.func = tlOwner s 5)) = false ∧
    after (.paletteBind 5) s (fun u => decide (rd u (Reg.TL_INVAL_CNT 5) = 1) && u.tln.pals.length = 1 && u.hif.reported.contains (5, 7)) = true := by
  decide +kernel

theorem test_paletteBind :
    let h := readHdr sBind 0x10000
    let p : Pal := { key := 0, tl := 5, slot := 7, start := 0x100, addr := 0x10000, param := 0, stat := 0, adv := 9, period := tlPeriod sBind 5, hdr := h }
    noRelease sBind = true ∧ (sBind.hif.valid.any fun v => decide (v.addr = 0x10000 ∧ v.func = tlOwner sBind 5)) = true ∧
    h.horizon ≤ 4 * tlPeriod sBind 5 ∧ (sBind.tln.pals.filter Pal.live).length = 0 ∧ h.bufs = 1 ∧ h.tasks = 1 ∧
    (bufEnt sBind p 0).kind = kEGRESS ∧ bindOk sBind (tlOwner sBind 5) p (bufEnt sBind p 0) = true ∧ (decodeRec (recBytes sBind p 0)).cls ≠ 4 ∧
    after (.paletteBind 5) sBind (fun u => decide (u.tln.pals.length = 2) && decide (u.tln.nextKey = 1)
      && decide ((u.lnk.tx.map fun d => (d.pal, d.buf, d.slot, d.t)) = [(0, 0, 7, 0x100 + 50 - 9)])) = true := by
  decide +kernel

/-- A management core writes timeline registers. -/
theorem test_tlEnable :
    let s := withRegs State.reset [(Reg.TL_START_LO 63, 0x100)]
    direct s (.mc 0) (Reg.TL_CTL 63) = true ∧ isSet s (Reg.TL_CTL 63) F.TL_CTL_EN = false ∧ rd64 s (Reg.TL_START_LO 63) < 2 ^ 48 ∧
      0 < tlPeriod s 63 ∧ direct s (.fn 0) (Reg.TL_CTL 0) = true := by decide +kernel

theorem test_tlDisable : direct sTl .spi (Reg.TL_CTL 5) = true ∧ after (.tlDisable .spi 5) sTl (fun u => decide (rd u (Reg.TL_CTL 5) = 0)) = true := by decide +kernel

theorem test_tlnEnable :
    let s := withRegs sTl [(Reg.TLN_CTL, 0)]
    direct s (.mc 1) Reg.TLN_CTL = true ∧ isSet s Reg.TLN_CTL F.TLN_CTL_EN = false ∧ isSet s (Reg.TL_CTL 5) F.TL_CTL_EN = true ∧
    isSet s (Reg.TL_CTL 6) F.TL_CTL_EN = false ∧ tlNext s 5 < 2 ^ 48 := by decide +kernel

theorem test_tlnDisable : direct sTl (.mc 1) Reg.TLN_CTL = true ∧ after (.tlnDisable (.mc 1)) sTl (fun u => decide (rd u Reg.TLN_CTL = 0)) = true := by decide +kernel

theorem test_tlTailWrite :
    direct sTl (.mc 1) (Reg.TL_TAIL 5) = true ∧ tlDirect sTl 5 = false ∧
    after (.tlTailWrite (.mc 1) 5 9) sTl (fun u => decide (tlTail u 5 = 0)) = true := by decide +kernel

/-! ## Tasks -/

/-- A task record: class, program 0, HOME, the tiles of MASK, DEADLINE 10, IN0 and OUT0. -/
def recOf (cls home mask in0 out0 : Nat) : List Byte :=
  leBytes 8 (cls * 2 ^ 16 + home * 2 ^ 48) ++ leBytes 8 (10 * 2 ^ 32) ++ leBytes 16 mask ++ leBytes 8 0 ++ leBytes 2 in0 ++
    List.replicate 6 0xFF ++ leBytes 2 out0 ++ List.replicate 6 0xFF ++ leBytes 8 0

/-- Sector 0 is ACT. A palette of timeline 5 whose record names tile 0 as HOME. -/
def sPal : State :=
  let s := { withRegs State.reset [(Reg.MEM_CTL, 1), (Reg.PWR_DOMAIN_STATE 0, 0)] with tim := { raw := 0x200 } }
  let p : Pal := { key := 1, tl := 5, slot := 7, start := 0x100, addr := 0x10000, param := 0, stat := 0x8000, adv := 0, period := 0x1E0000,
                   hdr := { tasks := 1, progs := 1, horizon := 100, taskOff := 0x80, bufOff := 0xC0, prog := 0x20000 } }
  { storeN s 0x10080 (recOf 0 0 3 0xFFFF 0xFFFF) with tln := { pals := [p] }, noc := { fences := [(uDom 0, {})] } }

def pPal : Pal := sPal.tln.pals.headD { key := 0, tl := 0, slot := 0, start := 0, addr := 0, param := 0, stat := 0, adv := 0, period := 0, hdr := {} }

/-- Its task 0, with a given state. -/
def withTask0 (g : Task → Task) : State :=
  updTask sPal 8192 fun t => g { t with tr := decodeRec (recBytes sPal pPal 0) }

theorem test_recordDelivery :
    (sPal.tln.pals.find? fun p => !p.held && decide (p.next < p.hdr.tasks)) = some pPal ∧
    recFault sPal pPal 0 (recBytes sPal pPal 0) = none ∧ (task sPal 8192).phase = .pending ∧
    cascades sPal 1 (decodeRec (recBytes sPal pPal 0)) = false ∧ placedAt sPal pPal (decodeRec (recBytes sPal pPal 0)) = some 0 ∧
    tileUp sPal 0 = true ∧ hasRoom sPal 0 0 = true ∧ atRisk sPal pPal 0 = false ∧
    after .recordDelivery sPal (fun u => decide ((task u 8192).phase = .queued) && decide (rd u Reg.TLN_DELIV_CNT = 1)
      && decide ((u.tln.pals.map (·.next)) = [1])) = true := by decide +kernel

theorem test_qfullRelease :
    let s := updPal sPal 1 fun p => { p with held := true }
    (palAt s 5 7).map (·.held) = some true ∧ s.tln.handed = [] ∧
    after (.qfullRelease ⟨5, 7⟩) s (fun u => u.tln.pals.all fun p => !p.held) = true := by decide +kernel

theorem test_parkedTaskDelivery :
    let s := withTask0 fun t => { t with phase := .parked }
    palAt s 5 7 = some pPal ∧ palOf s 8192 = some pPal ∧ placedAt s pPal (task s 8192).tr = some 0 ∧
    after (.parkedTaskDelivery ⟨5, 7, 0⟩) s (fun u => decide ((task u 8192).phase = .queued)) = true := by decide +kernel

theorem test_taskStartTime :
    let s := withTask0 fun t => { t with phase := .queued }
    palAt s 5 7 = some pPal ∧ palOf s 8192 = some pPal ∧ calmPal s 1 = true ∧
    reached (copyMax s 0 % 2 ^ 48) (absStart pPal (task s 8192).tr) = true ∧
    after (.taskStartTime ⟨5, 7, 0⟩) s (fun u => decide (u = updTask s 8192 fun t => { t with started := true })) = true := by decide +kernel

theorem test_taskStartTime_join :
    let s := withTask0 fun t => { t with phase := .join }
    predsOver s 1 (task s 8192).tr = true ∧ reached (copyMax s 20 % 2 ^ 48) (absStart pPal (task s 8192).tr) = true ∧
    after (.taskStartTime ⟨5, 7, 0⟩) s (fun u => decide ((task u 8192).phase = .done)) = true := by decide +kernel

theorem test_ingressClose :
    let s := updBuf sPal (bufKey 1 16383) fun _ => { close := 0x180, expect := 1, ingress := true }
    palAt s 5 7 = some pPal ∧ reached (copyMax s 23 % 2 ^ 48) (buf s (bufKey 1 16383)).close = true ∧ bufComplete s 1 16383 = false ∧
    after (.ingressClose ⟨5, 7⟩ 16383) s (fun u => (buf u (bufKey 1 16383)).closed && decide ((u.tln.pals.map (·.ingressInc)) = [1])) = true := by
  decide +kernel

/-- Tile 1 is up with a READY engine; tile 0 holds a ready task and its aged. -/
def sSteal : State :=
  let s := setEng (withTask0 fun t => { t with phase := .queued, started := true }) 8 { st := 2 }
  withRegs s [(Reg.TSU_CTL 0, 0x101), (Reg.TSU_CTL 1, 0x101), (Reg.TSU_STEAL_AGE 0, 0)]

theorem test_steal :
    tileUp sSteal 1 = true ∧ holdsReady sSteal 1 0 = false ∧ ((tileEngs 1).any fun e => engReady sSteal e && runsClass sSteal e 0) = true ∧
    (tileQueue sSteal 0).filter (stealable sSteal 1 0 0) = [8192] ∧
    ((victims sSteal 1).find? fun v => (tileQueue sSteal v).any (stealable sSteal 1 v 0)) = some 0 ∧
    after (.steal 1 0) sSteal (fun u => decide ((task u 8192).tile = 1) && decide (rd u (Reg.TSU_STEAL_IN_CNT 1) = 1)) = true := by decide +kernel

/-- A ready task of tile 0, engine 0 READY, no image there. -/
def sReady : State :=
  wr (setEng (withTask0 fun t => { t with phase := .queued, started := true }) 0 { st := 2 }) (Reg.TSU_CTL 0) 1

theorem test_taskDispatch :
    mayDispatch sReady 0 = true ∧ engReady sReady 0 = true ∧ palOf sReady 8192 = some pPal ∧
    ((tileQueue sReady 0).filter fun k => taskReady sReady k && runsClass sReady 0 (task sReady k).tr.cls) = [8192] ∧
    (resolveRefs sReady pPal (task sReady 8192).tr).all (refOk sReady 0) = true ∧
    (allocate 0 (resolveRefs sReady pPal (task sReady 8192).tr) []).isSome = true ∧
    imageThere sReady 0 (progEnt sReady pPal 0) = false ∧
    after (.taskDispatch 0 0) sReady (fun u => decide ((task u 8192).phase = .loading) && decide ((eng u 0).st = 3)) = true := by decide +kernel

theorem test_taskDispatch_run :
    let s := storeN (updEng sReady 0 fun x => { x with image := some 0x30000, size := 8 }) 0x20000 (leBytes 16 (0x30000 + 8 * 2 ^ 64))
    imageThere s 0 (progEnt s pPal 0) = true ∧ mayDispatch s 0 = true ∧ engReady s 0 = true ∧
    after (.taskDispatch 0 0) s (fun u => decide ((task u 8192).phase = .running) && (eng u 0).run && decide ((eng u 0).pc = 0)
      && decide ((eng u 0).scal.getD 3 0 = 7)) = true := by decide +kernel

/-- Task 0 has been dispatched to engine 0; tile 0 holds its image of 8 bytes at offset 0x1000. -/
def sLoad : State :=
  let s := setEng (withTask0 fun t => { t with phase := .loading, eng := some 0, prog := (0x30000, 8, 0, 0) }) 0 { st := 3, task := some 8192 }
  let s := storeN (wr s (Reg.TSU_PCACHE 0) 0x010001) (tileBase 0 + 0x1000) (leBytes 8 0x1122334455667788)
  setPcache s 0 [(0x30000, 0x1000, 8)]

theorem test_programLoadDone :
    ((pcache sLoad 0).find? fun x => decide (x.1 = 0x30000 ∧ 8 ≤ x.2.2)) = some (0x30000, 0x1000, 8) ∧
    firstDamage sLoad (tileBase 0 + 0x1000) 8 = none ∧ allocate 0 (task sLoad 8192).refs [] = some ([], []) ∧
    after (.programLoadDone 0) sLoad (fun u => decide (loadLE u (emBase 0 + 0x20000) 8 = 0x1122334455667788) && (eng u 0).run) = true := by decide +kernel

/-- Task 0 runs on engine 0 and has executed TEND. -/
def sEnd : State :=
  setEng (withTask0 fun t => { t with phase := .running, eng := some 0 }) 0 { st := 3, task := some 8192, run := true, ended := true }

theorem test_taskCompletion :
    (eng sEnd 0).task = some 8192 ∧ jobsLeft sEnd 0 = false ∧ discards sEnd (uEng 0) = false ∧ palOf sEnd 8192 = some pPal ∧
    calmPal sEnd 1 = true ∧ aloneIn sEnd 8192 = true ∧ (task sEnd 8192).tr.outs = [none, none, none, none] := by decide +kernel

theorem test_harqCommitResponse :
    let s := withTask0 fun t => { t with phase := .committing, commits := [(0x50004, [1, 2, 3, 4])] }
    palAt s 5 7 = some pPal ∧ palOf s 8192 = some pPal ∧ calmPal s 1 = true ∧ (fabWrite s (supIssuer 0 0) 0x50004 [1, 2, 3, 4]).1 = OKAY ∧
    after (.harqCommitResponse ⟨5, 7, 0⟩ false true) s (fun u => decide ((task u 8192).phase = .done) && decide (loadLE u 0x50004 4 = 0x04030201))
      = true ∧
    after (.harqCommitResponse ⟨5, 7, 0⟩ true false) s (fun u => decide ((task u 8192).phase = .done) && decide (rd u (Reg.TSU_EVT 0) = 0x80))
      = true := by decide +kernel

theorem test_taskDeadline :
    let s := withTask0 fun t => { t with phase := .queued }
    aloneIn s 8192 = true ∧ reached (copyMax s 0 % 2 ^ 48) (absDeadline s pPal (task s 8192).tr) = true ∧
    after (.taskDeadline ⟨5, 7, 0⟩) s (fun u => decide ((task u 8192).reason = 1) && decide (rd u (Reg.TL_MISS_CNT 5) = 1)
      && decide (rd u (Reg.TSU_MISS_CNT 0) = 1)) = true ∧
    after (.taskDeadline ⟨5, 7, 0⟩) sEnd (fun u => decide ((task u 8192).phase = .stopping) && (eng u 0).halt) = true := by decide +kernel

theorem test_engineHalted :
    let s := setEng (withTask0 fun t => { t with phase := .stopping, eng := some 0, reason := 1 }) 0 { st := 4, task := some 8192, halt := true, pc := 16 }
    cancelDone s 0 = true ∧ unitSt s (uEng 0) = 0 ∧ waitingRecoat s 0 = none ∧ palOf s 8192 = some pPal ∧ aloneIn s 8192 = true ∧
    after (.engineHalted 0) s (fun u => decide ((task u 8192).phase = .missed) && decide ((eng u 0).st = 2) && decide (rd u (Reg.ECP_PC 0 0) = 16))
      = true ∧
    after (.engineHalted 0) (updTask s 8192 fun t => { t with requeue := true }) (fun u => decide ((task u 8192).phase = .queued)) = true := by decide +kernel

theorem test_slotDone :
    let s := updPal (withTask0 fun t => { t with phase := .done }) 1 fun p => { p with resolved := some 0x180, done := 1 }
    (palAt s 5 7).isSome = true ∧ (fabWrites 40 s (tlnIssuer 0) (statAddr 0x8000 7) []).1 = OKAY ∧
    after (.slotDone ⟨5, 7⟩) s (fun u => decide (u.tln.pals = []) && decide (u.tln.tasks = []) && decide (loadLE u 0xB0C8 4 = 1)
      && u.hif.reported.contains (5, 7)) = true := by decide +kernel

/-! ## DMA -/

/-- Task 0 is of the DMA class, ready at tile 0; IN0 and OUT0 are buffers 0 and 1. -/
def sDmaTask (kind : Nat) : State :=
  let s := sPal
  let s := storeN s 0x10080 (recOf 3 0 3 0 1)
  let s := storeN s 0x100C0 (leBytes 8 (0x20000 + kind * 2 ^ 48) ++ leBytes 8 0x40 ++ leBytes 16 0 ++ leBytes 8 0x30000 ++ leBytes 8 0x40 ++ leBytes 16 0)
  let s := updPal (wr (wr s (Reg.TSU_CTL 0) 1) (Reg.TLN_DMA_CH 0) 1) 1 fun p => { p with hdr := { p.hdr with bufs := 2 } }
  let p := (pal? s 1).getD pPal
  let s := updTask s 8192 fun t => { t with phase := .queued, started := true, tr := decodeRec (recBytes s p 0) }
  wr s (Reg.PWR_DOMAIN_STATE 16) 0

theorem test_dmaTaskDispatch :
    let s := sDmaTask 6
    let r := (task s 8192).tr
    mayDispatch s 0 = true ∧ ((tileQueue s 0).filter fun k => decide ((task s k).tr.cls = 3) && taskReady s k) = [8192] ∧
    (palOf s 8192).isSome = true ∧ (pairsOf r).length = 1 ∧ (dmaChannels s 0) = [0] ∧
    (resolveRefs s ((palOf s 8192).getD pPal) r).all (refOk s 0) = true ∧
    after (.dmaTaskDispatch 0) s (fun u => decide ((task u 8192).phase = .loading) && decide ((task u 8192).pairs.length = 1)) = true ∧
    after (.dmaTaskDispatch 0) (sDmaTask 0) (fun u => decide ((task u 8192).phase = .running) && decide (chState u 0 = 1)) = true := by decide +kernel

theorem test_paramEntryRead :
    let s := storeN (withTask0 fun t => { t with phase := .loading, pairs := [{ j := 0, src := 0x40000, needIn := true, dst := 0x50000, cout := 64 }] })
      0x40000 (leBytes 8 0x60000 ++ leBytes 8 64)
    palAt s 5 7 = some pPal ∧ palOf s 8192 = some pPal ∧ (fabRead s (supIssuer 0 0) 0x40000 16).1 = OKAY ∧
    after (.paramEntryRead ⟨5, 7, 0⟩ 0 false false) s (fun u => decide ((task u 8192).pairs.map (·.src) = [0x60000])) = true ∧
    after (.paramEntryRead ⟨5, 7, 0⟩ 0 false true) s (fun u => decide (rd u Reg.NOC_TIMEOUT_CNT = 1)) = true := by decide +kernel

/-- Channel 127 is idle in a strip that is ACT, with a transfer of 64 bytes in its registers. -/
def sChan (n : Nat) : State :=
  withRegs (setFence State.reset (uDom 19) {}) [(Reg.PWR_DOMAIN_STATE 19, 0), (Reg.MEM_CTL, 1), (chReg 127 Reg.CH_SRC_LO, 0x1000), (chReg 127 Reg.CH_DST_LO, 0x2000),
    (chReg 127 Reg.CH_COUNT, BitVec.ofNat 32 n), (chReg 127 Reg.CH_CTRL, 0)]

theorem test_dmaStart :
    let s := sChan 64
    direct s (.mc 0) (chReg 127 Reg.CH_CTRL) = true ∧ startable s 127 = true ∧ chDisp s 127 = false ∧ freeChan s 127 = true ∧
    chCfg s 127 F.CH_CFG_REQ_EN = 0 ∧
    after (.dmaStart (.mc 0) 127 0x38) s (fun u => decide (chState u 127 = 1) && decide ((chan u 127).reads = [(0, 64)])) = true ∧
    after (.dmaStart (.mc 0) 127 0x38) (sChan 0) (fun u => decide (chState u 127 = 0) && decide (rd u (chReg 127 Reg.CH_EVT) = 1)) = true ∧
    after (.dmaStart (.mc 0) 127 0x38) (wr s (chReg 127 Reg.CH_SRC_HI) 0x10000) (fun u => decide (chState u 127 = 4) && decide (chErr u 127 = 7))
      = true ∧
    after (.dmaChainStart (.mc 0) 127 0x38) s (fun u => decide (chState u 127 = 1) && (chan u 127).fetch) = true := by decide +kernel

/-- The same channel runs. -/
def sRun : State := match exec (.dmaStart (.mc 0) 127 0x38) (sChan 64) with
  | .next t => t
  | _ => State.reset

theorem test_dmaStop :
    direct sRun (.mc 0) (chReg 127 Reg.CH_CTRL) = true ∧ chBusy sRun 127 = true ∧ noDmaTask sRun = true ∧
    after (.dmaStop (.mc 0) 127 0x38) sRun (fun u => decide (chState u 127 = 3) && decide (chErr u 127 = 8)) = true ∧
    after (.dmaStopTimeout 127) (updCh sRun 127 fun x => { x with stopAt := true }) (fun u => decide (chState u 127 = 3)) = true := by decide +kernel

theorem test_dmaDescriptorFetched :
    let s := storeN (setChState (updCh (wr (sChan 64) (chReg 127 Reg.CH_DESC_LO) 0x4000) 127 fun x => { x with fetch := true }) 127 1) 0x4000
      (leBytes 8 0x5000 ++ leBytes 8 0x6000 ++ leBytes 8 (32 + 0x38 * 2 ^ 32) ++ leBytes 8 0x40)
    chState s 127 = 1 ∧ (chRead .delivered s 127 false 0x4000 64).1 = OKAY ∧ chDescOk s 127 (loadN s 0x4000 64) = true ∧
    after (.dmaDescriptorFetched 127 .delivered) s (fun u => decide (chSrc u 127 = 0x5000) && decide (chCount u 127 = 32)
      && decide ((chan u 127).reads = [(0, 32)])) = true := by decide +kernel

theorem test_dmaAccessResponse :
    let s := storeN sRun 0x1000 [7]
    (chan s 127).reads = [(0, 64)] ∧ (chRead .delivered s 127 false 0x1000 64).1 = OKAY ∧
    after (.dmaAccessResponse 127 false .delivered) s (fun u => decide ((chan u 127).writes.length = 1)) = true ∧
    (let s := updCh s 127 fun x => { x with writes := [(0, [9, 8])] }
     (writeVia .delivered s (dmaIssuer s 127) 0x2000 [9, 8]).1 = OKAY ∧
     after (.dmaAccessResponse 127 true .delivered) s (fun u => decide (memGet u.mem 0x2001 = 8) && decide (rd u (chReg 127 Reg.CH_DONE_BYTES) = 2))
      = true) := by decide +kernel

theorem test_dmaDrainDone :
    let s := setChState (sChan 64) 127 3
    chState s 127 = 3 ∧ freeChan s 127 = true ∧
    after (.dmaDrainDone 127) s (fun u => decide (chState u 127 = 0) && decide (rd u (chReg 127 Reg.CH_EVT) = 1)) = true ∧
    after (.dmaDrainDone 127) (setChErr s 127 3) (fun u => decide (chState u 127 = 4) && decide (rd u (Reg.DMA_ERR_CNT 7) = 1)) = true := by decide +kernel

theorem test_dmaRequestWordWrite :
    precheck (sChan 64) (posterIssuer (sChan 64) (.dma 127)) (0x200300000000 + 0x60010000 + 0x3C0) 4 true = (OKAY, false) ∧
    after (.dmaRequestWordWrite 127 (.dma 127) 3) (sChan 64) (fun u => isSet u (chReg 127 Reg.CH_STATUS) F.CH_STATUS_LEVEL) = true := by decide +kernel

theorem test_dmaWaitreqResume :
    let s := updCh (setChState (wr (sChan 64) (chReg 127 Reg.CH_STATUS) 0x100) 127 2) 127 fun x => { x with active := true, total := 64 }
    chState s 127 = 2 ∧ isSet s (chReg 127 Reg.CH_STATUS) F.CH_STATUS_LEVEL = true ∧
    after (.dmaWaitreqResume 127) s (fun u => decide (chState u 127 = 1)) = true := by decide +kernel

theorem test_dmaUnitFault :
    discards (sChan 64) (uDma 7) = false ∧ domLive (sChan 64) 19 = true ∧ ((upto 16).all fun c => freeChan (sChan 64) (112 + c)) = true ∧
    after (.dmaUnitFault 7 true) (sChan 64) (fun u => decide (rd u (Reg.DMA_ERR_CNT 7) = 16) && decide (chErr u 127 = 9) && fenced u (uDma 7)) = true := by
  decide +kernel

/-! ## Faults of engines and tiles -/

theorem test_engineFault :
    let s := setEng State.reset 9 { st := 2, pc := 24 }
    faultOf s 9 true 3 0x44 = some (1, 3, 0x44) ∧ discards s (uEng 9) = false ∧ (unit s (uEng 9)).mute = 0 ∧ jobsIn s = true ∧
    waitingRecoat s 9 = none ∧ (eng s 9).task = none ∧
    after (.engineFault 9 true 3 0x44) s (fun u => fenced u (uEng 9) && decide (rd u Reg.RAS_ENG_FLT_CNT = 1) && (eng u 9).halt
      && decide (rd u (Reg.ECP_PC 1 1) = 24) && decide (rd u (Reg.STW_FLT_CNT 0) = 1) && decide (rd u (Reg.ECP_FADDR 1 1) = 0x44)) = true := by
  decide +kernel

/-- Task 0 runs on engine 0; engine 1 is a spare that is READY. -/
def sRecoat : State :=
  let s := setEng (withTask0 fun t => { t with phase := .running, eng := some 0 }) 0 { st := 3, task := some 8192, run := true }
  withRegs (setEng s 1 { st := 2 }) [(Reg.TILE_SPARE 0, 2)]

theorem test_recoat :
    faultOf sRecoat 0 true 3 0 = some (1, 3, 0) ∧ isSet sRecoat Reg.RAS_CTL F.RAS_CTL_RECOAT_EN = true ∧
    chooseTarget sRecoat 8192 0 = some 1 ∧ spareTask sRecoat 1 = none ∧ (task sRecoat 8192).recoatRun = false ∧
    after (.engineFault 0 true 3 0) sRecoat (fun u => decide ((task u 8192).phase = .recoat) && decide ((eng u 1).task = some 8192)
      && decide (rd u Reg.RAS_RECOAT_CNT = 1) && decide ((eng u 0).task = none)) = true := by decide +kernel

theorem test_haltTimeout :
    let s := setUnitSt (setEng State.reset 9 { st := 4, halt := true, run := true }) (uEng 9) 1
    unitSt s (uEng 9) ≠ 0 ∧ after (.haltTimeout 9) s (fun u => !(eng u 9).halt && !(eng u 9).run && decide (u.regs = s.regs)) = true := by decide +kernel

theorem test_tskLimitExpiry :
    let s := withRegs { sRecoat with tim := { raw := 0x100000 } } [(Reg.RAS_CTL, 0)]
    palOf s 8192 = some pPal ∧ 0 ≤ Machine.dist (copyMax s 0 % 2 ^ 48) ((task s 8192).limitFrom + runLimit s (task s 8192) 0) ∧ aloneIn s 8192 = true ∧
    (task s 8192).shortLimit = false ∧
    after (.tskLimitExpiry 0) s (fun u => decide ((task u 8192).reason = 9) && decide (rd u (Reg.TSU_LIMIT_CNT 0) = 1) && fenced u (uEng 0))
      = true ∧
    after (.tskLimitExpiry 0) (updTask s 8192 fun t => { t with recoatRun := true }) (fun u => decide ((task u 8192).reason = 8) &&
      decide ((task u 8192).phase = .stopping) && decide (rd u Reg.RAS_PROG_OVR_CNT = 1)) = true := by decide +kernel

theorem test_recoatDispatch :
    let s := setEng (withTask0 fun t => { t with phase := .recoat, faulty := 0, target := some 1, loaded := true, recoatRun := true }) 1
      { st := 3, task := some 8192 }
    let s := setFence s (uEng 0) { st := 3 }
    palAt s 5 7 = some pPal ∧ palOf s 8192 = some pPal ∧ cancelDone s 0 = true ∧ allocate 0 (task s 8192).refs [] = some ([], []) ∧
    after (.recoatDispatch ⟨5, 7, 0⟩) s (fun u => decide ((task u 8192).phase = .running) && (eng u 1).run && decide (rd u (Reg.TSU_DISP_CNT 0) = 1))
      = true := by decide +kernel

theorem test_tileLost :
    let s := setUnitSt State.reset (uTile 3) 1
    (fence s (uTile 3)).st = 0 ∧ (eng s 24).task = none ∧
    after (.tileLost 3 .limit) s (fun u => fenced u (uTile 3) && fenced u (uEng 31) && (eng u 24).halt && !(eng u 32).halt) = true ∧
    discards State.reset (uTile 3) = false ∧
    after (.tileLost 3 .router) State.reset (fun u => decide (rd u Reg.RAS_TILE_FLT_CNT = 1) && decide (unitSt u (uEng 24) = 1)) = true := by decide +kernel

theorem test_readyHandshake :
    let s := setFence (setUnitSt (setFence (wr State.reset (Reg.PWR_DOMAIN_STATE 0) 0) (uDom 0) {}) (uEng 9) 1) (uEng 9) { st := 3 }
    let s := storeN s (emBase 9) [5]
    domLive s 0 = true ∧ cancelDone s 9 = true ∧ nothingWaits s = true ∧ (unit s (uEng 9)).gen = (unit s (uEng 9)).shadowGen ∧
    after (.readyHandshake 0x1009 true true false) s (fun u => decide (unitSt u (uEng 9) = 0) && !fenced u (uEng 9) && decide (u.mem = [])
      && decide (rd u (Reg.STW_HS_CNT 0) = 1) && decide ((unit u (uEng 9)).gen = 1)) = true := by decide +kernel

theorem test_ecp :
    let s := setEng (setFence (wr State.reset (Reg.PWR_DOMAIN_STATE 0) 0) (uDom 0) {}) 9 { st := 2 }
    direct s (.mc 0) (Reg.ECP_CTL 1 1) = true ∧ direct s (.sup 1) (Reg.ECP_CTL 1 1) = true ∧ rd s (Reg.ECP_CTL 1 1) = 0 ∧
    unitSt s (uEng 9) = 0 ∧ waitingRecoat s 9 = none ∧
    after (.ecpHalt (.sup 1) 9) s (fun u => (eng u 9).halt) = true ∧
    after (.ecpReset (.mc 0) 9) s (fun u => fenced u (uEng 9) && decide (unitSt u (uEng 9) = 1)) = true ∧
    after (.ecpDoorbell (.mc 0) 9) s (fun u => decide ((eng u 9).srN Sr.EIP = 1)) = true := by decide +kernel

/-! ## Jobs -/

/-- Strip 3 is ACT and takes descriptors. -/
def sStrip : State :=
  withRegs (setFence (setFence State.reset (uDom 19) {}) (uDom 0) {}) [(Reg.PWR_DOMAIN_STATE 19, 0), (Reg.PWR_DOMAIN_STATE 0, 0), (Reg.MEM_CTL, 1), (Reg.FEC_CTL 3, 3), (Reg.FFT_CTL 3, 3)]

/-- An FFT job of 128 points: IN at 0x1000, OUT at 0x2000, one bin; NOTIFY, LATE_OK, a record at 0x3000. -/
def dFft : BitVec 512 :=
  BitVec.ofNat 512 (6 + 0x30 + 0x3000 * 2 ^ 64 + 0x1000 * 2 ^ 128 + 0x2000 * 2 ^ 192) ||| (1#512 <<< 304)

theorem test_post :
    portCode sStrip 3 .fft (.eng 0) = OKAY ∧ descOk 6 dFft = true ∧ portCode State.reset 3 .fft (.dma 127) = FENCED ∧
    isSet sStrip (jCtl 3 6) F.FEC_CTL_POST_EN = true ∧ (queued sStrip 3 6).length < queueCap 6 ∧
    after (.fftJob 3 (.eng 0) dFft) sStrip (fun u => decide (u.job.list.map (·.kind) = [6])) = true ∧
    after (.carry 3 true (.dma 100) 0) sStrip (fun u => decide (u.job.list = []) && isSet u (jEvt 3 4) F.FEC_EVT_BAD_DESC) = true ∧
    after (.ldpcDecode 3 (.eng 5) 0) (wr sStrip (Reg.FEC_CTL 3) 0) (fun u => decide (rd u (Reg.FEC_REJECT_CNT 3) = 1)) = true := by decide +kernel

def sJob (g : JobS → JobS) : State :=
  { sStrip with job := { list := [g { id := 4, q := 3, kind := 6, eng := some 9, func := 0, desc := dFft }], next := 5 } }

theorem test_jobStart :
    let s := sJob id
    firstFrom (fun i => unitUp s 3 6 i && (runsOn s 3 6 i).isNone) (unitsOf 6) 0 = some 0 ∧ fenced s (uDom 19) = false ∧
    queued s 3 6 = s.job.list ∧
    after (.jobStart 3 .fft) s (fun u => decide (u.job.list.map (·.unit) = [some 0]) && decide (fld u (unitReg 3 6 0) F.FEC_UNIT_JOBS = 1)) = true := by
  decide +kernel

theorem test_jobRead :
    let s := sJob fun j => { j with phase := .reading 2, reads := [(0x1000, 4)] }
    noTaskOf s (s.job.list.headD { id := 0, q := 0, kind := 0, eng := none, func := 0, desc := 0 }) = true ∧
    after (.jobAccessResponse 0 .delivered) s (fun u => decide (u.job.list.map (·.phase) = [.work])) = true ∧
    after (.jobAccessResponse 0 .delivered) (sJob fun j => { j with phase := .reading 2, reads := [(0x1000, 4), (0x1100, 4)] })
      (fun u => decide (u.job.list.map (·.reads) = [[(0x1100, 4)]])) = true := by decide +kernel

theorem test_jobWrite :
    (let s := sJob fun j => { j with phase := .writing, writes := [(0x2000, [7]), (0x2100, [8])] }
     after (.jobAccessResponse 0 .delivered) s (fun u => decide (u.job.list.map (·.writes) = [[(0x2100, [8])]]) && decide (memGet u.mem 0x2000 = 7))
       = true) ∧
    (let s := sJob fun j => { j with phase := .record, writes := [(0x3000, [7])] }
     after (.jobAccessResponse 0 .delivered) s (fun u => decide (u.job.list = []) && decide ((eng u 9).srN Sr.EIP = 8)) = true) := by decide +kernel

theorem test_jobCancelComplete :
    let s := sJob fun j => { j with phase := .writing, writes := [(0x2000, [7])], cancelled := true }
    (s.job.list.filter fun j => decide (j.eng = some 9) && j.cancelled) = s.job.list ∧
    after (.jobCancelComplete 9) s (fun u => decide (u.job.list = []) && decide (memGet u.mem 0x2000 = 7)) = true := by decide +kernel

theorem test_jobFaults :
    let s := sJob fun j => { j with phase := .work, unit := some 1, ran := some 1 }
    discards s (uFft 13) = false ∧ (unit s (uFft 13)).mute = 0 ∧ (runsOn s 3 6 1).isSome = true ∧ runsOn s 3 6 0 = none ∧
    after (.fecUnitFault 3 .fft 1 false) s (fun u => decide (u.job.list.map (·.replayed) = [true]) && fenced u (uFft 13)) = true ∧
    after (.jobWatchdog 3 .fft 1) s (fun u => decide (u.job.list.map (·.replayed) = [true]) && decide ((unit u (uFft 13)).kind = 9)) = true ∧
    after (.fecUnitFault 3 .fft 0 true) s (fun u => decide (rd u Reg.RAS_UNIT_FLT_CNT = 1) && decide (rd u (Reg.FFT_FAULT_CNT 3) = 1)) = true := by
  decide +kernel

/-! ## Carrier extraction units -/

/-- Unit 31 in strip 3, configured for input from memory: one tap, decimation by 1, blocks of 16 samples. -/
def sCxu : State :=
  withRegs sStrip [(Reg.CXU_CTL 31, 2), (Reg.CXU_IPERIOD 31, 8192), (Reg.CXU_DEC 31, 1), (Reg.CXU_BANKA_CFG 31, 1), (Reg.CXU_BANKB_CFG 31, 1),
    (Reg.CXU_COEFA 31 0, 0x10000), (Reg.CXU_OUT_LO 31, 0x8000), (Reg.CXU_HDR_LO 31, 0x9000), (Reg.CXU_OUT_CFG 31, 0x840)]

theorem test_cxuEnable :
    direct sCxu (.mc 0) (Reg.CXU_CTL 31) = true ∧ isSet sCxu (Reg.CXU_CTL 31) F.CXU_CTL_EN = false ∧ unitSt sCxu (uCxu 31) = 0 ∧
    cxuGood sCxu 31 (cxuSampled sCxu 31) = true ∧
    after (.cxuEnable (.mc 0) 31) sCxu (fun u => cxuRun u 31 && (cxu u 31).syncGo && decide ((cxu u 31).out = 0x8000)) = true ∧
    cxuGood (wr sCxu (Reg.CXU_IPERIOD 31) 5) 31 (cxuSampled (wr sCxu (Reg.CXU_IPERIOD 31) 5) 31) = false ∧
    after (.cxuEnable (.mc 0) 31) (wr sCxu (Reg.CXU_IPERIOD 31) 5) (fun u => !cxuRun u 31 && decide (rd u (Reg.CXU_STAT 31) = 4)) = true := by decide +kernel

/-- The same unit runs. -/
def sCxuOn : State := match exec (.cxuEnable (.mc 0) 31) sCxu with
  | .next t => t
  | _ => State.reset

theorem test_cxuDisable :
    direct sCxuOn (.mc 0) (Reg.CXU_CTL 31) = true ∧ isSet sCxuOn (Reg.CXU_CTL 31) F.CXU_CTL_EN = true ∧
    after (.cxuDisable (.mc 0) 31) sCxuOn (fun u => (cxu u 31).stop && cxuRun u 31) = true ∧
    direct sCxuOn .spi (Reg.CXU_SYNC 31) = true ∧ after (.cxuSyncGo .spi 31) sCxuOn (fun u => (cxu u 31).syncGo) = true := by decide +kernel

theorem test_cxuBankSwitch :
    direct sCxuOn (.mc 0) (Reg.CXU_BANK 31) = true ∧ cxuRun sCxuOn 31 = true ∧ swSt sCxuOn 31 = 0 ∧
    bankOk sCxuOn 31 (1 - inUse sCxuOn 31) (cxu sCxuOn 31) = true ∧ bankOk (wr sCxuOn (Reg.CXU_BANKB_CFG 31) 0) 31 1 (cxu sCxuOn 31) = false ∧
    after (.cxuBankSwitch (.mc 0) 31 0x800) sCxuOn (fun u => decide (swSt u 31 = 2) && decide ((cxu u 31).fadeLog = 8)) = true ∧
    after (.cxuBankSwitch (.mc 0) 31 2) sCxuOn (fun u => decide (swSt u 31 = 1)) = true ∧
    after (.cxuBankSwitch (.mc 0) 31 2) (setSwSt sCxuOn 31 1) (fun u => decide (rd u (Reg.CXU_SWDROP_CNT 31) = 1)) = true ∧
    after (.cxuBankSwitch (.mc 0) 31 2) (setSwSt sCxuOn 31 2) (fun u => isSet u (Reg.CXU_BANK 31) F.CXU_BANK_HELD) = true := by decide +kernel

theorem test_cxuCoefWrite :
    direct sCxuOn (.mc 0) (Reg.CXU_COEFB 31 383) = true ∧ bankBusy sCxuOn 31 1 = false ∧ bankBusy sCxuOn 31 0 = true ∧
    after (.cxuCoefWrite (.mc 0) 31 true (some 383) 0xFFFFFFFF) sCxuOn (fun u => decide (rd u (Reg.CXU_COEFB 31 383) = 0x3FFFF)) = true ∧
    after (.cxuCoefWrite (.mc 0) 31 false (some 0) 7) sCxuOn (fun u => decide (rd u (Reg.CXU_COEFA 31 0) = 0x10000)
      && decide (rd u (Reg.CXU_WREF_ADDR 31) = BitVec.ofNat 32 (Reg.CXU_COEFA 31 0))) = true ∧
    after (.cxuCoefWrite (.mc 0) 31 true none 0x1003) sCxuOn (fun u => decide (bankN u 31 1 = 3)) = true ∧
    after (.cxuCoefWrite (.mc 0) 31 true none 384) (wr sCxu (Reg.CXU_IPERIOD 31) 768) (fun u => decide (rd u (Reg.CXU_STAT 31) = 4)) = true := by
  decide +kernel

theorem test_cxuMemWrite :
    (precheck sCxuOn (posterIssuer sCxuOn (.dma 127)) (cxuWindow 31) 64 true).1 = OKAY ∧
    after (.cxuMemWrite 31 (.dma 127) (BitVec.ofNat 512 (5 + 0xFFFF0000))) sCxuOn
      (fun u => decide ((cxu u 31).queue.length = 16) && decide (((cxu u 31).queue.map (·.x.re)).head? = some 5)
        && decide (((cxu u 31).queue.map (·.x.im)).head? = some (-1))) = true := by decide +kernel

/-- A unit that has taken its first sample, with one more waiting. -/
def sCxuIn (g : CxuS → CxuS) : State :=
  updCxu sCxuOn 31 fun x => g { x with
    syncGo := false, time := some 0, queue := [{ x := { re := 100, im := -3, gap := false }, stamp := 0, back := 0, first := false }] }

theorem test_cxuSample :
    fenced (sCxuIn id) (uCxu 31) = false ∧ (cxu (sCxuIn id) 31).hb = 0 ∧ (cxu (sCxuIn id) 31).d = 1 ∧ (cxu (sCxuIn id) 31).blkLen = 16 ∧
    after (.cxuSample 31) (sCxuIn id) (fun u => decide ((cxu u 31).outN = 1) && decide ((cxu u 31).blk.n = 1)
      && decide (loadLE u 0x8000 2 = 50 * 2 ^ (17 - 0) % 2 ^ 16 ∨ loadLE u 0x8000 2 = 0x7FFF)) = true ∧
    after (.cxuSample 31) (sCxuIn fun x => { x with stop := true, blk := { n := 3 } }) (fun u => !cxuRun u 31 && decide (rd u (Reg.CXU_SEQ 31) = 1)
      && decide ((cxu u 31).hdrs.length = 1)) = true ∧
    after (.cxuSample 31) (sCxuIn fun x => { x with syncGo := true, acc := 9 }) (fun u => !(cxu u 31).syncGo && decide ((cxu u 31).acc = 0)) = true ∧
    after (.cxuSample 31) (sCxuIn fun x => { x with dec := 2, u := 1 }) (fun u => decide ((cxu u 31).fir.length = 1) && decide (u.mem = [])) = true := by
  decide +kernel

theorem test_cxuBlockHeader :
    after (.cxuBlockHeader 31) (sCxuIn fun x => { x with hdrs := [(0x9000, [1, 2])] }) (fun u => decide ((cxu u 31).hdrs = [])
      && decide (memGet u.mem 0x9001 = 2)) = true := by decide +kernel

theorem test_cxuUnitFault :
    discards sCxuOn (uCxu 31) = false ∧ domLive sCxuOn 19 = true ∧ (unit sCxuOn (uCxu 31)).mute = 0 ∧
    after (.cxuUnitFault 31 true) (sCxuIn fun x => { x with blk := { n := 3 } }) (fun u => !cxuRun u 31 && decide (rd u (Reg.CXU_SEQ 31) = 1)
      && fenced u (uCxu 31) && decide ((unit u (uCxu 31)).kind = 3)) = true := by decide +kernel

/-! ## The fabric -/

/-- HBM answers; one byte at 0x1005. -/
def sHbm : State := storeN (withRegs State.reset [(Reg.MEM_CTL, 1)]) 0x1005 [0x77]

theorem test_targetRequest :
    isMemory 0x1004 = true ∧ sHbm.noc.lines = [] ∧ sHbm.noc.late = [] ∧
    (precheck sHbm (packetIssuer 7 0 135 0) 0x1004 4 false).1 = OKAY ∧ firstDamage sHbm 0x1004 4 = none ∧
    (precheck sHbm (packetIssuer 7 0 135 0) 0x1004 4 true).1 = OKAY ∧
    after (.targetRequest 0 7 0 135 0 9 0x1004 3 0 0 false false) sHbm (fun u => decide (u.out = [.resp 9 OKAY [0, 0x77, 0, 0]])) = true ∧
    after (.targetRequest 1 7 0 135 0 9 0x1004 3 (BitVec.ofNat 2048 (0xAABB <<< 32)) 0x10 false false) sHbm
      (fun u => decide (loadLE u 0x1004 4 = 0x77BB) && decide (u.out = [.resp 9 OKAY []])) = true ∧
    after (.targetRequest 2 7 0 135 0 9 0x1004 3 0 0 true false) sHbm (fun u => decide (rd u Reg.NOC_FENCE_DROP = 1)) = true := by decide +kernel

theorem test_targetRequest_denied :
    precheck sHbm (packetIssuer 7 3 135 0) 0x1004 4 false = (DENIED, true) ∧ precheck sHbm (packetIssuer 7 3 135 0) 0x1004 4 true = (DENIED, true) ∧
    after (.targetRequest 0 7 3 135 0 9 0x1004 3 0 0 false false) sHbm (fun u => decide (u.out = [.resp 9 DENIED []])
      && decide (rd u Reg.RAS_DENIED_CNT = 1)) = true := by decide +kernel

theorem test_responseTimeout :
    after (.responseTimeout 0 135 0 9 0x1004 false) sHbm (fun u => decide (rd u Reg.NOC_TIMEOUT_CNT = 1) && decide (u.noc.late = [(1080, 9)])
      && after (.targetRequest 0 7 0 135 0 9 0x1004 3 0 0 true false) u (fun v => decide (rd v Reg.NOC_LATE_RSP_CNT = 1) && decide (v.out = u.out)))
      = true := by decide +kernel

theorem test_fences :
    ownFence 0x1009 = true ∧ (fence sHbm 0x1009).st = 0 ∧ scopeQuiet sHbm 0x1009 = true ∧
    after (.fenceRequest 0x1009) sHbm (fun u => decide ((fence u 0x1009).st = 1) && decide (rd u (Reg.STW_FENCE_CNT 0) = 1)) = true ∧
    after (.fenceNoticeAck 0x1009) (setFence sHbm 0x1009 { st := 1 }) (fun u => decide ((fence u 0x1009).st = 2)) = true ∧
    after (.fenceDrained 0x1009) (setFence sHbm 0x1009 { st := 2 }) (fun u => decide ((fence u 0x1009).st = 3)
      && isSet u (Reg.STW_EVT 0) F.STW_EVT_FENCED) = true ∧
    after (.fenceDrained 0x1009) (setFence sHbm 0x1009 { st := 2, heldLift := true }) (fun u => decide ((fence u 0x1009).st = 0)) = true ∧
    scopeQuiet (setEng sHbm 9 { halt := true }) 0x1009 = false ∧
    after (.fenceLift 0x1009) (setFence sHbm 0x1009 { st := 3 }) (fun u => decide ((fence u 0x1009).st = 0)) = true ∧
    after (.fenceLift 0x1009) (setFence sHbm 0x1009 { st := 1 }) (fun u => (fence u 0x1009).heldLift) = true := by decide +kernel

/-- The region is the first MiB; cache 3 holds the line at 0x1000 in E. -/
def sCoh : State := setLine { sHbm with noc := { sHbm.noc with coh := (0, 1) } } 3 0x1000 { st := 2, data := List.replicate 64 0 }

theorem test_homeRequest :
    inCoherent sCoh 0x1000 = true ∧ target 0x1000 = .hbm ∧ hbmUp sCoh = true ∧ firstDamage sCoh 0x1000 64 = none ∧
    after (.homeRequest 5 0 0x1005 0 none) sCoh (fun u => decide ((line u 5 0x1000).st = 1) && decide ((line u 3 0x1000).st = 1)) = true ∧
    after (.homeRequest 3 2 0x1005 0 none) sCoh (fun u => decide ((line u 3 0x1000).st = 0)) = true ∧
    after (.homeRequest 3 3 0x1005 9 none) sCoh (fun u => decide (memGet u.mem 0x1000 = 9) && decide (memGet u.mem 0x1005 = 0)) = true := by decide +kernel

theorem test_snoop :
    after (.snoop 3 0x1010 true (some 5)) sCoh (fun u => decide (memGet u.mem 0x1000 = 5) && decide ((line u 3 0x1000).st = 0)) = true ∧
    after (.snoop 3 0x1010 false none) sCoh (fun u => decide (u.mem = sCoh.mem) && decide ((line u 3 0x1000).st = 1)) = true ∧
    after (.snoop 3 0x1010 false none) (setLine sCoh 3 0x1000 { st := 3, data := List.replicate 64 6 }) (fun u => decide (memGet u.mem 0x103F = 6))
      = true := by decide +kernel

/-- Router 0 gets a flit for tile 0 through port 2. -/
theorem test_flitReceive :
    noProbe State.reset = true ∧ fencedHere State.reset 0 0 0 0x100000000000 true = true ∧ fencedHere State.reset 0 3 0 0 true = false ∧
    routeEntry State.reset 0 0 0 = 0 ∧ xyPort 0 0 0 = 4 ∧ facing 0 4 = none ∧ isolated State.reset 0 4 = false ∧
    after (.flitReceive 0 2 3 true 0x4000000 5 true true 0) State.reset (fun u => decide (u.out = [.flit 0 4 0x4000000 5])) = true ∧
    after (.flitReceive 0 2 3 true 0x4000000 5 true false 0) State.reset (fun u => decide (u.out = [.flit 0 4 0xC000000 5])
      && decide (rd u Reg.NOC_PAY_PAR_CNT = 1)) = true ∧
    after (.flitReceive 0 2 3 true 0 5 false true 0) State.reset (fun u => decide (u.out = []) && decide (rd u Reg.NOC_HDR_PAR_CNT = 1)
      && after (.flitReceive 0 2 3 false 0x4000000 5 true true 0) u (fun v => decide (v.out = []))) = true ∧
    after (.flitReceive 0 2 0 true 0x4000000 0x100000000000 true true 0) State.reset (fun u => decide (u.out = [.resp 0 FENCED []])) = true ∧
    after (.flitReceive 0 2 3 true 0 5 true true 0) (isolateOne State.reset 0 4) (fun u => decide (u.noc.held.length = 1) && decide (u.out = [])) = true := by
  decide +kernel

/-- A packet with both turn bits set is to go north, to a router nearer the root. -/
theorem test_flitReceive_up :
    let s := withRegs State.reset [(Reg.NOC_RSTAT 4, 0)]
    let s := { s with noc := { s.noc with routes := [(routeKey 4 0 0, 16)] } }
    facing 4 0 = some (0, 1) ∧ fld s (Reg.NOC_RSTAT 0) F.NOC_RSTAT_LEVEL * 256 + 0 < fld s (Reg.NOC_RSTAT 4) F.NOC_RSTAT_LEVEL * 256 + 4 ∧
    after (.flitReceive 4 1 3 true 0x3000000 5 true true 0) s (fun u => decide (rd u Reg.NOC_ROUTE_ERR_CNT = 1) && decide (u.out = [])) = true := by
  decide +kernel

theorem test_routeArounds :
    isolated State.reset 0 2 = false ∧ (unit State.reset (uPort 0 2)).mute = 0 ∧ epochSt State.reset = 0 ∧
    after (.linkHeartbeatLoss 0 2) State.reset (fun u => isolated u 0 2 && isolated u 1 3 && decide (epochSt u = 1)
      && decide (rd u Reg.RAS_PORT_FLT_CNT = 1)) = true ∧
    after (.routeAroundRequest 0 2) (setEpochSt State.reset 3) (fun u => decide (u.noc.heldReq = [2]) && decide (epochSt u = 3)) = true ∧
    after .routeBankInstalled (setEpochSt State.reset 1) (fun u => decide (epochSt u = 2)) = true ∧
    after (.injectionPortsSwitched 7) (setEpochSt State.reset 2) (fun u => decide (rd u Reg.NOC_EPOCH = 0x10007)
      && decide (rd u Reg.NOC_OLDEPOCH_CNT = 7)) = true ∧
    after .oldEpochDrained (setEpochSt State.reset 3) (fun u => decide (epochSt u = 0)) = true ∧
    after (.drainLimitExpiry [5, 6]) (setEpochSt State.reset 3) (fun u => decide (epochSt u = 0) && decide (rd u Reg.NOC_FENCE_DROP = 2)) = true ∧
    after .oldEpochDrained (setFld { setEpochSt State.reset 3 with noc := { heldReq := [2] } } Reg.NOC_EPOCH F.NOC_EPOCH_HELD 1)
      (fun u => decide (epochSt u = 1) && isolated u 0 2) = true := by decide +kernel

theorem test_routeTableWrite :
    let s := withRegs State.reset [(Reg.NOC_RT_SEL, 0x10203)]
    direct s (.mc 0) Reg.NOC_RT_DATA = true ∧ selectedRoute s = routeKey 2 1 3 ∧
    after (.routeTableWrite (.mc 0) 0x15) s (fun u => decide (routeEntry u 2 1 3 = 0x15)) = true ∧
    after (.routeTableWrite (.mc 0) 0x29) { s with noc := { s.noc with routes := [(routeKey 2 1 3, 5)] } } (fun u => decide (routeEntry u 2 1 3 = 0x25))
      = true ∧
    after (.routeTableWrite (.mc 0) 0x15) State.reset (fun u => isSet u Reg.NOC_EVT F.NOC_EVT_RT_REFUSE) = true := by decide +kernel

theorem test_probeClear :
    let s := withRegs State.reset [(Reg.PRB_CNT_HI 31, 5), (Reg.PRB_TWR 31, 9)]
    direct s (.mc 0) (Reg.PRB_CTL 31) = true ∧ after (.probeClear (.mc 0) 31) s (fun u => decide (u = State.reset)) = true := by decide +kernel

/-! ## The Ochre link -/

/-- Lane 95 in a training state, at a late time. -/
def sLane (st : Nat) (g : LaneS → LaneS) : State :=
  updLane (setLn { State.reset with tim := { raw := 0xFFFFFFFF } } 95 st) 95 g

theorem test_laneEnable :
    let s := sLane 0 id
    direct s (.mc 0) (lnReg Reg.LN_CTL 95) = true ∧ unitSt s (uLane 95) = 0 ∧ isSet s (lnReg Reg.LN_CTL 95) F.LN_CTL_EN = false ∧
    after (.laneEnable (.mc 0) 95) s (fun u => decide (lnState u 95 = 1)) = true ∧
    after (.laneDisable (.mc 0) 95) (setFld (sLane 6 fun x => { x with egress := [missingItem 0 0 0] }) (lnReg Reg.LN_CTL 95) F.LN_CTL_EN 1)
      (fun u => decide (lnState u 95 = 0) && decide (rd u (Reg.LNK_EGLATE_CNT 11) = 1)) = true := by decide +kernel

theorem test_signal :
    lnkMinimal (sLane 1 id) = false ∧ after (.signalPresent 95) (sLane 1 id) (fun u => decide (lnState u 95 = 2)) = true ∧
    training (sLane 3 id) 95 = true ∧ after (.signalLost 95) (sLane 3 id) (fun u => decide (lnState u 95 = 1)) = true := by decide +kernel

theorem test_blocks :
    after (.blockReceive 95 2 5) (sLane 2 fun x => { x with valid := 63 }) (fun u => decide ((lane u 95).valid = 64)
      && after (.blockLock 95) u (fun v => decide (lnState v 95 = 3) && decide (v.out.length = 1)
        && after (.blockReceive 95 1 5) v (fun z => decide (rd z (lnReg Reg.LN_BLKHDR_ERR_CNT 95) = 1)))) = true ∧
    after (.blockReceive 95 3 5) (setFld (sLane 2 id) (lnReg Reg.LN_CTL 95) F.LN_CTL_AUTOSLIP 0)
      (fun u => isSet u (lnReg Reg.LN_STAT 95) F.LN_STAT_SLIPREQ) = true ∧
    after (.blockReceive 95 2 0x14B) (setLnF (sLane 3 id) 95 F.LN_STAT_BLOCKLOCK 1) (fun u => decide ((lane u 95).trn.map (·.1) = some 1)) = true ∧
    after (.blockLockLost 95) (setLnF (sLane 3 fun x => { x with window := List.replicate 16 true }) 95 F.LN_STAT_BLOCKLOCK 1)
      (fun u => !isSet u (lnReg Reg.LN_STAT 95) F.LN_STAT_BLOCKLOCK) = true := by decide +kernel

/-- The partner's CAPS as lane 95 expects them. -/
theorem test_training :
    capsCheck (sLane 3 id) 95 (3 * 2 ^ 16 + 2 ^ 20 + 7 * 2 ^ 21 + 2 ^ 24) = 0 ∧ capsCheck (sLane 3 id) 95 0 = 4 ∧
    after (.caps 95) (sLane 3 fun x => { x with trn := some (1, 3 * 2 ^ 16 + 2 ^ 20 + 7 * 2 ^ 21 + 2 ^ 24), ackIn := true })
      (fun u => decide (lnState u 95 = 4) && decide (u.out.length = 2)) = true ∧
    after (.caps 95) (sLane 3 fun x => { x with trn := some (1, 0) }) (fun u => decide (lnState u 95 = 7)
      && decide (fld u (lnReg Reg.LN_STAT 95) F.LN_STAT_FAIL = 4)) = true ∧
    after (.ack 95) (sLane 3 fun x => { x with trn := some (2, 0), capsOk := true }) (fun u => decide (lnState u 95 = 4)) = true ∧
    after (.nak 95) (sLane 3 fun x => { x with trn := some (3, 0), fromAbsent := true }) (fun u => decide (lnState u 95 = 8)) = true ∧
    after (.handover 95) (sLane 4 id) (fun u => decide (lnState u 95 = 5)) = true := by decide +kernel

theorem test_checkPass :
    after (.checkPass 95) (sLane 5 fun x => { x with good := 4 }) (fun u => decide (lnState u 95 = 6)) = true ∧
    after (.checkPass 94) (setUnitSt (setLn (updLane (wr State.reset (Reg.LNK_CTL 11) 3) 94 fun x => { x with good := 4 }) 94 5) (uLane 94) 1)
      (fun u => decide (lnState u 94 = 6) && decide (unitSt u (uLane 94) = 0)) = true ∧
    prot (wr State.reset (Reg.LNK_CTL 11) 3) 11 = false := by decide +kernel

theorem test_timers :
    after (.attemptTimeout 95) (sLane 2 id) (fun u => decide (lnState u 95 = 7) && decide (fld u (lnReg Reg.LN_STAT 95) F.LN_STAT_FAIL = 1)) = true ∧
    after (.backoffEnd 95) (sLane 7 id) (fun u => decide (lnState u 95 = 1)) = true ∧
    after (.absentRetry 95) (setLnF (sLane 8 id) 95 F.LN_STAT_SIGNAL 1) (fun u => decide (lnState u 95 = 2) && (lane u 95).fromAbsent) = true ∧
    direct (sLane 2 id) .spi (lnReg Reg.LN_SLIP 95) = true ∧
    after (.lnSlip .spi 95) (setLnF (sLane 2 id) 95 F.LN_STAT_SLIPREQ 1) (fun u => !isSet u (lnReg Reg.LN_STAT 95) F.LN_STAT_SLIPREQ) = true := by
  decide +kernel

theorem test_laneTests :
    carriesStream (setSw (sLane 1 id) 11 0 0) 95 = false ∧
    after (.lnTest (.mc 0) 95 true) (sLane 1 id) (fun u => decide (lnState u 95 = 9)
      && after (.lnTest (.mc 0) 95 false) u (fun v => decide (lnState v 95 = 1))) = true ∧
    after (.lnTest (.mc 0) 95 true) (sLane 6 id) (fun u => isSet u (lnReg Reg.LN_EVT 95) F.LN_EVT_TEST_REFUSE) = true ∧
    direct (sLane 9 id) (.mc 0) (lnReg Reg.LN_PRBS 95) = true ∧
    after (.lnPrbs (.mc 0) 95 0x3E) (wr (sLane 9 id) (lnReg Reg.LN_PRBS_ERR 95) 7) (fun u => decide (rd u (lnReg Reg.LN_PRBS_ERR 95) = 0)
      && after (.prbsCheckerLock 95) u (fun v => isSet v (lnReg Reg.LN_PRBS_STAT 95) F.LN_PRBS_STAT_LOCK
        && after (.prbsCheckerLockLost 95 64) v (fun z => decide (rd z (lnReg Reg.LN_PRBS_ERR 95) = 64)))) = true ∧
    after (.farEndBufferSlip 95) (setFld (sLane 9 id) (lnReg Reg.LN_CTL 95) F.LN_CTL_LOOP 3)
      (fun u => isSet u (lnReg Reg.LN_EVT 95) F.LN_EVT_FE_OVF) = true ∧
    direct (sLane 9 id) (.mc 0) (lnReg Reg.LN_INJ 95) = true ∧
    after (.lnInj (.mc 0) 95 0x53) (sLane 6 id) (fun u => decide ((lane u 95).injHdr = 5)) = true := by decide +kernel

/-- A message of 16 bytes that waits, and a section of a control stream. -/
def ctlSec : List Byte := leBytes 4 (5 + 2 * 2 ^ 16) ++ leBytes 4 (9 + 4 * 2 ^ 16) ++ leBytes 8 0 ++ [1, 2, 3, 4]

theorem test_frames :
    (lane (sLane 6 id) 95).msgs = [] ∧ (lane (sLane 6 id) 95).egress = [] ∧ (sLane 6 id).tim.ttx = none ∧
    ([(true, ctrlMsg 1 0 0 0)] : List (Bool × List Byte)).any (·.1) = true ∧
    ({ t := 5, stream := 3, slot := 9, missing := false, fmt := 1, bytes := [7] } : EgItem).stream < 256 ∧
    unstuff 0 false (List.replicate 16 true) = none ∧ unstuff 0 false [true] = some [true] ∧ findHeader [true] 0 7 = none ∧
    after (.frameTransmit 95 0) (sLane 1 id) (fun u => decide (u = sLane 1 id)) = true ∧
    after (.frameReceive 95 0 (List.replicate 16 true)) (sLane 6 id) (fun u => decide (rd u (lnReg Reg.LN_STUFF_ERR_CNT 95) = 1)) = true ∧
    after (.frameReceive 95 0 [true]) (sLane 5 id) (fun u => decide (rd u (lnReg Reg.LN_HCRC_ERR_CNT 95) = 1 ∧ (lane u 95).rxSeq = 1)) = true := by
  decide +kernel

/-- A header of lane 7 alone, with SEQ 1 where 0 is expected. -/
theorem test_frameCut :
    let bs := scramble (scrSeed 1) (bytesToBits (leBytes 8 (0x10700 + hcrc 0x10700 * 2 ^ 56)))
    unstuff 0 false (stuff 0 false bs) = some bs ∧ findHeader bs 0 7 = some (1, 0x10700 + hcrc 0x10700 * 2 ^ 56) ∧
    bs.length ≠ 16480 := by decide +kernel

/-- A whole frame of lane 7 with one section, SEQ 0 and any payload meets every hypothesis of a good frame. -/
theorem test_frameGood (payload : List Byte) (hp : payload.length = 2048) :
    let hdr := 0x1702 + hcrc 0x1702 * 2 ^ 56
    let p := leBytes 8 hdr ++ payload
    let bs := scramble (scrSeed 0) (bytesToBits (p ++ leBytes 4 (crcOf 6 p)))
    unstuff 0 false (stuff 0 false bs) = some bs ∧ findHeader bs 0 7 = some (0, hdr) ∧ bits hdr 0 4 = 2 ∧ bits hdr 12 4 = 1 ∧
    (let bytes := bitsToBytes 2060 (scramble (scrSeed (0 + 0)) (bs.take 16480))
     decide (bs.length ≠ 16480 ∨ crcOf 6 (bytes.take 2056) ≠ leAt bytes 2056 4)) = false := by
  intro hdr p bs
  have hl : p.length = 2056 := by simp [p, hp]
  obtain ⟨h1, h2, h3, h4⟩ := frame_round_trip 0 p hl
  refine ⟨h1, ?_, by decide +kernel, by decide +kernel, ?_⟩
  · have : bs.take 64 = scramble (scrSeed 0) (bytesToBits (leBytes 8 hdr)) := by
      obtain ⟨tail, ht⟩ := scramble_append (bytesToBits (leBytes 8 hdr)) (bytesToBits (payload ++ leBytes 4 (crcOf 6 p))) (scrSeed 0)
      have : bs = scramble (scrSeed 0) (bytesToBits (leBytes 8 hdr)) ++ tail := by
        rw [← ht, ← bytesToBits_append, ← List.append_assoc]
      rw [this]
      exact List.take_left' (by simp)
    unfold findHeader
    rw [this]
    decide +kernel
  · have hb : (p ++ leBytes 4 (crcOf 6 p)).take 2056 = p := List.take_left' hl
    simp only [Nat.add_zero]
    rw [decide_eq_false_iff_not, not_or, not_not, not_not]
    refine ⟨h2, ?_⟩
    rw [h3, h4, hb, Nat.mod_eq_of_lt (crcOf_lt p)]

/-- Bundle 0's stream 5 is bound to a buffer at 0x1000 of one section, presence at 0x1040. -/
def rxB : RxBind :=
  { pal := 1, buf := 0, slot := 9, first := 5, addr := 0x1000, expect := 1, pres := 64, cfg := 0, layout := 0, tdoff := 0, headLayout := 0,
    closed := false, count := 0, start := 0, period := 0 }

/-- Lane 0 has received a control section of stream 5. -/
def sSec (bind : Bool) : State :=
  let s := setFence (wr (wr sAct (Reg.PWR_DOMAIN_STATE 23) 0) Reg.MEM_CTL 1) (uLane 0) {}
  let s := updLane (setLn s 0 6) 0 fun x => { x with rxSecs := [{ type := 1, nsec := 1, stamp := 0, seq := 0, bytes := ctlSec }] }
  let s := setFld (setFld s (Reg.RXS_CFG 0 5) F.RXS_CFG_EN 1) (Reg.RXS_CFG 0 5) F.RXS_CFG_FMT 2
  let c := rd s (Reg.RXS_CFG 0 5)
  let h := putF (putF 0 F.RXS_LAYOUT_NSEC 1) F.RXS_LAYOUT_STRIDE 1
  if bind then { s with lnk := { s.lnk with rx := [(5, [{ rxB with cfg := c, headLayout := h }])] } } else s

theorem test_sectionReceive :
    fenced (sSec true) (uLane 0) = false ∧ getF (rd (sSec true) (Reg.RXS_CFG 0 5)) F.RXS_CFG_EN = 1 ∧ bits (leAt ctlSec 0 4) 16 4 = 2 ∧
    getF (rd (sSec true) (Reg.RXS_CFG 0 5)) F.RXS_CFG_FMT = 2 ∧ getF (rd (sSec true) (Reg.RXS_CFG 0 5)) F.RXS_CFG_LANE = 0 ∧
    ((rxBinds (sSec true) 5).find? fun d => decide (d.slot % 2 ^ 16 = bits (leAt ctlSec 4 4) 0 16)).isSome = true ∧
    ((rxBinds (sSec false) 5).find? fun d => decide (d.slot % 2 ^ 16 = bits (leAt ctlSec 4 4) 0 16)) = none ∧
    lenOk (leAt ctlSec 0 4) (leAt ctlSec 4 4) (leAt ctlSec 8 4) = true ∧ 16 + bits (leAt ctlSec 4 4) 16 11 ≤ ctlSec.length ∧
    (fabPosts 16 (sSec true) (lnkIssuer 0 0) 0x1000 ctlSec).1 = OKAY ∧
    after (.sectionReceive 0) (sSec true) (fun u => decide (memGetN u.mem 0x1010 4 = [1, 2, 3, 4] ∧ memGet u.mem 0x1040 = 1)) = true ∧
    after (.sectionReceive 0) (sSec false) (fun u => decide (rd u (Reg.LNK_NOBIND_CNT 0) = 1)) = true ∧
    after (.sectionReceive 0) (setFld (sSec true) (Reg.RXS_CFG 0 5) F.RXS_CFG_EN 0) (fun u => decide (rd u (Reg.LNK_NOSTREAM_CNT 0) = 1)) = true ∧
    after (.sectionReceive 0) (setFence (sSec true) (uLane 0) { st := 3 }) (fun u => decide (u.mem = [] ∧ (lane u 0).rxSecs = [])) = true := by decide +kernel

/-- An EGRESS buffer of one stream, and a read of its section. -/
def sTx (committed : Bool) : State :=
  let s := setLn sAct 0 6
  let c := putF 0 F.TXS_CFG_EN 1
  let l := putF (putF 0 F.TXS_LAYOUT_NSEC 1) F.TXS_LAYOUT_STRIDE 1
  { s with
    tim := { s.tim with raw := 100 }
    lnk := { s.lnk with tx := [⟨1, 5, 0, 7, 100, 3, 1, 0x1000, l, [c], committed⟩] } }

theorem test_egress :
    let r : EgRead := { stream := 5, cfg := putF (putF 0 F.TXS_CFG_EN 1) F.TXS_CFG_FMT 2, addr := 0x1000, len := 64, t := 7, slot := 9 }
    let s := storeN (sSec false) 0x1000 ctlSec
    let s := { s with lnk := { s.lnk with reads := [r] } }
    reached (raw (sTx true)) 100 = true ∧
    after (.egressTransmitTime ⟨5, 7⟩ 0) (sTx true) (fun u => decide (u.lnk.reads.map (fun x => (x.stream, x.addr, x.len)) = [(3, 0x1000, 64)])) = true ∧
    after (.egressTransmitTime ⟨5, 7⟩ 0) (sTx false) (fun u => decide ((lane u 0).egress = [missingItem 3 7 100])) = true ∧
    egressLane s 0 0 = 0 ∧ lnState s 0 = 6 ∧ (fabReads 32 s (lnkIssuer 0 0) 0x1000 64).1 = OKAY ∧
    (fabReads 32 s (lnkIssuer 0 0) 0x1000 64).2.1.length = 64 ∧
    after (.egressReadResponse false) s (fun u => decide ((lane u 0).egress.map (fun e => (e.missing, e.bytes.drop 16)) = [(false, [1, 2, 3, 4])])) = true ∧
    after (.egressReadResponse true) s (fun u => decide ((lane u 0).egress = [missingItem 5 9 7])) = true := by decide +kernel

theorem test_linkControl :
    let s := updLane (setLn sAct 0 6) 0 fun x => { x with egress := [⟨0, 3, 1, false, 1, [7]⟩] }
    direct sAct (.mc 0) (Reg.LNK_TXTS_REQ 11) = true ∧ direct sAct (.mc 0) (Reg.LNK_TXTS_POP 11) = true ∧ direct sAct (.mc 0) (Reg.LNK_CTL 11) = true ∧
    ((upto 8).all fun k => !isSet sAct (Reg.LN_CTL 11 k) F.LN_CTL_EN) = true ∧
    after (.egressLateLimit 0) { s with tim := { s.tim with raw := 100000 } } (fun u => decide ((lane u 0).egress = [missingItem 3 1 0])) = true ∧
    after (.lnkTxtsReq (.mc 0) 11 3) sAct (fun u => (lane u 91).tsreq) = true ∧
    after (.lnkTxtsPop (.mc 0) 11) (updBundle sAct 11 fun x => { x with txts := [(1, 2), (3, 4)] }) (fun u => decide ((bundle u 11).txts = [(3, 4)])) = true ∧
    after (.lnkCtlWrite (.mc 0) 11 1) sAct (fun u => decide (fld u (Reg.LNK_CTL 11) F.LNK_CTL_RATE = getF 1 F.LNK_CTL_RATE)) = true ∧
    after (.lnkCtlWrite (.mc 0) 11 3) (setFld sAct (Reg.LN_CTL 11 7) F.LN_CTL_EN 1) (fun u => isSet u (Reg.LNK_EVT 11) F.LNK_EVT_CFG_REFUSE) = true := by decide +kernel

/-- Bundle 0 is protected, lanes 0 and 7 are UP, lane 0 has a section waiting; the spare's state and lane. -/
def sSpare (st k : Nat) : State :=
  let s := setFld (setFld sAct (Reg.LNK_CTL 0) F.LNK_CTL_PROT 1) (Reg.LNK_CTL 0) F.LNK_CTL_AUTO_SW 1
  let s := setFence (setFence (setLn (setLn s 0 6) 7 6) (uLane 0) {}) (uLane 7) {}
  updLane (setSw s 0 st k) 0 fun x => { x with egress := [⟨0, 3, 1, false, 1, [7]⟩] }

theorem test_lossOfLock :
    prot (sSpare 0 0) 0 = true ∧ (unit (sSpare 0 0) (uLane 0)).mute = 0 ∧ isSet (sSpare 0 0) (Reg.LNK_CTL 0) F.LNK_CTL_AUTO_SW = true ∧
    after (.lossOfLock 0) (sSpare 0 0) (fun u => decide (swState u 0 = 1 ∧ swLane u 0 = 0 ∧ lnState u 0 = 1 ∧ (lane u 7).egress.length = 1)) = true ∧
    after (.lossOfLock 0) (sSpare 2 3) (fun u => decide (swState u 0 = 2 ∧ (lane u 0).egress = [])) = true ∧
    after (.lossOfLock 7) (sSpare 2 3) (fun u => (bundle u 0).spareLost && isSet u (Reg.LNK_EVT 0) F.LNK_EVT_SWITCH_FAIL) = true ∧
    after (.lossOfLock 0) (setFld (sSpare 0 0) (Reg.LNK_CTL 0) F.LNK_CTL_PROT 0) (fun u => decide (swState u 0 = 0 ∧ (lane u 0).egress = [])) = true := by
  decide +kernel

/-- A control message has come in on lane 7; the bundle may have a message of its own in flight. -/
def withMsg (s : State) (m : List Byte) (own : Option (List Byte)) : State :=
  updBundle (updLane s 7 fun x => { x with rxMsgs := [⟨3, 1, 0, 0, m⟩] }) 0 fun x => { x with own := own.map fun o => (o, 0, 0) }

theorem test_switch :
    headMsg (withMsg (sSpare 0 0) (ctrlMsg 1 9 0 (2 ^ 24)) none) 7 1 ⟨3, 1, 0, 0, ctrlMsg 1 9 0 (2 ^ 24)⟩ [] ∧
    bitAt (leAt (ctrlMsg 1 9 0 (2 ^ 24)) 7 1) 0 = true ∧ bitAt (leAt (ctrlMsg 1 9 0 0) 7 1) 0 = false ∧
    after (.switch 7) (withMsg (sSpare 0 0) (ctrlMsg 1 9 0 (2 ^ 24)) none) (fun u => decide (swState u 0 = 1 ∧ (lane u 7).egress.length = 1)) = true ∧
    after (.switch 7) (withMsg (setLn (sSpare 0 0) 7 5) (ctrlMsg 1 9 0 (2 ^ 24)) none) (fun u => decide (swState u 0 = 0 ∧ (lane u 0).msgs.length = 1)) = true ∧
    after (.switch 7) (withMsg (sSpare 0 0) (ctrlMsg 1 9 0 0) none) (fun u => decide (swState u 0 = 0 ∧ (lane u 7).msgs.length = 1)) = true ∧
    after (.switch 7) (withMsg (sSpare 2 3) (ctrlMsg 1 9 3 0) none) (fun u => decide ((lane u 7).msgs.map (·.2) = [ctrlMsg 2 0 3 9])) = true ∧
    after (.switch 7) (withMsg (sSpare 2 3) (ctrlMsg 1 9 4 0) none) (fun u => decide ((lane u 7).msgs.map (·.2) = [ctrlMsg 2 0 4 (9 + 256)])) = true ∧
    after (.switch 7) (withMsg (sSpare 2 3) (ctrlMsg 2 9 4 0) none) (fun u => decide (u = withMsg (sSpare 2 3) (ctrlMsg 2 9 4 0) none)) = true := by
  unfold headMsg
  decide +kernel

theorem test_switchAck :
    let m := ctrlMsg 1 5 3 0
    let partner := updBundle (withMsg (sSpare 1 3) (ctrlMsg 2 6 3 (5 + 256)) (some m)) 0 fun x => { x with partner := some 0 }
    ownMid (withMsg (sSpare 1 3) (ctrlMsg 2 6 3 5) (some m)) 0 = some (1, 5) ∧ swLane partner 0 > 0 ∧ lnState partner 7 = 6 ∧
    after (.switchAck 7) (withMsg (sSpare 1 3) (ctrlMsg 2 6 3 5) (some m)) (fun u => decide (swState u 0 = 2 ∧ (bundle u 0).own = none)) = true ∧
    after (.switchAck 7) (withMsg (sSpare 2 3) (ctrlMsg 2 6 3 5) (some m)) (fun u => decide (swState u 0 = 2 ∧ (bundle u 0).own = none)) = true ∧
    after (.switchAck 7) (withMsg (sSpare 1 3) (ctrlMsg 2 6 3 4) (some m)) (fun u => decide (swState u 0 = 1 ∧ (bundle u 0).own.isSome = true)) = true ∧
    after (.switchAck 7) partner (fun u => decide (swState u 0 = 1 ∧ swLane u 0 = 0 ∧ (lane u 7).egress.length = 1)) = true ∧
    after (.switchAck 7) (updBundle partner 0 fun x => { x with partner := some 5 }) (fun u => decide (swLane u 0 = 3)) = true := by decide +kernel

theorem test_revert :
    after (.revert 7) (withMsg (sSpare 2 3) (ctrlMsg 3 9 3 (2 ^ 24)) none) (fun u => decide (swState u 0 = 3)) = true ∧
    after (.revert 7) (withMsg (sSpare 3 3) (ctrlMsg 3 9 3 0) none) (fun u => decide (swState u 0 = 3 ∧ (lane u 7).msgs.length = 1)) = true ∧
    after (.revertAck 7) (withMsg (sSpare 3 0) (ctrlMsg 4 6 0 5) (some (ctrlMsg 3 5 0 0))) (fun u => decide (swState u 0 = 0)
      && isSet u (Reg.LNK_EVT 0) F.LNK_EVT_REVERT_DONE) = true := by decide +kernel

theorem test_resend :
    let s := updBundle (sSpare 1 3) 0 fun x => { x with own := some (ctrlMsg 1 5 3 0, 0, 0) }
    let late (s : State) (t : Nat) : State := { s with tim := { s.tim with raw := t } }
    (bundle s 0).own = some (ctrlMsg 1 5 3 0, 0, 0) ∧ 0 + 196608 ≤ rawTotal (late s 1967) * 100 ∧ rawTotal (late s 1966) * 100 < 0 + 196608 ∧
    after (.switchResend 0) (late s 1967) (fun u => decide ((lane u 7).msgs.length = 1)) = true ∧
    after (.switchResend 0) (late s 1966) (fun u => decide ((lane u 7).msgs = [])) = true ∧
    after (.switchAckTimeout 0) (late s 1966080) (fun u => decide (swState u 0 = 2)) = true ∧
    after (.switchAckTimeout 0) (late s 1966079) (fun u => decide (swState u 0 = 1)) = true := by decide +kernel

theorem test_force :
    direct sAct (.mc 0) (Reg.LNK_SPARE_CTL 0) = true ∧
    after (.spareForce (.mc 0) 0 0) (sSpare 0 0) (fun u => decide (swState u 0 = 1 ∧ swLane u 0 = 0)) = true ∧
    after (.spareForce (.mc 0) 0 7) (sSpare 0 0) (fun u => decide (swState u 0 = 0)) = true ∧
    after (.spareRevert (.mc 0) 0 0) (sSpare 2 0) (fun u => decide (swState u 0 = 3)) = true ∧
    after (.spareRevert (.mc 0) 0 0) (sSpare 1 0) (fun u => decide (swState u 0 = 1)) = true := by decide +kernel

theorem test_lnkalignLost :
    after .lnkalignLost (setFld (sSpare 0 0) Reg.TIM_STATUS F.TIM_STATUS_LNKALIGN 1) (fun u => decide (lnState u 0 = 1 ∧ lnState u 7 = 1)
      && isSet u Reg.TIM_EVT F.TIM_EVT_LNKALIGN_LOST) = true ∧
    after .lnkalignLost (setFld (sSpare 0 0) Reg.TIM_STATUS F.TIM_STATUS_LNKALIGN 0) (fun u => decide (lnState u 0 = 6)) = true := by decide +kernel

/-! ## Time -/

/-- After reset with the count at a value, and some registers set. -/
def sTim (raw : Nat) (l : List (Nat × Word)) : State :=
  { withRegs sAct l with tim := { sAct.tim with raw := raw, counting := true } }

theorem test_aonPll :
    after .aonPllLock State.reset (fun u => u.tim.counting && isSet u Reg.TIM_STATUS F.TIM_STATUS_LOCK) = true ∧
    after .aonPllLoss (setFld State.reset Reg.TIM_STATUS F.TIM_STATUS_LOCK 1) (fun u => isSet u Reg.TIM_EVT F.TIM_EVT_HOLDOVER) = true ∧
    after .lnkalign State.reset (fun u => isSet u Reg.TIM_STATUS F.TIM_STATUS_LNKALIGN) = true := by decide +kernel

/-- R391: at the wrap the offset takes 2^48. -/
theorem test_wrap :
    raw (sTim (2 ^ 48 - 1) []) = 2 ^ 48 - 1 ∧ 2 ^ 44 ≤ timD (sTim (2 ^ 45) []) ∧ timD (sTim 7 []) < 2 ^ 44 ∧
    after .timWrap (sTim (2 ^ 48 - 1) []) (fun u => decide (raw u = 0 ∧ rd u Reg.TIM_WRAP_CNT = 1 ∧ timOffset u = 2 ^ 48)) = true ∧
    after .timRebase (sTim (2 ^ 45) [(Reg.TIM_RATE, 0x10000)]) (fun u => decide (timBase u = 2 ^ 45 ∧ timNow u = timNow (sTim (2 ^ 45) [(Reg.TIM_RATE, 0x10000)]))) = true := by
  decide +kernel

theorem test_disciplined :
    let on := withRegs sAct [(fnKey 0 Reg.SWATCH_STAT, 1), (fnKey 0 (Reg.DRV_SWATCH 0), 2 ^ 11 + 2 ^ 12)]
    direct sAct (.mc 0) Reg.TIM_RATE = true ∧ direct on (.mc 0) Reg.TIM_STEP = true ∧ feature on 0 11 = true ∧ feature sAct 0 11 = false ∧
    direct sAct (.mc 0) Reg.TIM_OFFSET_HI = true ∧
    after (.timRate (.mc 0) 5) sAct (fun u => decide (rd u Reg.TIM_RATE = 5 ∧ rd u Reg.TIM_PARAM_GEN = 1)) = true ∧
    after (.timStep (.mc 0) 0xFFFFFFFE) on (fun u => decide (timOffset u = 2 ^ 64 - 2)) = true ∧
    after (.timStep (.mc 0) 5) sAct (fun u => decide (timOffset u = 0)) = true ∧
    after (.timOffsetHi (.mc 0) 3) sAct (fun u => decide (timOffset u = 3 * 2 ^ 32) && isSet u Reg.TIM_STATUS F.TIM_STATUS_SET) = true := by decide +kernel

theorem test_timReads :
    heard (sTim 77 []) (.mc 0) Reg.TIM_NOW_LO = true ∧ heard (sTim 77 []) (.mc 0) Reg.TIM_PPSIN_LO = true ∧
    after (.timNowLo (.mc 0) false) (sTim 77 []) (fun u => decide (u.out = [.read (.mc 0) Reg.TIM_NOW_LO 77])) = true ∧
    after (.timPpsinLo (.mc 0) false) (sTim 77 [(Reg.TIM_PPSIN_STAT, 1)]) (fun u => !isSet u Reg.TIM_PPSIN_STAT F.TIM_PPSIN_STAT_VALID) = true ∧
    heard (sTim 77 []) .spi Reg.TIM_PPSIN_LO = true ∧
    after (.timPpsinLo .spi false) (sTim 77 [(Reg.TIM_PPSIN_STAT, 1)]) (fun u => isSet u Reg.TIM_PPSIN_STAT F.TIM_PPSIN_STAT_VALID) = true := by decide +kernel

/-- R395 to R397: a periodic unit skips what has passed; unit 15 drives PPS_OUT. -/
theorem test_compare :
    let ctl (en per act : Nat) : Word := putF (putF (putF 0 F.TIM_CMP_CTL_EN en) F.TIM_CMP_CTL_PERIODIC per) F.TIM_CMP_CTL_ACT act
    let s := sTim 1000 [(Reg.TIM_CMP_CTL 15, ctl 1 1 0), (Reg.TIM_CMP_TGT_LO 15, 100), (Reg.TIM_CMP_PERIOD 15, 300)]
    let p := sTim 1000 [(Reg.TIM_CMP_CTL 15, ctl 1 0 2), (Reg.TIM_CMP_TGT_LO 15, 100), (Reg.TIM_PPSOUT_W, 8)]
    let g := sTim 1000 [(Reg.TIM_CMP_CTL 1, ctl 1 0 1), (Reg.TIM_CMP_TGT_LO 1, 100), (Reg.MGT_GPIO_FUNC, 8)]
    reached (raw s) (rd64 s (Reg.TIM_CMP_TGT_LO 15)) = true ∧ rd s (Reg.TIM_CMP_PERIOD 15) ≠ 0 ∧ p.tim.ppsEnd = none ∧
    getF (rd g Reg.MGT_GPIO_FUNC) ⟨2 * 1, 2⟩ = 2 ∧
    after (.timCmpFire 15) s (fun u => decide (rd64 u (Reg.TIM_CMP_TGT_LO 15) = 1300 ∧ rd u (Reg.TIM_CMP_SKIP_CNT 15) = 3)) = true ∧
    after (.timCmpFire 15) p (fun u => decide (u.out = [.pps true] ∧ u.tim.ppsEnd = some (1000 + 1024)) && !isSet u (Reg.TIM_CMP_CTL 15) F.TIM_CMP_CTL_EN) = true ∧
    after (.timCmpFire 1) g (fun u => decide (u.out = [.gpioPulse 1])) = true ∧
    after (.timCmpFire 0) s (fun u => decide (u = s)) = true ∧
    after .ppsPulseEnd { p with tim := { p.tim with ppsEnd := some 900 } } (fun u => decide (u.out = [.pps false])) = true ∧
    after .ppsPulseEnd p (fun u => decide (u = p)) = true := by decide +kernel

theorem test_ppsIn :
    let s := sTim 1000 [(Reg.TIM_CTL, putF 0 F.TIM_CTL_PPSIN_EN 1)]
    ppsTaken s true = true ∧ ppsTaken s false = false ∧
    after (.ppsIn true 5) s (fun u => decide (rd64 u Reg.TIM_PPSIN_LO = 64005 - fld s Reg.TIM_PPSIN_LAT F.TIM_PPSIN_LAT_VALUE)
      && isSet u Reg.TIM_EVT F.TIM_EVT_PPSIN) = true := by decide +kernel

theorem test_ttx :
    let s := setLn sAct 0 6
    let busy := setFld s Reg.TIM_TTX_STAT F.TIM_TTX_STAT_BUSY 1
    let good := setFld s (Reg.TIM_TTX_MSG 0) F.TIM_TTX_MSG_TYPE 0x10
    direct s (.mc 0) Reg.TIM_TTX_CTL = true ∧ direct s (.mc 0) Reg.TIM_TRX_POP = true ∧ getF (0 : Word) F.TIM_TTX_CTL_BUNDLE ≤ 11 ∧
    fld good (Reg.TIM_TTX_MSG 0) F.TIM_TTX_MSG_TYPE = 0x10 ∧
    after (.timTtxCtl (.mc 0) 0) busy (fun u => decide (fld u Reg.TIM_TTX_STAT F.TIM_TTX_STAT_ERR = 3)) = true ∧
    after (.timTtxCtl (.mc 0) 0) s (fun u => decide (fld u Reg.TIM_TTX_STAT F.TIM_TTX_STAT_ERR = 1)) = true ∧
    after (.timTtxCtl (.mc 0) 0) (setLn good 0 5) (fun u => decide (fld u Reg.TIM_TTX_STAT F.TIM_TTX_STAT_ERR = 2)) = true ∧
    after (.timTtxCtl (.mc 0) 0) good (fun u => u.tim.ttx.isSome) = true ∧
    after (.timTrxPop (.mc 0)) { s with tim := { s.tim with trx := [⟨[], 0, 0, 0, 0⟩] } } (fun u => decide (u.tim.trx = [])) = true := by decide +kernel

/-- A TIME message of a TYPE has come in on lane 0. -/
def sTimeMsg (type : Nat) (l : List (Nat × Word)) : State :=
  updLane (withRegs sAct l) 0 fun x => { x with rxMsgs := [⟨3, 1, 50, 2, leBytes 16 (type + 0x77 * 2 ^ 32)⟩] }

theorem test_timeMessages :
    let on := [(Reg.TIM_CTL, putF 0 F.TIM_CTL_AUTORESP 1), (fnKey 0 Reg.SWATCH_STAT, 1), (fnKey 0 (Reg.DRV_SWATCH 0), 2 ^ 11 + 2 ^ 12)]
    let r : Responder := { bundle := 0, lane := 0, seqid := 0x77, t2 := 50, respSent := false, t3 := none }
    let q (r : Responder) : State := { sAct with tim := { sAct.tim with resp := [r] } }
    autoResp (sTimeMsg 0x10 on) = true ∧ autoResp (sTimeMsg 0x10 []) = false ∧
    after (.timeReq 0) (sTimeMsg 0x10 on) (fun u => decide (u.tim.resp = [r])) = true ∧
    after (.timeReq 0) (sTimeMsg 0x10 []) (fun u => decide (u.tim.trx.length = 1)) = true ∧
    after (.timeMessageReceive 0) (sTimeMsg 0x11 []) (fun u => decide (u.tim.trx.length = 1 ∧ rd u Reg.TIM_TRX_CNT = 1)) = true ∧
    after (.timeResp 0) (q r) (fun u => decide ((lane u 0).msgs.length = 1 ∧ u.tim.resp = [{ r with respSent := true }])) = true ∧
    after (.timeFollow 0) (q { r with respSent := true, t3 := some 60 }) (fun u => decide ((lane u 0).msgs.length = 1 ∧ u.tim.resp = [])) = true ∧
    after (.timeFollow 0) (q r) (fun u => decide (u = q r)) = true := by decide +kernel

/-! ## Queue pairs -/

/-- The bytes of a palette with one JOIN record, at 0x10000; its CHECK is that of R66. -/
def joinPal : List Byte :=
  let hdr (check : Nat) := leBytes 4 0x504C5431 ++ leBytes 4 1 ++ leBytes 4 1 ++ leBytes 4 0 ++ leBytes 4 100 ++ leBytes 4 0x80 ++ leBytes 4 0x80 ++
    leBytes 8 0 ++ leBytes 4 check ++ List.replicate 88 0
  let rec1 := recOf 4 0 1 0xFFFF 0xFFFF
  hdr (crcOf 6 (hdr 0 ++ rec1)) ++ rec1

/-- Queue pair 0 of the PF is enabled, with 16 entries in each queue, one command at its head, and device memory there. -/
def sQp (entry : List Byte) : State :=
  let q (a : Nat → Nat) := qp 0 0 a
  let s := withRegs (wr (wr sAct (Reg.PWR_DOMAIN_STATE 23) 0) Reg.MEM_CTL 1)
    [(fnKey 0 Reg.SWATCH_STAT, 1), (q Reg.QP_CTL, 3), (q Reg.QP_SQ_BASE_LO, 0x2000), (q Reg.QP_CQ_BASE_LO, 0x1000), (q Reg.QP_SQ_TAIL, 1),
     (q Reg.QP_SIZE, putF (putF 0 F.QP_SIZE_SQ_LOG2 4) F.QP_SIZE_CQ_LOG2 4), (q Reg.QP_CQ_TAIL, putF 0 F.QP_CQ_TAIL_PHASE 1),
     (fnKey 0 (Reg.MSIX_VCTL 0), 0), (fnKey 0 (Reg.MSIX_ADDR_LO 0), 0xFEE0), (fnKey 0 Reg.HIF_CTL, putF 0 F.HIF_CTL_EN 1)]
  hostStore s 0x2000 (entry ++ List.replicate (64 - entry.length) 0)

/-- A command of queue pair 0 in flight. -/
def cmdOf (c : HCmd) (started : Bool) : InFlight := { f := 0, q := 0, cid := 7, imm := false, fence := false, seq := 1, badParam := false, started := started, cmd := c }

def sCmd (c : HCmd) (started : Bool) : State :=
  let s := wr (sQp []) (qp 0 0 Reg.QP_SQ_TAIL) 0
  { s with hif := { s.hif with cmds := [cmdOf c started], seq := 2 } }

/-- Has a completion with the given CID and STATUS been written at the tail? -/
def completes (status : Nat) (u : State) : Bool :=
  decide (leNat (hostLoad u 0x1000 4) = 7 + status * 2 ^ 24 ∧ u.hif.cmds = [] ∧ rd u (fnKey 0 Reg.HIF_CMD_CNT) = 1)

theorem test_qpEnable :
    let off := withRegs sAct [(fnKey 0 Reg.SWATCH_STAT, 1)]
    direct off (.fn 0) (Reg.QP_CTL 5) = true ∧ swAccepted off 0 = true ∧ 5 < ownPairs off 0 ∧ ownPairs off 0 ≤ 16 ∧ direct off (.fn 0) (Reg.QP_CTL 16) = true ∧
    after (.qpEnable (.fn 0) 5) off (fun u => isSet u (qp 0 5 Reg.QP_CTL) F.QP_CTL_EN) = true ∧
    after (.qpEnable (.fn 0) 16) off (fun u => decide (fld u (qp 0 16 Reg.QP_STAT) F.QP_STAT_ERR = 4)) = true ∧
    after (.qpDisable (.fn 0) 0) (sQp []) (fun u => !isSet u (qp 0 0 Reg.QP_CTL) F.QP_CTL_EN) = true := by decide +kernel

theorem test_doorbells :
    let w := { f := 0, q := 0, command := true, imm := false, words := [5, 0, 0, 0, 0, 0] : WaitCpl }
    let full := { wr (wr (sQp []) (qp 0 0 Reg.QP_CQ_HEAD) 3) (qp 0 0 Reg.QP_CQ_TAIL) 2 with hif := { (sQp []).hif with waiting := [w] } }
    rings (sQp []) 0 = true ∧ waits (sQp []) 0 0 = false ∧ rings full 0 = true ∧
    (full.hif.waiting.filter fun c => decide (c.f = 0 ∧ c.q = 0)) = [w] ∧
    cqReady { setFld full (qp 0 0 Reg.QP_CQ_HEAD) F.QP_CQ_HEAD_INDEX 4 with hif := { full.hif with waiting := [] } } 0 0 = true ∧
    after (.sqTailDb 0 0 3) (sQp []) (fun u => decide (fld u (qp 0 0 Reg.QP_SQ_TAIL) F.QP_SQ_TAIL_INDEX = 3)) = true ∧
    after (.sqTailDb 0 0 16) (sQp []) (fun u => decide (rd u (fnKey 0 Reg.HIF_DB_ERR_CNT) = 1)) = true ∧
    after (.cqHeadDb 0 0 1) (sQp []) (fun u => decide (rd u (fnKey 0 Reg.HIF_DB_ERR_CNT) = 1)) = true ∧
    after (.cqHeadDb 0 0 0) (sQp []) (fun u => decide (rd u (fnKey 0 Reg.HIF_DB_ERR_CNT) = 0)) = true ∧
    after (.cqHeadDb 0 0 4) full (fun u => decide (u.hif.waiting = [] ∧ leNat (hostLoad u 0x1040 4) = 5)) = true ∧
    after (.sqTailDb 0 5 1) (sQp []) (fun u => decide (u = sQp [])) = true := by decide +kernel

theorem test_sqFetch :
    firstFrom (fun i => fetchable (sQp []) (i % 2048 / 64) (i % 64)) 2048 0 = some 0 ∧ sqEntries (sQp []) 0 0 = 1 ∧ allStarted (sQp []) = true ∧
    ((takeEntry (sQp []) 0 0).hif.cmds.all holdsStill) = true ∧
    ((takeEntry (sQp [9]) 0 0).hif.cmds.map (·.cmd)) = [.bad 9] ∧ ((takeEntry (sQp [0, 0, 0, 0, 1]) 0 0).hif.cmds.map (·.badParam)) = [true] ∧
    after (.sqFetch false) (sQp []) (fun u => decide (u.hif.cmds.map (·.cmd) = [.nop])) = true ∧
    after (.sqFetch true) (sQp []) (fun u => decide (fld u (qp 0 0 Reg.QP_STAT) F.QP_STAT_ERR = 2)) = true ∧
    after (.sqFetch false) (sQp [9, 0, 7]) (completes stBADOP) = true ∧ after (.sqFetch false) (sQp [0, 0, 7, 0, 1]) (completes stBADPARAM) = true ∧
    after (.sqFetch false) (sQp [5, 0, 7, 0, 0, 0, 0, 0, 1, 1]) (fun u => decide (u.hif.mail.length = 1 ∧ u.hif.cmds.length = 1)) = true := by decide +kernel

theorem test_vectors :
    let s := { sQp [] with hif := { (sQp []).hif with coal := [(0, { p := 1, imm := true })] } }
    let m := withRegs (sQp []) [(fnKey 0 (Reg.MSIX_VCTL 0), 1), (fnKey 0 (Reg.MSIX_PBA 0), 1)]
    coal s 0 0 = { p := 1, imm := true } ∧ coalDue s 0 0 = true ∧ 0 < msixSize s 0 ∧ isSet s (fnKey 0 (Reg.MSIX_VCTL 0)) F.MSIX_VCTL_MASK = false ∧
    direct m (.fn 0) (Reg.MSIX_VCTL 0) = true ∧ direct (sQp []) (.fn 0) (Reg.MSIX_VCTL 0) = true ∧
    after (.coalesceTimer 0 0) s (fun u => decide (u.out = [.msix 0 0 0xFEE0 0] ∧ coal u 0 0 = {})) = true ∧
    after (.msixUnmask (.fn 0) 0) m (fun u => decide (u.out = [.msix 0 0 0xFEE0 0]) && !isSet u (fnKey 0 (Reg.MSIX_PBA 0)) ⟨0, 1⟩) = true ∧
    after (.msixUnmask (.fn 0) 0) (sQp []) (fun u => decide (u.out = [])) = true := by decide +kernel

theorem test_nop :
    after (.nopCommand 0 0) (sCmd .nop false) (completes stOK) = true ∧
    after (.nopCommand 0 0) (sCmd (.load false 0x10000) false) (fun u => decide (u.hif.cmds.length = 1)) = true ∧
    holdsStill (cmdOf (.load false 0x10000) false) = true := by decide +kernel

theorem test_load :
    let v : Validated := { handle := 3, addr := 0x10000, func := 0, releasing := false }
    let withV (s : State) : State := { s with hif := { s.hif with valid := [v] } }
    let used := { withV (sCmd (.load true 0x10000) false) with tln := sPal.tln }
    validOf (withV (sCmd (.load false 0x10000) false)) 0 0x10000 = some v ∧ noRelease used = true ∧ referred used v = true ∧
    referred (withV (sCmd (.load true 0x10000) false)) v = false ∧
    after (.loadPaletteValidate 0 0) (withV (sCmd (.load false 0x10000) false)) (completes stOK) = true ∧
    after (.loadPaletteValidate 0 0) (sCmd (.load false 0x10000) false) (fun u => decide ((validations u).length = 1)) = true ∧
    after (.loadPaletteRelease 0 0) (sCmd (.load true 0x10000) false) (completes stDENIED) = true ∧
    after (.loadPaletteRelease 0 0) (withV (sCmd (.load true 0x10000) false)) (fun u => completes stOK u && decide (u.hif.valid = [])) = true ∧
    after (.loadPaletteRelease 0 0) used (fun u => decide (u.hif.valid = [{ v with releasing := true }] ∧ u.hif.cmds.length = 1)) = true := by decide +kernel

theorem test_validation :
    let s := storeN (sCmd (.load false 0x10000) true) 0x10000 joinPal
    let bad := sCmd (.load false 0x10000) true
    (validateImage s 0 0x10000).1 = none ∧ (validateImage bad 0 0x10000).1 = some (0, 0, 1) ∧ validOf s 0 0x10000 = none ∧
    after (.validationDone 0) bad (fun u => completes stVALIDATION u && decide (u.hif.valid = [])) = true ∧
    after (.validationDone 3) s (fun u => decide (u = s)) = true := by decide +kernel

theorem test_slotSubmit :
    let c := HCmd.submit 5 (List.replicate 32 1)
    let own := withRegs (sCmd c false) [(Reg.TL_RING_LO 5, 0x3000), (Reg.TL_RING_CFG 5, putF 0 F.TL_RING_CFG_LOG2SIZE 3)]
    tlOwner own 5 = 0 ∧ tlDirect own 5 = false ∧ ringSize own 5 = 8 ∧
    after (.slotSubmit 0 0) own (fun u => completes stOK u && decide (tlTail u 5 = 1 ∧ memGetN u.mem 0x3000 2 = [1, 1])) = true ∧
    after (.slotSubmit 0 0) (setFld own (Reg.TL_HEAD 5) F.TL_HEAD_INDEX 1) (completes stRINGFULL) = true ∧
    after (.slotSubmit 0 0) (setFld own (Reg.TL_CTL 5) F.TL_CTL_OWNER 2) (completes stDENIED) = true ∧
    after (.slotSubmit 0 0) (withRegs (setFld own (Reg.TL_CTL 5) F.TL_CTL_DIRECT 1) [(fnKey 0 (Reg.DRV_SWATCH 0), 32)]) (completes stBADPARAM) = true := by decide +kernel

theorem test_dmaCommand :
    let copy := HCmd.dma 100 0 false 0x1000 0x2000 64 0
    let on (c : HCmd) : State := wr (sCmd c false) (Reg.DMA_CTL 6) 1
    startable (on copy) 100 = true ∧ domLive (on copy) 19 = true ∧ chFunc (on copy) 100 = 0 ∧ chDisp (on copy) 100 = false ∧ noDmaTask (on copy) = true ∧
    pairOn (on copy) 100 = none ∧ rangeOk false 0x1000 64 = true ∧ chCfg (on copy) 100 F.CH_CFG_REQ_EN = 0 ∧ bits (6 * 8) 3 3 = 6 ∧
    after (.dmaCommand 0 0) (on copy) (fun u => decide (chState u 100 = 1 ∧ chSrc u 100 = 0x1000 ∧ chCount u 100 = 64)) = true ∧
    after (.dmaCommand 0 0) (on (.dma 100 0 true 0 0 0 0x5000)) (fun u => (chan u 100).fetch) = true ∧
    after (.dmaCommand 0 0) (wr (on copy) (Reg.DMA_CTL 6) 0) (completes stBUSY) = true ∧
    after (.dmaCommand 0 0) (on (.dma 100 (6 * 8) false 0x1000 0x2000 64 0)) (completes stBADPARAM) = true ∧
    after (.dmaCommand 0 0) (setFld (on copy) (chReg 100 Reg.CH_CFG) F.CH_CFG_FUNC 3) (completes stDENIED) = true := by decide +kernel

theorem test_result :
    let c := HCmd.result 5 7 2 0x9000 64
    let on := withRegs (sCmd c false) [(fnKey 0 (Reg.DRV_SWATCH 0), 8)]
    accepted on 0 3 = true ∧ accepted (sCmd c false) 0 3 = false ∧
    after (.result 0 0) (sCmd c false) (completes stUNSUPPORTED) = true ∧
    after (.result 0 0) on (fun u => decide (u.hif.armed.map (·.haddr) = [0x9000])) = true ∧
    after (.result 0 0) { on with hif := { on.hif with reported := [(5, 7)] } } (completes stGONE) = true ∧
    after (.result 0 0) (setFld on (Reg.TL_CTL 5) F.TL_CTL_OWNER 2) (completes stDENIED) = true ∧
    after (.result 0 0) { on with hif := { on.hif with armed := List.replicate 1024 ⟨9, 0, 1, 1, 1, 0, 0, none⟩ } } (completes stBUSY) = true := by decide +kernel

theorem test_resultCopyDone :
    let s := storeN (sCmd (.result 5 7 2 0x9000 64) true) 0x1000 [1, 2, 3, 4]
    let s := { s with hif := { s.hif with armed := [⟨1, 0, 5, 7, 2, 0x9000, 64, some (0x1000, 4)⟩] } }
    (copyOut 3 { s with hif := { s.hif with armed := [] } } 0 0x1000 0x9000 4 0).2.1 = true ∧
    after .resultCopyDone s (fun u => completes stOK u && decide (hostLoad u 0x9000 4 = [1, 2, 3, 4] ∧ u.hif.armed = [])) = true := by decide +kernel

/-! ## The host's accesses -/

/-- BAR4 is enabled; requests of function 0 wait. -/
def sBar (l : List Bar4Req) : State :=
  let s := sCmd .nop true
  { s with hif := { s.hif with bar4En := true, bar4 := l, cmds := [] } }

def rdReq0 : Bar4Req := { f := 0, tag := 9, write := false, off := 0x1000, len := 4, data := [], done := 0, outcome := 0 }

theorem test_bar4 :
    after (.bar4Read 0 9 0x1000 4) (sBar []) (fun u => decide (u.hif.bar4 = [rdReq0])) = true ∧
    after (.bar4Write 0 0x1000 [1, 2]) (sBar []) (fun u => decide (u.hif.bar4.map (·.data) = [[1, 2]])) = true ∧
    after (.bar4Read 0 9 0x880000000 4) (sBar []) (fun u => decide (u.out = [.pcie 0 9 2 []] ∧ rd u (fnKey 0 Reg.HIF_BAR4_ERR_CNT) = 1)) = true ∧
    after (.bar4Read 0 9 0x1000 4) { sBar [] with hif := { (sBar []).hif with bar4En := false } } (fun u => decide (u.out = [.pcie 0 9 2 []])) = true ∧
    after (.bar4Read 0 9 0x1000 4) { sBar [] with hif := { (sBar []).hif with linkTrained := false } } (fun u => decide (u.out = [])) = true := by decide +kernel

theorem test_bar4Response :
    let rd0 := storeN (sBar [rdReq0]) 0x1000 [1, 2, 3, 4]
    let wr0 := sBar [{ rdReq0 with write := true, data := [5, 6, 7, 8] }]
    let far := sBar [{ rdReq0 with off := 0x10F8, len := 16 }]
    bar4Addr 0x1000 = some 0x1000 ∧ chunk 0x1000 4 = 4 ∧ chunk 0x10F8 16 = 8 ∧ (readVia .delivered rd0 (hostIssuer 0) 0x1000 4).1 = OKAY ∧
    (writeVia .delivered wr0 (hostIssuer 0) 0x1000 [5, 6, 7, 8]).1 = OKAY ∧
    after (.bar4Response 0 .delivered) rd0 (fun u => decide (u.out = [.pcie 0 9 0 [1, 2, 3, 4]] ∧ u.hif.bar4 = [])) = true ∧
    after (.bar4Response 0 .delivered) wr0 (fun u => decide (memGetN u.mem 0x1000 4 = [5, 6, 7, 8] ∧ u.hif.bar4 = [])) = true ∧
    after (.bar4Response 0 .delivered) far (fun u => decide (u.hif.bar4.map (·.done) = [8])) = true ∧
    after (.bar4Response 0 .requestLost) rd0 (fun u => decide (rd u (fnKey 0 Reg.HIF_BAR4_ERR_CNT) = 1 ∧ u.hif.bar4 = [])) = true ∧
    after (.bar4Response 1 .delivered) rd0 (fun u => decide (u = rd0)) = true := by decide +kernel

/-- A plain register of the time base, and one of a strip. -/
theorem test_registerWrite :
    let a : BitVec 25 := BitVec.ofNat 25 (Reg.TIM_PPSOUT_W)
    let off := wr sAct (Reg.PWR_DOMAIN_STATE 19) 2
    let b : BitVec 25 := BitVec.ofNat 25 (Reg.FEC_CTL 3)
    let lock := setFld sAct Reg.MGT_CTL F.MGT_CTL_EXT_LOCK 1
    direct sAct (.mc 0) a.toNat = true ∧ (findReg a.toNat).isSome = true ∧ writeAtList (hookBlock a.toNat) a.toNat = none ∧
    keepLane sAct (.mc 0) a.toNat 77 = 77 ∧ blockLive off (blockDomain b.toNat) = false ∧ canonOff b.toNat = b.toNat ∧
    reaches { sAct with hif := { sAct.hif with linkTrained := false } } (.fn 3) = false ∧ viewOf sAct (.fn 0) a.toNat = .rw ∧
    after (.registerWrite (.mc 0) .word a 77) sAct (fun u => decide (rd u (Reg.TIM_PPSOUT_W) = 77)) = true ∧
    after (.registerWrite (.mc 0) .half a 77) sAct (fun u => decide (u = sAct)) = true ∧
    after (.registerWrite (.mc 0) .word b 1) off (fun u => decide (u.mgt.late.length = 1)) = true ∧
    extLocked lock .spi (canonOff a.toNat) = true ∧
    after (.registerWrite .spi .word a 77) lock (fun u => isSet u Reg.MGT_EXT_STAT F.MGT_EXT_STAT_LOCKED) = true := by decide +kernel

theorem test_hidden :
    let s := { sAct with hif := { sAct.hif with vfs := 2 } }
    reaches s (.fn 1) = true ∧ arrives s (.fn 1) = s ∧ viewOf s (.fn 1) (canonOff (Reg.TIM_CMP_PERIOD 3)) = .hidden ∧
    after (.registerWrite (.fn 1) .word (BitVec.ofNat 25 (Reg.TIM_CMP_PERIOD 3)) 7) s (fun u => decide (rd u Reg.HIF_VF_BLOCKED_CNT = 1)) = true := by
  decide +kernel

theorem test_swatch :
    let bad := wr sAct (fnKey 0 (Reg.DRV_SWATCH 3)) 0x80000000
    direct sAct (.fn 0) Reg.SWATCH_CTL = true ∧ swAccepted sAct 0 = false ∧ notOffered sAct 0 = none ∧ notOffered bad 0 = some 127 ∧
    after (.swatchAccept (.fn 0)) sAct (fun u => swAccepted u 0) = true ∧
    after (.swatchAccept (.fn 0)) bad (fun u => !swAccepted u 0 && isSet u (fnKey 0 Reg.SWATCH_STAT) F.SWATCH_STAT_ERR) = true := by decide +kernel

theorem test_functionLevelReset :
    let s := { sCmd .nop true with tln := {} }
    let r := { s with hif := { s.hif with resetting := [0], cmds := [] } }
    resetting s 0 = false ∧ enabledVfs s = [] ∧ ((upto 128).all fun k => !chBusy s k) = true ∧ resetting r 0 = true ∧ resetOrder r 0 = [0] ∧
    noRelease r = true ∧
    after (.functionLevelReset 0 false) s (fun u => resetting u 0) = true ∧
    after (.flrComplete 0) r (fun u => !resetting u 0 && decide (rd u (qp 0 0 Reg.QP_CTL) = regReset (qp 0 0 Reg.QP_CTL))) = true := by decide +kernel

theorem test_pcieLink :
    after .pcieLinkDown State.reset (fun u => !u.hif.linkTrained && isSet u Reg.HIF_EVT F.HIF_EVT_LINK_DOWN) = true ∧
    after .pcieLinkUp { State.reset with hif := { State.reset.hif with linkTrained := false } } (fun u => u.hif.linkTrained) = true := by decide +kernel

theorem test_pcieCompletionTimeout :
    let h := wr (wr sRun (chReg 127 Reg.CH_CTRL) 0) (chReg 127 Reg.CH_CTRL) (putF 0 F.CH_CTRL_SRC_HOST 1)
    let d := updCh (wr sRun (chReg 127 Reg.CH_CTRL) (putF 0 F.CH_CTRL_NEXT_HOST 1)) 127 fun x => { x with fetch := true }
    chErr h 127 = 0 ∧ chBusy h 127 = true ∧ noDmaTask h = true ∧ chErr d 127 = 0 ∧ chBusy d 127 = true ∧
    chCtl sRun 127 F.CH_CTRL_SRC_HOST = 0 ∧
    after (.pcieCompletionTimeout (some 127)) h (fun u => decide (chState u 127 = 3 ∧ chErr u 127 = TIMEOUT)) = true ∧
    after (.pcieCompletionTimeout (some 127)) d (fun u => decide (chState u 127 = 3 ∧ chErr u 127 = TIMEOUT)) = true ∧
    after (.pcieCompletionTimeout none) (sQp []) (fun u => decide (fld u (qp 0 0 Reg.QP_STAT) F.QP_STAT_ERR = 2)) = true := by decide +kernel

/-! ## Requests to management firmware -/

/-- A request of the PF with a code and arguments in the mailbox; `g` says what else the state has. -/
def sMail (code : Nat) (args : List Byte) (g : State → State) : State :=
  let s := g (sCmd (.mgmt code args) true)
  { s with hif := { s.hif with mail := [{ seq := 1, f := 0, mcode := code, args := args }] } }

/-- Has the request been answered with an ACODE? -/
def answered (acode : Nat) (u : State) : Bool :=
  completes (if acode = 0 then stOK else stMGMTERR) u && decide (leNat (hostLoad u 0x1004 4) = acode ∧ u.hif.mail = [])

theorem test_asked :
    let s := sMail 0x0202 [] id
    (s.hif.mail.find? fun x => decide (x.mcode = 0x0202 ∧ x.wait = none)) = s.hif.mail.head? ∧ allStarted s = true ∧ s.mgt.late = [] ∧
    (s.hif.mail.find? fun x => decide (x.mcode = 0x0201 ∧ x.wait = none)) = none ∧
    after .getPon s (answered acOK) = true ∧ after .getPower (sMail 0x0001 [] id) (answered acOK) = true ∧
    after .getThermal (sMail 0x0005 [] id) (answered acOK) = true ∧ after .getUnit (sMail 0x0101 [0, 0x10] id) (answered acOK) = true := by decide +kernel

/-- A virtual function asks for what only the PF may have. -/
theorem test_denied :
    let vf (s : State) : State := { s with hif := { s.hif with mail := s.hif.mail.map fun m => { m with f := 1 } } }
    (vf (sMail 0x0203 [] id)).hif.mail.map (·.f) = [1] ∧ after .resetUnit (vf (sMail 0x0203 [] id)) (answered acDENIED) = true ∧
    unitOfFn (sMail 0x0101 [0, 0x10] id) 1 (uEng 0) = false ∧
    after .getUnit (vf (sMail 0x0101 [0, 0x10] id)) (answered acDENIED) = true := by decide +kernel

theorem test_setState :
    let s (st : Nat) (args : List Byte) := sMail 0x0002 args fun s => wr s (Reg.PWR_DOMAIN_STATE 3) (BitVec.ofNat 32 st)
    unitOfFn (s 0 [3, 2, 0]) 0 (uDom 3) = true ∧ (dom (s 0 [3, 2, 0]) 3).trans = none ∧ domLive (s 0 [3, 2, 0]) 3 = true ∧
    calmDomain (s 0 [3, 2, 0]) 3 = true ∧
    after (.setState false) (s 0 [3, 1, 0]) (answered acBADARG) = true ∧ after (.setState true) (s 0 [3, 2, 0]) (answered acREFUSED) = true ∧
    after (.setState false) (s 2 [3, 2, 0]) (answered acOK) = true ∧
    after (.setState false) (s 0 [3, 2, 0]) (fun u => decide (domSt u 3 = 4 ∧ u.hif.mail.map (·.wait) = [some (uDom 3)])) = true ∧
    after (.setState false) (s 2 [3, 0, 0]) (fun u => decide (domSt u 3 = 5)) = true := by decide +kernel

theorem test_setOp :
    after (.setOp false) (sMail 0x0003 [3, 4] id) (answered acBADARG) = true ∧ after (.setOp true) (sMail 0x0003 [3, 2] id) (answered acREFUSED) = true ∧
    after (.setOp false) (sMail 0x0003 [3, 2] id) (fun u => decide (fld u (Reg.PWR_DOM_OP 3) F.PWR_DOM_OP_REQ_OP = 2 ∧ u.hif.mail.map (·.wait) = [some (uDom 3)])) = true ∧
    after (.setOp false) (sMail 0x0003 [3, 0] id) (answered acOK) = true := by decide +kernel

theorem test_setLevel :
    let off := fun s => wr s Reg.TLN_CTL 0
    level (sMail 0x0004 [0] id) = 0 ∧ isSet (sMail 0x0004 [2] off) Reg.TLN_CTL F.TLN_CTL_EN = false ∧
    ((upto 20).all fun d => domLive (sMail 0x0004 [2] off) d && decide ((dom (sMail 0x0004 [2] off) d).trans = none) && calmDomain (sMail 0x0004 [2] off) d) = true ∧
    after (.setLevel false) (sMail 0x0004 [1] id) (answered acBADARG) = true ∧ after (.setLevel true) (sMail 0x0004 [2] off) (answered acREFUSED) = true ∧
    after (.setLevel false) (sMail 0x0004 [2] fun s => wr s Reg.TLN_CTL 1) (answered acREFUSED) = true ∧
    after (.setLevel false) (sMail 0x0004 [0] id) (answered acOK) = true ∧
    after (.setLevel false) (sMail 0x0004 [2] off) (fun u => decide (u.pwr.levelTarget = some 2 ∧ domSt u 7 = 4)) = true := by decide +kernel

theorem test_retire :
    let s := sMail 0x0102 [0, 0x60] id
    retirable 0x6000 = true ∧ retirable 0xFFFF = false ∧ (retire s 0x6000).hif = s.hif ∧ unitSt s 0x6000 ≠ 3 ∧ 0x6000 / 4096 ∈ [3, 6, 7, 8, 9, 11] ∧
    after (.retire false) s (fun u => answered acOK u && decide (unitSt u 0x6000 = 3)) = true ∧
    after (.retire true) s (answered acREFUSED) = true ∧ after (.retire false) (sMail 0x0102 [0xFF, 0xFF] id) (answered acBADARG) = true := by decide +kernel

theorem test_restore :
    let s := sMail 0x0103 [0, 0x60] fun s => setUnitSt s 0x6000 3
    (restore s 0x6000).hif = s.hif ∧ after (.restore true) s (answered acREFUSED) = true ∧
    after (.restore false) (sMail 0x0103 [0xFF, 0xFF] id) (answered acBADARG) = true ∧
    after (.restore false) s (fun u => decide (unitSt u 0x6000 = 1)) = true := by decide +kernel

theorem test_setSpare :
    after (.setSpare false) (sMail 0x0104 [128, 3] id) (answered acBADARG) = true ∧ after (.setSpare true) (sMail 0x0104 [5, 3] id) (answered acREFUSED) = true ∧
    after (.setSpare false) (sMail 0x0104 [5, 3] id) (fun u => answered acOK u && decide (fld u (Reg.TILE_SPARE 5) F.TILE_SPARE_MASK = 3)) = true := by decide +kernel

theorem test_sepia :
    let on := fun s => setFld s Reg.SEP_CTL F.SEP_CTL_EN 1
    let held := fun s => { wr s Reg.SEP_COUNT 4 with ras := { s.ras with entries := [(3, (1, 2, 3, 4))] } }
    sepHeld (sMail 0x0105 [3] held) 3 = true ∧ sepHeld (sMail 0x0105 [3] id) 3 = false ∧
    after .sepRead (sMail 0x0105 [3] held) (answered acOK) = true ∧ after .sepRead (sMail 0x0105 [3] id) (answered acGONE) = true ∧
    after .sepMark (sMail 0x0106 [3] on) (fun u => answered acOK u && decide (u.ras.queue.length = 1)) = true ∧
    after .sepMark (sMail 0x0106 [3] fun s => setFld s Reg.SEP_CTL F.SEP_CTL_EN 0) (fun u => decide (rd u Reg.SEP_DROP_CNT = 1)) = true ∧
    after (.sepDump true) (sMail 0x0107 [] id) (answered acREFUSED) = true ∧
    after (.sepDump false) (sMail 0x0107 [] id) (fun u => decide (fld u Reg.SEP_STAT F.SEP_STAT_DUMP = 1)) = true := by decide +kernel

theorem test_resetUnit :
    let e := sMail 0x0203 [5, 0x10] fun s => setUnitSt (setEng s 5 { st := 2 }) (uEng 5) 0
    let d := sMail 0x0203 [3, 0xD0] id
    engSt e 5 ≠ 0 ∧ unitSt e (uEng 5) = 0 ∧ (eng e 5).task = none ∧ waitingRecoat e 5 = none ∧
    domLive d 3 = true ∧ (dom d 3).trans = none ∧ calmDomain d 3 = true ∧
    after .resetUnit (sMail 0x0203 [0, 0x20] id) (answered acBADARG) = true ∧
    after .resetUnit e (fun u => decide (unitSt u (uEng 5) = 1 ∧ u.hif.mail.map (·.wait) = [some (uEng 5)])) = true ∧
    after .resetUnit d (fun u => decide (domSt u 3 = 4) && (dom u 3).thenWake) = true ∧
    after .warmReset (sMail 0x0204 [] id) (fun u => answered acOK u && u.mgt.warmAt.isSome) = true := by decide +kernel

theorem test_mgmtAnswer :
    after (.mgmtAnswer 0 5 0) (sMail 0x9000 [] id) (answered 5) = true ∧ after (.mgmtAnswer 0 5 0) (sMail 0x0999 [] id) (answered 0xFFFF) = true ∧
    after (.mgmtAnswer 0 5 0) (sMail 0x0001 [] id) (fun u => decide (u.hif.mail.length = 1)) = true ∧
    after (.mgmtTimeout 0) (sMail 0x9000 [] id) (fun u => completes stMGMTTIMEOUT u && decide (u.hif.mail = [])) = true := by decide +kernel

/-! ## Power and temperature -/

theorem test_domainRequest :
    direct sAct (.mc 0) (Reg.PWR_DOM_REQ 3) = true ∧ direct sAct (.mc 0) (Reg.PWR_DOM_REQ 17) = true ∧ domLive sAct 3 = true ∧
    (dom sAct 3).trans = none ∧ calmDomain sAct 3 = true ∧ calmDomain sAct 17 = true ∧
    after (.domainStateRequest (.mc 0) 3 2) sAct (fun u => decide (domSt u 3 = 4 ∧ (dom u 3).trans = some (.enter 2 2 false))) = true ∧
    after (.domainStateRequest (.mc 0) 17 7) sAct (fun u => decide (domSt u 17 = 4 ∧ (dom u 17).trans = some (.enter 3 2 true))) = true ∧
    after (.domainStateRequest (.mc 0) 3 0) sAct (fun u => decide (domSt u 3 = 0 ∧ (dom u 3).trans = none)) = true ∧
    after (.domainStateRequest (.mc 0) 3 0) State.reset (fun u => decide (domSt u 3 = 5 ∧ (dom u 3).trans = some .switching)) = true := by decide +kernel

theorem test_domainHeld :
    let s := updDom sAct 3 fun x => { x with trans := some (.ldo 1 true) }
    direct s (.mc 0) (Reg.PWR_DOM_REQ 3) = true ∧ domSt s 3 ≠ 6 ∧
    after (.domainStateRequest (.mc 0) 3 2) s (fun u => decide ((dom u 3).held = some ⟨2, false, 2, false⟩)) = true ∧
    domSt (wr sAct (Reg.PWR_DOMAIN_STATE 3) 6) 3 = 6 := by decide +kernel

theorem test_sectorReset :
    isSet sAct (Reg.PWR_DOM_REQ 3) F.PWR_DOM_REQ_GO = false ∧
    after (.sectorReset (.mc 0) 3) sAct (fun u => (dom u 3).thenWake && decide (domSt u 3 = 4)) = true ∧
    after (.sectorReset (.mc 0) 3) State.reset (fun u => decide (domSt u 3 = 5)) = true := by decide +kernel

/-- Sector 3 is entering a state behind its fence. -/
def sEnter (st : Nat) : State := updDom (wr State.reset (Reg.PWR_DOMAIN_STATE 3) 4) 3 fun x => { x with trans := some (.enter st 2 false) }

theorem test_domainGated :
    let s := storeN (sEnter 3) (tileBase 24 + 5) [7]
    (fence s (uDom 3)).st = 3 ∧ noneWaits s 3 = true ∧ inSector 3 (tileBase 24 + 5) = true ∧ (dom s 3).thenWake = false ∧
    after (.domainGated 3) s (fun u => decide (domSt u 3 = 3 ∧ (dom u 3).trans = none ∧ u.mem = [])) = true ∧
    after (.domainGated 3) (storeN (sEnter 2) (tileBase 24 + 5) [7]) (fun u => decide (domSt u 3 = 2 ∧ u.mem ≠ [])) = true ∧
    after (.domainGated 3) (updDom s 3 fun x => { x with thenWake := true }) (fun u => decide (domSt u 3 = 5)) = true := by decide +kernel

theorem test_standby :
    let s := { sEnter 3 with pwr := { (sEnter 3).pwr with levelTarget := some 2 } }
    noneWaits { s with pwr := { s.pwr with levelTarget := none } } 3 = true ∧ ((upto 20).all fun d => d = 3 ∨ domSt s d = 3 ∨ domSt s d = 6) = true ∧
    after (.domainGated 3) s (fun u => decide (domSt u 20 = 3 ∧ domSt u 21 = 2 ∧ level u = 2)) = true := by decide +kernel

theorem test_wakeSteps :
    let s := updDom (wr State.reset (Reg.PWR_DOMAIN_STATE 3) 5) 3 fun x => { x with trans := some .switching }
    let c := updDom s 3 fun x => { x with trans := some .clearing }
    let k := updDom s 3 fun x => { x with trans := some .compat }
    (dom s 3).trans = some .switching ∧ (dom (updDom s 4 fun x => { x with trans := some .waitSwitch }) 4).trans = some .waitSwitch ∧
    after (.powerSwitchFree 3) s (fun u => decide ((dom u 3).trans = some .clearing)) = true ∧
    after (.wakeMemoryClearDone 3) c (fun u => decide ((dom u 3).trans = some (.returning true) ∧ unitSt u (uEng 200) = 2)) = true ∧
    noneWaits k 3 = true ∧ (dom k 3).pllWait = false ∧ (dom k 3).clkAsked = false ∧
    after (.compatEngineStart 3) k (fun u => decide (domSt u 3 = 0 ∧ (dom u 3).trans = none)) = true := by decide +kernel

theorem test_idle :
    let s := wr sAct Reg.PWR_CTL 7
    isSet s Reg.PWR_CTL F.PWR_CTL_IDLE_EN = true ∧ quiet s 3 = true ∧ quiet s 17 = true ∧
    after (.idleEntry 3) s (fun u => decide (domSt u 3 = 1)) = true ∧
    after (.idleWake 3) (wr s (Reg.PWR_DOMAIN_STATE 3) 1) (fun u => decide (domSt u 3 = 0)) = true := by decide +kernel

theorem test_levelRequest :
    let s := wr sAct Reg.TLN_CTL 0
    direct s (.mc 0) Reg.PWR_LEVEL_REQ = true ∧ s.hif.mail = [] ∧ isSet s Reg.TLN_CTL F.TLN_CTL_EN = false ∧
    ((upto 20).all fun d => domLive s d && decide ((dom s d).trans = none) && calmDomain s d) = true ∧
    after (.levelRequest (.mc 0) 2) s (fun u => decide (u.pwr.levelTarget = some 2 ∧ domSt u 19 = 4)) = true ∧
    after (.levelRequest (.mc 0) 2) (wr sAct Reg.TLN_CTL 1) (fun u => isSet u Reg.PWR_EVT F.PWR_EVT_LEVEL_REFUSED) = true ∧
    after (.levelRequest (.mc 0) 0) s (fun u => decide (u.pwr = s.pwr)) = true ∧
    after (.levelRequest (.mc 0) 0) State.reset (fun u => decide (u.pwr.levelTarget = some 0 ∧ domSt u 19 = 5)) = true ∧
    levelDone { s with pwr := { s.pwr with levelTarget := some 2 } } = false := by decide +kernel

theorem test_residencyTick :
    let s := { State.reset with tim := { State.reset.tim with counting := true, raw := 2048 } }
    ((upto 25).all fun n => decide (resState s n < 4)) = true ∧
    after .residencyTick s (fun u => decide (rd64 u (Reg.PWR_RES_LO 3 3) = 1 ∧ rd64 u (Reg.PWR_RES_LO 24 0) = 1)) = true := by decide +kernel

theorem test_opRequest :
    let low := wr sAct Reg.PWR_AVS_STAT 700
    let s3 := wr low (Reg.PWR_DOM_OP 3) 0x3003
    direct sAct (.mc 0) (Reg.PWR_DOM_OP 3) = true ∧ vcore low = 700 ∧ sectorOp s3 3 = 3 ∧ needVolt s3 1 = 770 ∧
    after (.opRequest (.mc 0) 3 2) sAct (fun u => decide (sectorOp u 3 = 2 ∧ (dom u 3).trans = some (.ldo 2 false))) = true ∧
    after (.opRequest (.mc 0) 3 1) s3 (fun u => decide (vcore u = 770 ∧ (dom u 3).trans = some (.raise 1) ∧ .avs 770 ∈ u.out)) = true ∧
    after (.opRequest (.mc 0) 3 2) s3 (fun u => decide ((dom u 3).trans = some (.ldo 2 true))) = true ∧
    after (.opRequest (.mc 0) 3 1) (setFld s3 Reg.PWR_AVS_STAT F.PWR_AVS_STAT_FAIL 1) (fun u => decide ((dom u 3).trans = none)) = true := by decide +kernel

theorem test_avs :
    let s := setFld (updDom sAct 3 fun x => { x with trans := some (.raise 1) }) Reg.PWR_AVS_STAT F.PWR_AVS_STAT_BUSY 1
    (dom s 3).trans = some (.raise 1) ∧ needVolt s 1 ≤ vcore s ∧ ((upto 16).all fun n => noneWaits s n) = true ∧
    after .avsResponse s (fun u => decide ((dom u 3).trans = some (.ldo 1 true))) = true ∧
    after .avsTimeout s (fun u => decide ((dom u 3).trans = none) && isSet u Reg.PWR_AVS_STAT F.PWR_AVS_STAT_FAIL) = true := by decide +kernel

theorem test_ldoSettled :
    let s := wr (updDom sAct 3 fun x => { x with trans := some (.ldo 1 true) }) (Reg.PWR_DOM_OP 3) 0x3003
    let d := wr (updDom sAct 3 fun x => { x with trans := some (.ldo 3 false) }) Reg.PWR_AVS_STAT 900
    noneWaits s 3 = true ∧ noneWaits d 3 = true ∧ lowVolt d = 850 ∧ isSet d Reg.PWR_CTL F.PWR_CTL_AVS_AUTO = true ∧
    after (.ldoSettled 3) s (fun u => decide (sectorOp u 3 = 1 ∧ (dom u 3).trans = none)) = true ∧
    after (.ldoSettled 3) d (fun u => decide (vcore u = 850)) = true := by decide +kernel

theorem test_sectorPll :
    let s := wr (updDom sAct 3 fun x => { x with pllWait := true, clkAsked := true }) (Reg.PWR_DOM_CLK 3) 4
    onOsc s 3 = true ∧ (dom s 3).clkAsked = true ∧ direct sAct (.mc 0) (Reg.PWR_DOM_CLK 3) = true ∧
    after (.sectorPllLock 3) s (fun u => !onOsc u 3 && isSet u Reg.PWR_EVT F.PWR_EVT_CLK_SWITCH) = true ∧
    after (.pllLockTimeout 3) s (fun u => onOsc u 3 && isSet u Reg.PWR_EVT F.PWR_EVT_PLL_FAIL) = true ∧
    after (.clockSourceSwitch (.mc 0) 3) (wr sAct (Reg.PWR_DOM_CLK 3) 6) (fun u => !onOsc u 3) = true := by decide +kernel

theorem test_skimRound :
    let s := updSens sAct 3 fun x => { x with raw := 1600 }
    let low := withRegs sAct [(Reg.THM_CAP 3, 0x6301), (Reg.PWR_DOM_OP 3, 0x10)]
    hottest s (covers 3) = some 3 ∧ sourceBad s 3 = false ∧ tempInUse s 3 = 1600 ∧ temp16 (fld s Reg.THM_THROTTLE F.THM_THROTTLE_TEMP) = 1600 ∧
    after (.skimChannelSample 3 1600 false false) sAct (fun u => decide ((sens u 3).raw = 1600)) = true ∧
    after (.skimChannelSample 30 7 false false) sAct (fun u => decide (rd u (Reg.THM_MON_VAL 6) = 7)) = true ∧
    after .skimRoundEnd s (fun u => decide (capOf u 3 = 1 ∧ capOf u 4 = 0) && isSet u Reg.THM_EVT F.THM_EVT_WARN) = true ∧
    hottest low (covers 3) = some 3 ∧ after .skimRoundEnd low (fun u => decide (capOf u 3 = 0 ∧ fld u (Reg.PWR_DOM_OP 3) F.PWR_DOM_OP_CAP = 0)) = true := by
  decide +kernel

theorem test_refresh :
    let s (v : BitVec 16) : State := updSens sAct 22 fun x => { x with raw := v, refresh2x := decide (v ≠ 1360) }
    ([1311, 1312, 1360].map fun v => after .skimRoundEnd (s v) fun u => (sens u 22).refresh2x) = [false, true, true] := by decide +kernel

theorem test_trip :
    let s := updSens sAct 23 fun x => { x with raw := 1840 }
    sensKind s 23 = 0 ∧ measured s 23 = 1840 ∧ after .skimRoundEnd s (fun u => u.pwr.clocksStopped && isSet u Reg.THM_STAT F.THM_STAT_TRIP) = true := by
  decide +kernel

theorem test_escalate :
    let s := wr (updSens sAct 20 fun x => { x with isOpen := true }) (Reg.THM_CAP 6) 1
    20 ∈ covers 6 ∧ sourceBad s 20 = true ∧ (sens s 20).bad = false ∧ capOf s 6 ≠ 0 ∧
    after .skimRoundEnd s (fun u => decide (capOf u 6 = 3) && isSet u (Reg.THM_CAP 6) F.THM_CAP_ESC) = true := by decide +kernel

/-! ## Faults and the recorder -/

theorem test_rasInj :
    let v (u k : Nat) : Word := putF (putF 0 F.RAS_INJ_UNIT u) F.RAS_INJ_KIND k
    let s := setUnitSt (setEng sAct 5 { st := 2 }) (uEng 5) 0
    direct sAct (.mc 0) Reg.RAS_INJ = true ∧ unitExists 0xFFFF = false ∧ (unit s (uEng 5)).mute = 0 ∧ discards s (uEng 5) = false ∧
    (eng s 5).task = none ∧ waitingRecoat s 5 = none ∧ jobsIn s = true ∧ discards sAct 0x2007 = false ∧
    after (.rasInj (.mc 0) (v 0xFFFF 1)) sAct (fun u => decide (fld u Reg.RAS_INJ F.RAS_INJ_UNIT = 0xFFFF ∧ rd u Reg.RAS_ENG_FLT_CNT = 0)) = true ∧
    after (.rasInj (.mc 0) (v (uEng 5) 3)) s (fun u => decide (fld u (Reg.ECP_FLT 0 5) F.ECP_FLT_KIND = 3 ∧ rd u Reg.RAS_ENG_FLT_CNT = 1) && fenced u (uEng 5)) = true ∧
    after (.rasInj (.mc 0) (v 0x2007 1)) sAct (fun u => isSet u Reg.RAS_EVT F.RAS_EVT_TMEM) = true := by decide +kernel

theorem test_rasQUnit :
    let s := updUnit sAct (uEng 5) fun x => { x with total := 9, kind := 3, gen := 2, last := 77 }
    direct s (.mc 0) Reg.RAS_Q_UNIT = true ∧
    after (.rasQUnit (.mc 0) (putF 0 F.RAS_Q_UNIT_UNIT (uEng 5))) s (fun u => decide (qcapOf u (whoCode (.mc 0)) = ⟨3 * 16 + 2 * 256, 9, 77⟩)) = true := by
  decide +kernel

theorem test_stacks :
    let on := fun s => setFld (setFld s Reg.MEM_CTL F.MEM_CTL_EN 1) Reg.SEP_CTL F.SEP_CTL_EN 1
    isSet (on (setFld sAct Reg.MEM_STAT F.MEM_STAT_READY1 1)) Reg.MEM_STAT F.MEM_STAT_READY1 = true ∧
    after (.hbmStackLoss 1) (setFld sAct Reg.MEM_STAT F.MEM_STAT_READY1 0) (fun u => decide (u = setFld sAct Reg.MEM_STAT F.MEM_STAT_READY1 0)) = true ∧
    domSt sAct 21 = 0 ∧ after (.hbmStackTrained 0) sAct (fun u => isSet u Reg.MEM_STAT F.MEM_STAT_READY0) = true ∧
    after (.hbmStackTrained 0) (wr sAct (Reg.PWR_DOMAIN_STATE 21) 2) (fun u => decide (u = wr sAct (Reg.PWR_DOMAIN_STATE 21) 2)) = true ∧
    after (.managementCoreFault 3) (on sAct) (fun u => decide (u.ras.queue.map (·.code) = [4])) = true := by decide +kernel

/-- The recorder is on and holds an event of a type in its queue. -/
def sSep (type : Nat) : State :=
  let s := setFld sAct Reg.SEP_CTL F.SEP_CTL_EN 1
  { s with ras := { s.ras with queue := [⟨5, 0, type, 0x1005, 1, 2, 9⟩, ⟨6, 0, 1, 0, 0, 0, 0⟩] } }

theorem test_sepiaWrite :
    let d (type : Nat) : State := { sSep type with ras := { (sSep type).ras with dropSince := 4 } }
    after .sepiaWrite (sSep 1) (fun u => decide (sepEntry u 0 = (5, 0x01000000, 0x02011005, 9) ∧ rd u Reg.SEP_COUNT = 1 ∧ u.ras.queue.length = 1)) = true ∧
    after .sepiaWrite (d 1) (fun u => decide (u.ras.queue.map (·.type) = [1, 0x12])) = true ∧
    after .sepiaWrite (setFld (sSep 0x13) Reg.SEP_CTL F.SEP_CTL_DUMP_EN 1) (fun u => isSet u Reg.SEP_STAT F.SEP_STAT_FROZEN &&
      decide (u.ras.queue = [] ∧ fld u Reg.SEP_STAT F.SEP_STAT_DUMP = 1)) = true ∧
    after .sepiaWrite (setFld (sSep 0x13) Reg.SEP_CTL F.SEP_CTL_DUMP_EN 0) (fun u => decide (fld u Reg.SEP_STAT F.SEP_STAT_DUMP = 0)) = true ∧
    after .sepiaWrite sAct (fun u => decide (u = sAct)) = true := by decide +kernel

theorem test_sepCtl :
    direct (sSep 1) (.mc 0) Reg.SEP_CTL = true ∧ ctlPlain (sSep 1) = true ∧
    after (.sepCtlFreeze (.mc 0)) (sSep 1) (fun u => decide (u.ras.queue.length = 3)) = true ∧
    after (.sepCtlUnfreeze (.mc 0)) (setFld (sSep 1) Reg.SEP_STAT F.SEP_STAT_FROZEN 1) (fun u => !isSet u Reg.SEP_STAT F.SEP_STAT_FROZEN) = true ∧
    after (.sepCtlUnfreeze (.fn 0)) (setFld (sSep 1) Reg.SEP_STAT F.SEP_STAT_FROZEN 1) (fun u => isSet u Reg.SEP_STAT F.SEP_STAT_FROZEN) = true ∧
    after (.sepCtlDump (.mc 0)) (sSep 1) (fun u => decide (fld u Reg.SEP_STAT F.SEP_STAT_DUMP = 1)) = true ∧
    direct sAct (.mc 0) Reg.SEP_MARK = true ∧ direct sAct (.mc 0) Reg.SEP_RD_SEL = true ∧
    after (.sepMarkRegister (.mc 0) 77) (sSep 1) (fun u => decide ((u.ras.queue.map (·.arg)).getLast? = some 77)) = true ∧
    after (.sepRdSel (.mc 0) 0) (wr (sSep 1) Reg.SEP_COUNT 1) (fun u => (sepCapOf u (whoCode (.mc 0))).valid) = true ∧
    after (.sepRdSel (.mc 0) 1) (wr (sSep 1) Reg.SEP_COUNT 1) (fun u => (sepCapOf u (whoCode (.mc 0))).gone) = true := by decide +kernel

theorem test_sepiaDumpDone :
    let s := setFld sAct Reg.SEP_STAT F.SEP_STAT_DUMP 1
    fld s Reg.SEP_STAT F.SEP_STAT_DUMP = 1 ∧ s.hif.mail = [] ∧ allStarted s = true ∧
    after (.sepiaDumpDone false) s (fun u => decide (fld u Reg.SEP_STAT F.SEP_STAT_DUMP = 3)) = true := by decide +kernel

/-! ## External ports, resets and the boot -/

theorem test_spi :
    let k := Reg.TIM_PPSOUT_W
    let a := BitVec.ofNat 32 k
    let off := wr sAct (Reg.PWR_DOMAIN_STATE 19) 2
    plainWord sAct .spi k = true ∧ extAddr 3 = false ∧ extAddr 0x1FFFFFC = true ∧ heard sAct .spi 0x1FFFFFC = true ∧ findReg 0x1FFFFFC = none ∧
    blockDomain k = 24 ∧ blockDomain (Reg.FEC_CTL 3) ≠ 24 ∧ plainWord sAct .spi (Reg.FEC_CTL 3) = true ∧ plainWord sAct .spi (k + 4) = true ∧ plainWrite sAct .spi k = true ∧ plainWrite sAct .i3c k = true ∧
    blockLive off (blockDomain (Reg.FEC_CTL 3)) = false ∧ canonOff (Reg.FEC_CTL 3) = Reg.FEC_CTL 3 ∧ domSt off 19 ≠ 1 ∧
    ((findReg (Reg.FEC_CTL 3)).map fun d => (d.1.pair, isStatus d.1)) = some (0, false) ∧
    ((findReg (Reg.FEC_EVT 3)).map fun d => (d.1.pair, isStatus d.1)) = some (0, true) ∧
    after (.spiRead a false) (wr sAct k 77) (fun u => decide (u.out = [.spi 77 32])) = true ∧
    after (.spiRead 3 false) sAct (fun u => decide (u.out = [.spi 0 32])) = true ∧
    after (.spiRead (BitVec.ofNat 32 (Reg.FEC_CTL 3)) true) sAct (fun u => decide (u.out = [.spi 0xFFFF0A0A 32])) = true ∧
    after (.spiRead (BitVec.ofNat 32 (Reg.FEC_EVT 3)) false) off (fun u => decide (u.out = [.spi 0xFFFF0A0A 32] ∧ rd u Reg.MGT_NA_CNT = 1)) = true ∧
    after (.spiReadInc a [false, false]) (wr sAct k 77) (fun u => decide (u.out.length = 2 ∧ u.out.getLast? = some (.spi 77 32))) = true := by decide +kernel

theorem test_extWrites :
    let k := Reg.TIM_PPSOUT_W
    let a := BitVec.ofNat 32 k
    let lock := setFld sAct Reg.MGT_CTL F.MGT_CTL_EXT_LOCK 1
    extLocked lock .spi (canonOff k) = true ∧ extLocked (setFld lock Reg.MGT_EXT_STAT F.MGT_EXT_STAT_I3C_ERR 0) .i3c (canonOff k) = true ∧
    after (.spiWrite a 77 false) sAct (fun u => decide (rd u k = 77)) = true ∧ after (.spiWrite a 77 true) sAct (fun u => decide (u = sAct)) = true ∧
    after (.spiWrite a 77 false) lock (fun u => isSet u Reg.MGT_EXT_STAT F.MGT_EXT_STAT_LOCKED) = true ∧
    after (.i3cRegisterWrite a 77) sAct (fun u => decide (rd u k = 77)) = true ∧
    after (.i3cRegisterRead (some a) false) (wr sAct k 77) (fun u => decide (u.out = [.i3c [77, 0, 0, 0]] ∧ u.mgt.i3cAddr = k + 4)) = true ∧
    after (.i3cRegisterRead none false) (wr { sAct with mgt := { sAct.mgt with i3cAddr := k } } k 77) (fun u => decide (u.out = [.i3c [77, 0, 0, 0]])) = true ∧
    after .spiStatus (wr sAct Reg.MGT_EXT_STAT 1) (fun u => decide (u.out = [.spi 1 8])) = true ∧
    after .spiReservedCommand sAct (fun u => isSet u Reg.MGT_EXT_STAT F.MGT_EXT_STAT_SPI_ERR) = true ∧
    after .i3cPrivateWriteError sAct (fun u => isSet u Reg.MGT_EXT_STAT F.MGT_EXT_STAT_I3C_ERR) = true := by decide +kernel

theorem test_i3cCodes :
    let d := setFld (setFld sAct Reg.MGT_I3C_CFG F.MGT_I3C_CFG_DVALID 1) Reg.MGT_I3C_CFG F.MGT_I3C_CFG_DADDR 9
    isSet sAct Reg.MGT_I3C_CFG F.MGT_I3C_CFG_DVALID = false ∧ isSet d Reg.MGT_I3C_CFG F.MGT_I3C_CFG_DVALID = true ∧
    after (.setdasa 9) sAct (fun u => decide (fld u Reg.MGT_I3C_CFG F.MGT_I3C_CFG_DADDR = 9)) = true ∧
    after (.setdasa 8) d (fun u => decide (u = d)) = true ∧ after .rstdaa d (fun u => !isSet u Reg.MGT_I3C_CFG F.MGT_I3C_CFG_DVALID) = true ∧
    after (.enec 1) sAct (fun u => u.mgt.i3cEvents) = true ∧ after (.disec 1) sAct (fun u => !u.mgt.i3cEvents) = true ∧
    after .getbcr sAct (fun u => decide (u.out = [.i3c [6]])) = true ∧ after .getdcr sAct (fun u => decide (u.out = [.i3c [0]])) = true := by decide +kernel

theorem test_jtag :
    after .idcode sAct (fun u => decide (u.out = [.jtag 1 0x0A102E75])) = true ∧ after .bypass sAct (fun u => decide (u.mgt.jtagIr = 1)) = true := by
  decide +kernel

/-- Whatever the OTP holds. -/
theorem test_released (s : State) : (released s).out = .avs 800 :: s.out := by
  have h : (romStart s).out = s.out := by dsimp only [romStart, bootFail]; split_ifs <;> rfl
  rw [← h]; rfl

theorem test_resets :
    let host := setFld State.reset Reg.MGT_CTL F.MGT_CTL_PERST_SCOPE 1
    let low (s : State) : State := { s with mgt := { s.mgt with perstLow := true } }
    direct sAct (.mc 0) Reg.MGT_RST_REQ = true ∧ isSet State.reset Reg.MGT_CTL F.MGT_CTL_PERST_SCOPE = false ∧ host.hif.resetting = [] ∧
    enabledVfs host = [] ∧ host.hif.valid = [] ∧ ((upto 128).all fun k => !chBusy host k) = true ∧ noRelease host = true ∧
    State.reset.ras.units = [] ∧ isSet State.reset Reg.SEP_STAT F.SEP_STAT_FROZEN = false ∧
    after .perstN host (fun u => u.hif.hstReset && !u.hif.linkTrained && u.mgt.perstLow) = true ∧
    after .perstN (low sAct) (fun u => decide (u = low sAct)) = true ∧ after .perstRelease (low sAct) (fun u => !u.mgt.perstLow) = true := by decide +kernel

theorem test_boot :
    let s (try_ sel stage_ : Nat) : State := { setFld (setFld State.reset Reg.MGT_BOOT_STAT F.MGT_BOOT_STAT_SEL sel) Reg.MGT_BOOT_STAT F.MGT_BOOT_STAT_STAGE stage_ with mgt := { bootTry := try_, bootSel := sel } }
    let done (x : State) : State := setFld x Reg.MGT_HBOOT_CTL F.MGT_HBOOT_CTL_DONE 1
    stage (s 0 2 0) = 0 ∧ bootSel (s 1 2 0) = 2 ∧ bootSel (s 1 0 0) = 0 ∧ isSet (done (s 2 1 0)) Reg.MGT_HBOOT_CTL F.MGT_HBOOT_CTL_DONE = true ∧
    after (.bootImageLoaded false) (s 0 2 0) (fun u => decide (u.mgt.bootTry = 1)) = true ∧
    after (.bootImageLoaded false) (s 1 2 0) (fun u => decide (u.mgt.bootTry = 2) && !u.hif.crs) = true ∧
    after (.bootImageLoaded false) (s 1 0 0) (fun u => decide (stage u = 4 ∧ fld u Reg.MGT_BOOT_STAT F.MGT_BOOT_STAT_FAIL = 8)) = true ∧
    after (.bootImageLoaded false) (done (s 2 1 0)) (fun u => decide (stage u = 4)) = true ∧
    after (.bootImageLoaded false) (s 0 2 2) (fun u => decide (u = s 0 2 2)) = true := by decide +kernel

theorem test_hostBoot :
    let s (n : Nat) : State := withRegs { sAct with mgt := { sAct.mgt with bootSel := 1, bootTry := 2 } }
      [(Reg.MGT_BOOT_STAT, putF 0 F.MGT_BOOT_STAT_SEL 1), (Reg.MGT_HBOOT_LEN, BitVec.ofNat 32 n)]
    let busy := setFld (s 512) Reg.MGT_HBOOT_CTL F.MGT_HBOOT_CTL_BUSY 1
    direct (s 512) (.fn 0) Reg.MGT_HBOOT_CTL = true ∧ stage (s 512) = 0 ∧ bootSel (s 512) = 1 ∧ isSet (s 512) Reg.MGT_HBOOT_CTL F.MGT_HBOOT_CTL_BUSY = false ∧
    busy.hif.linkTrained = true ∧ isSet State.reset Reg.TIM_STATUS F.TIM_STATUS_LOCK = false ∧
    isSet State.reset Reg.TIM_STATUS F.TIM_STATUS_HOLDOVER = false ∧ stage State.reset = 0 ∧
    after (.mgtHbootCtl (.fn 0)) (s 512) (fun u => isSet u Reg.MGT_HBOOT_CTL F.MGT_HBOOT_CTL_BUSY) = true ∧
    after (.mgtHbootCtl (.fn 0)) (s 511) (fun u => isSet u Reg.MGT_HBOOT_CTL F.MGT_HBOOT_CTL_ERR) = true ∧
    after (.mgtHbootCtl (.fn 0)) (withRegs (s 512) [(Reg.MGT_BOOT_STAT, 0)]) (fun u => !isSet u Reg.MGT_HBOOT_CTL F.MGT_HBOOT_CTL_BUSY) = true ∧
    after (.hbootFetchDone true) busy (fun u => isSet u Reg.MGT_HBOOT_CTL F.MGT_HBOOT_CTL_DONE && decide (u.mgt.sram.length = 512)) = true ∧
    after (.hbootFetchDone false) busy (fun u => decide (stage u = 4 ∧ fld u Reg.MGT_BOOT_STAT F.MGT_BOOT_STAT_FAIL = 9)) = true := by decide +kernel

/-! ## Rules of the whole machine -/

theorem test_reserved :
    findReg (canonOff 0x1FFFFFC) = none ∧ viewOf sAct (.mc 0) (canonOff 0x1FFFFFC) = .rw ∧ arrives sAct (.mc 0) = sAct ∧
    after (.registerWrite (.mc 0) .word 0x1FFFFFC 77) sAct (fun u => decide (u = sAct)) = true := by decide +kernel

theorem test_thermalLimits :
    direct sAct (.mc 0) Reg.THM_WARN = true ∧ direct sAct (.mc 0) Reg.THM_THROTTLE = true ∧ direct sAct (.mc 0) Reg.THM_CRIT = true ∧
    after (.registerWrite (.mc 0) .word (BitVec.ofNat 25 Reg.THM_WARN) 0x500) sAct (fun u => decide (rd u Reg.THM_WARN = 0x500)) = true ∧
    after (.registerWrite (.mc 0) .word (BitVec.ofNat 25 Reg.THM_WARN) 0x5F1) sAct (fun u => decide (rd u Reg.THM_WARN = 0x5F0)) = true := by decide +kernel

theorem test_steps :
    (match step { State.reset with pending := [.getbcr, .getdcr] } with
      | .next u => decide (u.pending = [.getdcr] ∧ u.out = [.i3c [6]])
      | _ => false) = true ∧
    (match step { State.reset with tim := { raw := 7, counting := true } } with
      | .next u => decide (raw u = 8)
      | _ => false) = true ∧
    allStarted State.reset = true ∧ State.reset.mgt.late = [] ∧ State.reset.mgt.warmAt = none ∧ timD State.reset < 2 ^ 44 := by decide +kernel

/-! ## Ill-formed terms are refused -/

theorem test_wellFormed :
    wellFormed (.bar4Read 0 0 0x1000 4) = true ∧ wellFormed (.bar4Read 0 0 0x1000 0) = false ∧ wellFormed (.bar4Read 0 0 0x1FFE 4) = false ∧
    wellFormed (.bar4Write 0 0x1000 [1]) = true ∧ wellFormed (.bar4Write 0 0x1000 []) = false ∧ wellFormed (.bar4Write 0 0x1FFF [1, 2]) = false ∧
    wellFormed (.bar4Write 0 0x1000 (List.replicate 513 0)) = false ∧ wellFormed (.spiReadInc 0 [false]) = true ∧
    wellFormed (.spiReadInc 0 []) = false ∧ wellFormed (.frameReceive 0 0 [true]) = true ∧
    wellFormed (.frameReceive 0 0 (List.replicate 32961 true)) = false := by decide +kernel
end

namespace Sys2Proof.Machine

/-! ## Reserved offsets (R44) -/

/-- A write to a reserved offset by a requester that sees it and is not refused is taken, and does nothing else. -/
theorem agentWrite_reserved {s : State} {w : Requester} {a : Nat} (v : Word) (hf : findReg (canonOff a) = none)
    (hv : viewOf s w (canonOff a) = .rw) (hx : extLocked s w (canonOff a) = false) (h0 : ∀ f : Fin 32, w = .fn f → f = 0) :
    agentWrite s w a v = taken s w := by
  unfold agentWrite
  simp only [hv, hx, hf, Bool.false_eq_true, if_false]
  cases w with
  | fn f => simp [h0 f rfl]
  | _ => rfl

/-- Taking a write leaves the writes that wait for a sleeping domain as they are. -/
@[simp] theorem taken_late (s : State) (w : Requester) : (taken s w).mgt.late = s.mgt.late := by
  unfold taken extStat
  split_ifs <;> rfl

/-- An aligned word write that nothing holds up ends as the register agent leaves it. -/
theorem regWrite_of_agentWrite {s u : State} {w : Requester} {a : Nat} {v : Word} (ha : a % 4 = 0) (hr : reaches s w = true)
    (harr : arrives s w = s) (hu : agentWrite s w a v = u) (hl : u.mgt.late = []) : regWrite s w .word a v = u := by
  simp [regWrite, hr, harr, ha, hu, deliverLate_nil u hl]

/-- Every requester reads 0 at a reserved offset, whether it sees it or not, and the read changes nothing. -/
theorem regRead_reserved (s : State) (w : Requester) (sz : AccSize) {a : Nat} (bad : Bool) (hf : findReg (canonOff a) = none) :
    regRead s w sz a bad = (0, s) := by
  unfold regRead
  simp only [hf]
  split_ifs <;> rfl

/-- So does an external port, whose other addresses read 0 too (R523). -/
theorem extRead_reserved (s : State) (w : Requester) {a : Nat} (bad : Bool) (hf : findReg (canonOff a) = none) :
    extRead s w a bad = (0, s) := by
  unfold extRead
  split_ifs
  · exact regRead_reserved s w .word bad hf
  · rfl

/-- Settles O57: neither the agent nor the SPI port finds a register to act on. -/
theorem reservedOffsets : Obligations.ReservedOffsets := by
  unfold Obligations.ReservedOffsets
  intro s a hf ha hl
  refine ⟨fun bad => ?_, fun w v hr harr hv hx h0 => ?_⟩
  · have hw : (a.setWidth 32).toNat = a.toNat := BitVec.toNat_setWidth_of_le (by decide)
    have hread : readInc s (a.setWidth 32).toNat [bad] = emit s (.spi 0 32) := by
      simp [readInc, hw, extRead_reserved s .spi bad hf]
    exact done_leads (congrArg done hread)
  · have hwrite : regWrite s w .word a.toNat v = taken s w :=
      regWrite_of_agentWrite ha hr harr (agentWrite_reserved v hf hv hx h0) ((taken_late s w).trans hl)
    exact done_leads (congrArg done hwrite)

end Sys2Proof.Machine

namespace Sys2Proof.Machine

/-! ## One engine -/

theorem onlyEngine_refl (s : State) (e : Nat) : OnlyEngine s s e := ⟨rfl, fun _ _ => rfl⟩

theorem onlyEngine_setEng (s : State) (e : Nat) (x : EngS) : OnlyEngine s (setEng s e x) e :=
  ⟨rfl, fun _ hk => eng_setEng_ne s x hk⟩

theorem onlyEngine_updEng (s : State) (e : Nat) (g : EngS → EngS) : OnlyEngine s (updEng s e g) e :=
  onlyEngine_setEng s e _

theorem onlyEngine_updEng_setEng (s : State) (e : Nat) (x : EngS) (g : EngS → EngS) : OnlyEngine s (updEng (setEng s e x) e g) e :=
  ⟨rfl, fun _ hk => (eng_updEng_ne _ g hk).trans (eng_setEng_ne s x hk)⟩

/-! ## The drain (R565) -/

/-- Engine `y` is engine `x` but for what writes in flight and coprocessor instructions leave behind when they end. -/
def EngS.LandsTo (x y : EngS) : Prop :=
  y = { x with
    scal := y.scal, vec := y.vec, pred := y.pred, acc := y.acc, sr := y.sr, accov := y.accov, fl := y.fl
    cp0 := y.cp0, cp0N := y.cp0N, cp1 := y.cp1, cp1N := y.cp1N, cp3 := y.cp3, cp3N := y.cp3N }

/-- What one landing and the next leave alone, both leave alone. -/
theorem EngS.LandsTo.trans {x y z : EngS} (hxy : x.LandsTo y) (hyz : y.LandsTo z) : x.LandsTo z := by
  unfold EngS.LandsTo at *
  rw [hxy] at hyz
  exact hyz

theorem EngS.landsTo_land1 (x : EngS) (w : InFl) : x.LandsTo (x.land1 w) := by
  unfold EngS.land1
  cases w.dst with
  | s r => dsimp only; split <;> rfl
  | v k => rfl
  | p n => dsimp only; split <;> rfl
  | acc n => rfl
  | sr n => rfl
  | flag n => rfl
  | accov => dsimp only; split <;> rfl

theorem EngS.landsTo_foldl_land1 (l : List InFl) (x : EngS) : x.LandsTo (l.foldl EngS.land1 x) := by
  induction l generalizing x with
  | nil => rfl
  | cons w l ih => exact (x.landsTo_land1 w).trans (ih _)

theorem EngS.landsTo_landDue (x : EngS) : x.LandsTo x.landDue :=
  EngS.LandsTo.trans (y := { x with fl := x.fl.filter fun w => decide (w.left ≠ 0) }) rfl (EngS.landsTo_foldl_land1 _ _)

theorem EngS.landsTo_cycle (x : EngS) : x.LandsTo x.cycle :=
  (EngS.LandsTo.trans (y := { x with fl := x.fl.map fun w => { w with left := w.left - 1 } }) rfl
    (EngS.landsTo_landDue _)).trans rfl

theorem EngS.landsTo_cycles (n : Nat) (x : EngS) : x.LandsTo (x.cycles n) := by
  induction n generalizing x with
  | zero => rfl
  | succ n ih => exact x.landsTo_cycle.trans (ih _)

theorem EngS.landsTo_drain (x : EngS) : x.LandsTo x.drain := by
  have hcycles : x.LandsTo (EngS.cycles flightMax { x with fl := x.fl.filter fun w => decide (w.dst ≠ .accov) }) :=
    EngS.LandsTo.trans (y := { x with fl := x.fl.filter fun w => decide (w.dst ≠ .accov) }) rfl (EngS.landsTo_cycles flightMax _)
  refine hcycles.trans ?_
  unfold EngS.drain
  generalize EngS.cycles flightMax _ = y
  rfl

@[simp] theorem EngS.drain_exc (x : EngS) : x.drain.exc = x.exc := by rw [x.landsTo_drain]

@[simp] theorem EngS.drain_fault (x : EngS) : x.drain.fault = x.fault := by rw [x.landsTo_drain]

/-! ## Handler entry (R120, R121, R126) -/

/-- An engine as it stands in its handler after the entry of R121: the return state is saved and the PC is at the handler. -/
def EngS.inHandler (x : EngS) (c : EExc) : EngS :=
  let y := (x.setSr Sr.EPC c.epc).setSr Sr.ECAUSE (c.code + if c.imprecise then 16 else 0)
  let y := match c.eaddr with
    | some a => y.setSr Sr.EADDR a
    | none => y
  { y.setSr Sr.ESTAT (2 * bits (x.srN Sr.ESTAT) 0 1 + 4) with pc := c.code * 32, exc := none }

/-- An engine whose handler cannot be entered reports a fault of its own, after the drain. -/
theorem enterHandler_halts {s : State} {e : Nat} {c : EExc} (hc : (eng s e).exc = some c)
    (hno : bitAt ((eng s e).drain.srN Sr.ESTAT) 2 = true ∨ (eng s e).drain.size ≤ c.code * 32) :
    enterHandler s e = engFault (setEng s e { (eng s e).drain with exc := none }) e 3 12 0 := by
  have hd : (eng s e).drain.exc = some c := (EngS.drain_exc _).trans hc
  unfold enterHandler
  generalize (eng s e).drain = x at *
  simp [hd, hno]

/-- Otherwise the engine goes from its drained state into the handler. -/
theorem enterHandler_enters {s : State} {e : Nat} {c : EExc} (hc : (eng s e).exc = some c)
    (hexl : bitAt ((eng s e).drain.srN Sr.ESTAT) 2 = false) (hin : c.code * 32 < (eng s e).drain.size) :
    eng (enterHandler s e) e = (eng s e).drain.inHandler c := by
  have hd : (eng s e).drain.exc = some c := (EngS.drain_exc _).trans hc
  have hie : ∀ v, 4 + 2 * (v % 2) = 2 * bits v 0 1 + 4 := fun v => by unfold bits; omega
  unfold enterHandler
  generalize (eng s e).drain = x at *
  simp only [hd, hexl, decide_eq_false (Nat.not_le.mpr hin), Bool.or_self, Bool.false_eq_true, if_false, eng_updEng_same,
    eng_setEng_same, hie]
  obtain ⟨code, imprecise, epc, _ | addr⟩ := c
  · rfl
  · rfl

/-- Whether it enters or halts, no other engine is concerned. -/
theorem onlyEngine_enterHandler (s : State) (e : Nat) : OnlyEngine s (enterHandler s e) e := by
  unfold enterHandler
  dsimp only
  split
  · exact onlyEngine_refl s e
  · split
    · exact onlyEngine_updEng_setEng s e _ _
    · exact onlyEngine_updEng_setEng s e _ _

/-! ## Interrupts (R119, R122, R123) -/

/-- The search finds an index that satisfies the predicate when none before it does. -/
theorem firstFrom_eq_some {p : Nat → Bool} {n i j : Nat} (hle : i ≤ j) (hlt : j < i + n) (hj : p j = true)
    (hbefore : ∀ k, i ≤ k → k < j → p k = false) : firstFrom p n i = some j := by
  induction n generalizing i with
  | zero => omega
  | succ n ih =>
    unfold firstFrom
    rcases Nat.eq_or_lt_of_le hle with rfl | hi
    · rw [if_pos hj]
    · rw [hbefore i le_rfl hi, if_neg Bool.false_ne_true]
      exact ih hi (by omega) fun k hk => hbefore k (by omega)

theorem bitAt_eq_testBit (v i : Nat) : bitAt v i = v.testBit i := by
  rw [Nat.testBit_eq_decide_div_mod_eq, bitAt]

theorem bitAt_and (v w i : Nat) : bitAt (v &&& w) i = (bitAt v i && bitAt w i) := by
  simp only [bitAt_eq_testBit, Nat.testBit_and]

/-- Of the sources that are pending and enabled the lowest is chosen. -/
theorem EngS.interrupt_eq_lowest {x : EngS} (i : Fin 4) (hp : bitAt (x.srN Sr.EIP) i = true) (he : bitAt (x.srN Sr.EIE) i = true)
    (hlow : ∀ j, j < i.val → (bitAt (x.srN Sr.EIP) j && bitAt (x.srN Sr.EIE) j) = false) : x.interrupt = some (12 + i.val) := by
  have hfirst : firstFrom (fun k => bitAt (x.srN Sr.EIP &&& x.srN Sr.EIE) k) 4 0 = some i.val :=
    firstFrom_eq_some (Nat.zero_le _) (by omega) (by simp [bitAt_and, hp, he]) fun k _ hk => (bitAt_and _ _ k).trans (hlow k hk)
  rw [EngS.interrupt, hfirst, Option.map_some]

theorem atBoundary_none {s : State} {e : Nat} (himp : (eng s e).impAcc = none) (hacc : (eng s e).accov = none) :
    atBoundary s e = none := by simp [atBoundary, himp, hacc]

/-- What `ready` says, one by one. -/
theorem EngS.ready_iff (x : EngS) : x.ready = true ↔
    x.run = true ∧ x.ended = false ∧ x.exc = none ∧ x.frozen = none ∧ x.fault = none := by
  simp [EngS.ready, and_assoc, Option.isNone_iff_eq_none]

/-- An engine that may issue at a bundle boundary takes an exception without a change beside the exception itself. -/
theorem eng_takeExc_ready {s : State} {e : Nat} (hready : (eng s e).ready = true) (hslot : (eng s e).slotB = none)
    (code epc eaddr : Nat) : eng (takeExc s e code epc eaddr false) e = withExc (eng s e) code epc eaddr := by
  obtain ⟨-, -, -, hfrozen, -⟩ := (EngS.ready_iff _).1 hready
  rw [takeExc_eng, withExc, ← hslot, ← hfrozen]

/-! ## The timer (R119, R140) -/

theorem EngS.srN_lt (x : EngS) (n : Nat) : x.srN n < 2 ^ 32 := BitVec.isLt _

/-- A special register takes the low 32 bits of what is written to it. -/
theorem EngS.setSr_congr (x : EngS) (n : Nat) {v w : Nat} (h : v % 2 ^ 32 = w % 2 ^ 32) : x.setSr n v = x.setSr n w := by
  have hw : BitVec.ofNat 32 v = BitVec.ofNat 32 w := BitVec.eq_of_toNat_eq (by simpa using h)
  rw [EngS.setSr, EngS.setSr, hw]

/-- From the count with words `lo` and `hi`, the next one whose low word is `m`: the high word carries when `m` lies behind. -/
theorem count_to_match {lo hi m : Nat} (hlo : lo < 2 ^ 32) (hm : m < 2 ^ 32) :
    lo + 2 ^ 32 * hi + (m + 2 ^ 32 - lo) % 2 ^ 32 = m + 2 ^ 32 * (hi + if m < lo then 1 else 0) := by
  split_ifs <;> omega

/-- An engine as ECYC comes to equal ECMP (log 104): its high word carries when the low word wraps on the way, and TIMER is pending. -/
def EngS.timerMatched (x : EngS) : EngS :=
  ((x.setSr Sr.ECYC_LO (x.srN Sr.ECMP)).setSr Sr.ECYC_HI
    (x.srN Sr.ECYC_HI + if x.srN Sr.ECMP < x.srN Sr.ECYC_LO then 1 else 0)).setSr Sr.EIP (x.srN Sr.EIP ||| 2)

theorem execIrqTimer_eq (e : Fin 1024) (s : State) : execIrqTimer e s = done (updEng s e EngS.timerMatched) := by
  unfold execIrqTimer
  congr 2
  funext x
  have hm := x.srN_lt Sr.ECMP
  dsimp only
  rw [count_to_match (x.srN_lt _) hm, Nat.add_mul_div_left _ _ (by decide), Nat.div_eq_of_lt hm, Nat.zero_add,
    x.setSr_congr Sr.ECYC_LO (Nat.add_mul_mod_self_left _ _ _), EngS.timerMatched]

/-- Settles O5: the drain keeps the exception and the fault, so entry and halt follow the two ways of `enterHandler`; the lowest enabled
source is the interrupt taken; the timer's match is the next count whose low word is ECMP. -/
theorem handlerEntry : Obligations.HandlerEntry := by
  unfold Obligations.HandlerEntry
  refine ⟨fun s e c hc => ?_, ?_, fun s e => ?_⟩
  · refine ⟨_, done_leads rfl, onlyEngine_enterHandler s e, enterHandler_enters hc, fun hno hfault => ?_⟩
    simp [enterHandler_halts hc hno, engFault_eng, hfault]
  · intro s e i x hready hslot hearly hie hexl himp hacc hp he hlow
    have hexec : exec (.interruptAccept e) s = done (takeExc s e (12 + i.val) x.pc 0 false) := by
      show execInterruptAccept e s = _
      simp [execInterruptAccept, x, hready, hslot, hearly, hie, hexl, atBoundary_none himp hacc, EngS.interrupt_eq_lowest i hp he hlow]
    exact ⟨_, done_leads hexec, onlyEngine_updEng s e _, eng_takeExc_ready hready hslot _ _ _⟩
  · exact ⟨_, done_leads (execIrqTimer_eq e s), onlyEngine_updEng s e _, eng_updEng_same s e _⟩

end Sys2Proof.Machine

namespace Sys2Proof.Machine

/-! ## Frames of registers -/

theorem SameRegsBut.trans {ks : List Nat} {s t u : State} (h : SameRegsBut ks s t) (h' : SameRegsBut ks t u) : SameRegsBut ks s u :=
  fun a ha => (h' a ha).trans (h a ha)

theorem SameRegsBut.mono {ks ls : List Nat} {s t : State} (h : SameRegsBut ks s t) (hl : ks ⊆ ls) : SameRegsBut ls s t :=
  fun a ha => h a fun hk => ha (hl hk)

theorem SameRegsBut.fld_eq {ks : List Nat} {s t : State} (h : SameRegsBut ks s t) {a : Nat} (ha : a ∉ ks) (f : Fld) :
    fld t a f = fld s a f := congrArg (getF · f) (h a ha)

theorem SameRegsBut.isSet_eq {ks : List Nat} {s t : State} (h : SameRegsBut ks s t) {a : Nat} (ha : a ∉ ks) (f : Fld) :
    isSet t a f = isSet s a f := by rw [isSet, isSet, h.fld_eq ha]

theorem SameRegsBut.rd64_eq {ks : List Nat} {s t : State} (h : SameRegsBut ks s t) {a : Nat} (ha : a ∉ ks) (ha4 : a + 4 ∉ ks) :
    rd64 t a = rd64 s a := by rw [rd64, rd64, h a ha, h (a + 4) ha4]

theorem sameRegs_withTim (ks : List Nat) (s : State) (tim : TimS) : SameRegsBut ks s { s with tim := tim } := fun _ _ => rfl

theorem OnlyRegs.out_eq {ks : List Nat} {s t : State} (h : OnlyRegs ks s t) : t.out = s.out := by rw [h.1]

theorem OnlyRegs.tim_eq {ks : List Nat} {s t : State} (h : OnlyRegs ks s t) : t.tim = s.tim := by rw [h.1]

theorem OnlyRegs.mem_eq {ks : List Nat} {s t : State} (h : OnlyRegs ks s t) : t.mem = s.mem := by rw [h.1]

theorem OnlyRegs.raw_eq {ks : List Nat} {s t : State} (h : OnlyRegs ks s t) : raw t = raw s := by rw [raw, raw, h.tim_eq]

theorem isSet_setFld (s : State) (a : Nat) (f : Fld) (v : Nat) (h : f.lo + f.width ≤ 32) :
    isSet (setFld s a f v) a f = decide (v % 2 ^ f.width ≠ 0) := by rw [isSet, fld_setFld _ _ _ _ h]

/-- Registers that taking a write may change: none but MGT_EXT_STAT (R526). -/
theorem onlyRegs_taken (s : State) (w : Requester) : OnlyRegs [Reg.MGT_EXT_STAT] s (taken s w) := by
  unfold taken extStat
  split_ifs
  · exact onlyRegs_trans (onlyRegs_setFld _ _ _ _ (by simp)) (onlyRegs_setFld _ _ _ _ (by simp))
  · exact onlyRegs_refl _ _

theorem rd_taken (s : State) (w : Requester) {a : Nat} (ha : a ≠ Reg.MGT_EXT_STAT) : rd (taken s w) a = rd s a :=
  (onlyRegs_taken s w).2 a (by simpa using ha)

/-! ## Disciplined time (R389 to R391) -/

theorem raw_lt (s : State) : raw s < 2 ^ 48 := s.tim.raw.isLt

theorem cast_wrapN (n : Nat) (v : Int) : (wrapN n v : Int) = v % (2 ^ n : Nat) :=
  Int.toNat_of_nonneg (Int.emod_nonneg _ (by positivity))

theorem wrapN_lt (n : Nat) (v : Int) : wrapN n v < 2 ^ n := by
  have h : (wrapN n v : Int) < (2 ^ n : Nat) := cast_wrapN n v ▸ Int.emod_lt_of_pos _ (by positivity)
  exact_mod_cast h

theorem wrapN_wrapN_add (n : Nat) (v w : Int) : wrapN n (wrapN n v + w) = wrapN n (v + w) := by
  rw [wrapN, cast_wrapN, Int.emod_add_emod, wrapN]

theorem rd64_wr64_of_lt (s : State) (a : Nat) {v : Nat} (h : v < 2 ^ 64) : rd64 (wr64 s a v) a = v := by
  rw [rd64_wr64, Nat.mod_eq_of_lt h]

/-- The registers that a fold writes. -/
abbrev foldRegs : List Nat := [Reg.TIM_OFFSET_LO, Reg.TIM_OFFSET_HI, Reg.TIM_RAW_BASE_LO, Reg.TIM_RAW_BASE_HI]

theorem onlyRegs_timFold (s : State) : OnlyRegs foldRegs s (timFold s) :=
  onlyRegs_trans (onlyRegs_wr64 _ _ _ (by simp) (by decide)) (onlyRegs_wr64 _ _ _ (by simp) (by decide))

theorem timBase_timFold (s : State) : timBase (timFold s) = raw s :=
  rd64_wr64_of_lt _ _ ((raw_lt s).trans (by decide))

theorem timOffset_timFold (s : State) : timOffset (timFold s) = wrapN 64 ((timOffset s : Int) + timCorr (timRate s) (timD s)) := by
  have hbase : ∀ t v, OnlyRegs [Reg.TIM_RAW_BASE_LO, Reg.TIM_RAW_BASE_HI] t (wr64 t Reg.TIM_RAW_BASE_LO v) :=
    fun t v => onlyRegs_wr64 _ _ _ (by simp) (by decide)
  exact ((hbase _ _).2.rd64_eq (by decide) (by decide)).trans (rd64_wr64_of_lt _ _ (wrapN_lt _ _))

theorem timD_of_base_eq_raw {s : State} (h : timBase s = raw s) : timD s = 0 := by
  have hlt := raw_lt s
  rw [timD, h]
  omega

/-- What a fold has to give so that the disciplined time does not step. -/
theorem timNow_eq_of_folded {s u : State} (hraw : raw u = raw s) (hbase : timBase u = raw u)
    (hoff : timOffset u = wrapN 64 ((timOffset s : Int) + timCorr (timRate s) (timD s))) : timNow u = timNow s := by
  have hzero : timCorr (timRate u) 0 = 0 := by simp [timCorr]
  rw [timNow, timD_of_base_eq_raw hbase, hzero, hoff, hraw, add_assoc, wrapN_wrapN_add, timNow]
  congr 1
  ring

theorem timNow_timFold (s : State) : timNow (timFold s) = timNow s :=
  timNow_eq_of_folded (onlyRegs_timFold s).raw_eq ((timBase_timFold s).trans (onlyRegs_timFold s).raw_eq.symm) (timOffset_timFold s)

theorem timOffset_taken (s : State) (w : Requester) : timOffset (taken s w) = timOffset s :=
  (onlyRegs_taken s w).2.rd64_eq (by decide) (by decide)

theorem timNow_taken (s : State) (w : Requester) : timNow (taken s w) = timNow s := by
  have hbase : timBase (taken s w) = timBase s := (onlyRegs_taken s w).2.rd64_eq (by decide) (by decide)
  have hrate : timRate (taken s w) = timRate s := congrArg BitVec.toInt (rd_taken s w (by decide))
  rw [timNow, timD, timOffset_taken, hbase, hrate, (onlyRegs_taken s w).raw_eq, timNow, timD]

/-! ## The count: wrap and rebase (R384, R391) -/

theorem timWrap_idle {s : State} (h : s.tim.counting = false ∨ raw s ≠ 2 ^ 48 - 1) : timWrap s = s := by
  rw [timWrap, if_neg]
  rcases h with h | h
  · simp [h]
  · rw [decide_eq_false h, Bool.and_false]
    exact Bool.false_ne_true

/-- The count at 0, the wrap counted: where the fold of a wrap starts. -/
def wrapped (s : State) : State := setRaw (inc s Reg.TIM_WRAP_CNT) 0

theorem sameRegs_wrapped (s : State) : SameRegsBut [Reg.TIM_WRAP_CNT] s (wrapped s) := (onlyRegs_inc _ s (by simp)).2

theorem timWrap_due {s : State} (hcount : s.tim.counting = true) (hraw : raw s = 2 ^ 48 - 1) :
    timWrap s = wr64 (timFold (wrapped s)) Reg.TIM_OFFSET_LO ((timOffset (timFold (wrapped s)) + 2 ^ 48) % 2 ^ 64) := by
  simp [timWrap, tick, hcount, hraw, wrapped]

theorem timOffset_timFold_wrapped (s : State) :
    timOffset (timFold (wrapped s)) = wrapN 64 ((timOffset s : Int) + timCorr (timRate s) (wrapD s)) := by
  have hoff : timOffset (wrapped s) = timOffset s := (sameRegs_wrapped s).rd64_eq (by decide) (by decide)
  have hrate : timRate (wrapped s) = timRate s := congrArg BitVec.toInt (sameRegs_wrapped s Reg.TIM_RATE (by decide))
  have hbase : timBase (wrapped s) = timBase s := (sameRegs_wrapped s).rd64_eq (by decide) (by decide)
  have hd : timD (wrapped s) = wrapD s := by
    rw [timD, hbase, show raw (wrapped s) = 0 from rfl, Nat.zero_add, wrapD]
  rw [timOffset_timFold, hoff, hrate, hd]

theorem timWrap_ends {s : State} (hcount : s.tim.counting = true) (hraw : raw s = 2 ^ 48 - 1) :
    Ends .timWrap s fun u =>
      u.tim = { s.tim with raw := 0 } ∧ rd u Reg.TIM_WRAP_CNT = rd s Reg.TIM_WRAP_CNT + 1 ∧ timBase u = 0 ∧
      timOffset u = (wrapN 64 ((timOffset s : Int) + timCorr (timRate s) (wrapD s)) + 2 ^ 48) % 2 ^ 64 ∧
      SameRegsBut (Reg.TIM_WRAP_CNT :: foldRegs) s u := by
  refine ⟨timWrap s, done_leads rfl, ?_⟩
  rw [timWrap_due hcount hraw]
  set t := timFold (wrapped s) with ht
  have hfold : OnlyRegs foldRegs (wrapped s) t := onlyRegs_timFold _
  have hlast : ∀ v, OnlyRegs [Reg.TIM_OFFSET_LO, Reg.TIM_OFFSET_HI] t (wr64 t Reg.TIM_OFFSET_LO v) :=
    fun v => onlyRegs_wr64 _ _ _ (by simp) (by decide)
  refine ⟨?_, ?_, ?_, ?_, ?_⟩
  · rw [wr64_tim, hfold.tim_eq]
    rfl
  · rw [(hlast _).2 _ (by decide), hfold.2 _ (by decide)]
    exact rd_inc_same s _
  · exact ((hlast _).2.rd64_eq (by decide) (by decide)).trans (timBase_timFold _)
  · rw [timOffset, rd64_wr64, Nat.mod_mod, timOffset_timFold_wrapped]
  · exact ((sameRegs_wrapped s).mono (by simp)).trans
      ((hfold.2.mono (by simp)).trans ((hlast _).2.mono (by simp)))

theorem timRebase_ends {s : State} (hd : 2 ^ 44 ≤ timD s) :
    Ends .timRebase s fun u => timNow u = timNow s ∧ timBase u = raw s ∧ OnlyRegs foldRegs s u := by
  refine ⟨timFold s, done_leads ?_, timNow_timFold s, timBase_timFold s, onlyRegs_timFold s⟩
  exact congrArg done (if_pos hd)

/-! ## The AON PLL (R35, R384, R385, R387) -/

theorem sep_tim (s : State) (type unit code arg : Nat) : (sep s type unit code arg).tim = s.tim := by
  rcases sep_cases s type unit code arg with h | h | h <;> rw [h] <;> rfl

theorem sameRegs_sep (s : State) (type unit code arg : Nat) : SameRegsBut [Reg.SEP_DROP_CNT] s (sep s type unit code arg) := by
  obtain ⟨-, -, -, -, h⟩ := sep_frame s type unit code arg
  exact fun a ha => h a (by simpa using ha)

/-- A lock reaches the time base as `aonPllLock` says; the boot ROM's part is HST's alone. -/
theorem pllLocked_frame (s : State) :
    (pllLocked s).regs = (aonPllLock s).regs ∧ (pllLocked s).tim = (aonPllLock s).tim ∧ (pllLocked s).mem = (aonPllLock s).mem := by
  unfold pllLocked configureHst endRetry
  dsimp only
  split_ifs <;> exact ⟨rfl, rfl, rfl⟩

theorem pllLocked_of_locked {s : State} (h : isSet s Reg.TIM_STATUS F.TIM_STATUS_LOCK = true) : pllLocked s = s := by
  simp [pllLocked, aonPllLock, h]

/-- The status that a lock leaves. -/
def lockedStatus (s : State) : State := setFld (setFld s Reg.TIM_STATUS F.TIM_STATUS_LOCK 1) Reg.TIM_STATUS F.TIM_STATUS_HOLDOVER 0

/-- The count runs once the PLL has locked; at a lock after a loss an event is recorded besides. -/
theorem aonPllLock_frame {s : State} (h : isSet s Reg.TIM_STATUS F.TIM_STATUS_LOCK = false) :
    SameRegsBut [Reg.SEP_DROP_CNT] (lockedStatus s) (aonPllLock s) ∧ (aonPllLock s).tim = { s.tim with counting := true } ∧
      (aonPllLock s).mem = s.mem := by
  unfold aonPllLock
  simp only [h, Bool.false_eq_true, if_false]
  split_ifs
  · exact ⟨sameRegs_sep _ _ _ _ _, sep_tim _ _ _ _ _, sep_mem _ _ _ _ _⟩
  · exact ⟨fun _ _ => rfl, rfl, rfl⟩

theorem aonPllLock_ends {s : State} (h : isSet s Reg.TIM_STATUS F.TIM_STATUS_LOCK = false) :
    Ends .aonPllLock s fun u => isSet u Reg.TIM_STATUS F.TIM_STATUS_LOCK = true ∧
      isSet u Reg.TIM_STATUS F.TIM_STATUS_HOLDOVER = false ∧ u.tim = { s.tim with counting := true } ∧ u.mem = s.mem := by
  obtain ⟨hregs, htim, hmem⟩ := pllLocked_frame s
  obtain ⟨hframe, htim', hmem'⟩ := aonPllLock_frame h
  have hset : ∀ f, isSet (pllLocked s) Reg.TIM_STATUS f = isSet (lockedStatus s) Reg.TIM_STATUS f := fun f => by
    rw [← hframe.isSet_eq (by decide) f, isSet, isSet, fld, fld, rd, rd, hregs]
  refine ⟨pllLocked s, done_leads rfl, ?_, ?_, htim.trans htim', hmem.trans hmem'⟩
  · rw [hset, lockedStatus, isSet, fld_setFld_ne _ _ _ _ _ (by decide) (by decide), fld_setFld _ _ _ _ (by decide)]
    rfl
  · rw [hset, lockedStatus, isSet_setFld _ _ _ _ (by decide)]
    rfl

theorem aonPllLoss_of_unlocked {s : State} (h : isSet s Reg.TIM_STATUS F.TIM_STATUS_LOCK = false) : aonPllLoss s = s := by
  simp [aonPllLoss, h]

/-- The status that a loss leaves. -/
def holdoverStatus (s : State) : State := setFld (setFld s Reg.TIM_STATUS F.TIM_STATUS_LOCK 0) Reg.TIM_STATUS F.TIM_STATUS_HOLDOVER 1

theorem aonPllLoss_of_locked {s : State} (h : isSet s Reg.TIM_STATUS F.TIM_STATUS_LOCK = true) :
    aonPllLoss s = sep (evt (holdoverStatus s) Reg.TIM_EVT F.TIM_EVT_HOLDOVER) 0x0F 0 0 0 := by
  simp [aonPllLoss, h, holdoverStatus]

theorem aonPllLoss_ends {s : State} (h : isSet s Reg.TIM_STATUS F.TIM_STATUS_LOCK = true) :
    Ends .aonPllLoss s fun u => isSet u Reg.TIM_STATUS F.TIM_STATUS_LOCK = false ∧
      isSet u Reg.TIM_STATUS F.TIM_STATUS_HOLDOVER = true ∧ isSet u Reg.TIM_EVT F.TIM_EVT_HOLDOVER = true ∧ u.tim = s.tim ∧ u.mem = s.mem := by
  refine ⟨aonPllLoss s, done_leads rfl, ?_⟩
  rw [aonPllLoss_of_locked h]
  set t := evt (holdoverStatus s) Reg.TIM_EVT F.TIM_EVT_HOLDOVER with ht
  have hsep := sameRegs_sep t 0x0F 0 0 0
  have hstat : ∀ f, isSet (sep t 0x0F 0 0 0) Reg.TIM_STATUS f = isSet (holdoverStatus s) Reg.TIM_STATUS f := fun f => by
    rw [hsep.isSet_eq (by decide), ht, isSet, evt, fld_setFld_reg _ _ _ _ (by decide), isSet]
  refine ⟨?_, ?_, ?_, sep_tim _ _ _ _ _, sep_mem _ _ _ _ _⟩
  · rw [hstat, holdoverStatus, isSet, fld_setFld_ne _ _ _ _ _ (by decide) (by decide), fld_setFld _ _ _ _ (by decide)]
    rfl
  · rw [hstat, holdoverStatus, isSet_setFld _ _ _ _ (by decide)]
    rfl
  · rw [hsep.isSet_eq (by decide), ht, evt, isSet_setFld _ _ _ _ (by decide)]
    rfl

/-! ## Writes of the registers of the time base -/

/-- What `direct` says of a register in the always-on domain, beside what `regWrite_direct` draws from it. -/
theorem direct_live {s : State} {w : Requester} {a : Nat} (h : direct s w a = true) :
    blockLive s (blockDomain a) = true ∧ domSt s (blockDomain a) ≠ 1 ∧ s.mgt.late = [] := by
  simp only [direct, Bool.and_eq_true, decide_eq_true_eq, List.isEmpty_iff] at h
  obtain ⟨⟨⟨⟨⟨⟨-, -⟩, hlive⟩, hact⟩, hlate⟩, -⟩, -⟩ := h
  exact ⟨hlive, hact, hlate⟩

theorem blockDomain_tim {a : Nat} (ha : 0x20000 ≤ a ∧ a < 0x30000) : blockDomain a = 24 := by
  rw [blockDomain, if_neg (by omega), if_neg (by omega), if_pos (by omega)]

/-- The always-on domain's blocks are there, and the domain is not IDLE. -/
def aonAwake (s : State) : Prop := blockLive s 24 = true ∧ domSt s 24 ≠ 1

/-- A register outside the power block is none that a wake depends on. -/
theorem aonAwake_congr {ks : List Nat} {s t : State} (h : SameRegsBut ks s t) (ha : Reg.PWR_DOMAIN_STATE 24 ∉ ks) (hs : aonAwake s) :
    aonAwake t := by
  have hd : domSt t 24 = domSt s 24 := h.fld_eq ha _
  have hl : blockLive t 24 = blockLive s 24 := by simp [blockLive, domLive, hd]
  rw [aonAwake, hl, hd]
  exact hs

theorem keepLane_of_lt (s : State) (w : Requester) {a : Nat} (ha : a < 0x400000) (v : Word) : keepLane s w a v = v := by
  unfold keepLane
  split
  · exact if_neg fun ⟨_, h, _⟩ => absurd h (by omega)
  · rfl

/-- A write to an awake block of the always-on domain is applied at once. -/
theorem writeReg_aon {s : State} (h : aonAwake s) (w : Requester) {a : Nat} (ha : 0x20000 ≤ a ∧ a < 0x30000) (d : RegDesc) (v : Word) :
    writeReg s w a d v = applyWrite s w (whoFn w) a d v := by
  rw [writeReg, blockDomain_tim ha, keepLane_of_lt s w (by omega), if_pos h.1, wakeIdle_same s h.2]

theorem putF_full (w : Word) (v : Nat) : putF w ⟨0, 32⟩ v = BitVec.ofNat 32 v := by
  have hmask : BitVec.ofNat 32 ((2 ^ 32 - 1) * 2 ^ 0) = BitVec.allOnes 32 := by decide
  rw [putF, hmask, BitVec.not_allOnes, BitVec.and_zero, BitVec.zero_or, BitVec.and_allOnes, Nat.pow_zero, Nat.mul_one]

theorem getF_full (w : Word) : getF w ⟨0, 32⟩ = w.toNat := by
  have := w.isLt
  simp only [getF]
  omega

/-- A register that is one RW field takes the word that is written. -/
theorem mergeReg_word (w : Requester) (a : Nat) {d : RegDesc} (hd : d.fields = [⟨0, 32, .rw, [], .any⟩]) (old v : Word) :
    mergeReg w a d old v = v := by
  simp [mergeReg, hd, mergeField, mayWrite, encOk, putF_full, getF_full]

/-- A register that is one WO field takes the word that is written. -/
theorem woPart_word (w : Requester) (a : Nat) {d : RegDesc} (hd : d.fields = [⟨0, 32, .wo, [], .any⟩]) (v : Word) : woPart w a d v = v := by
  simp [woPart, hd, mayWrite, putF_full, getF_full]

theorem findReg_timRate : ∃ d k, findReg Reg.TIM_RATE = some (d, k) ∧ d.pair = 0 ∧ d.fields = [⟨0, 32, .rw, [], .any⟩] :=
  ⟨_, _, rfl, rfl, rfl⟩

theorem findReg_timStep : ∃ d k, findReg Reg.TIM_STEP = some (d, k) ∧ d.pair = 0 ∧ d.fields = [⟨0, 32, .wo, [], .any⟩] :=
  ⟨_, _, rfl, rfl, rfl⟩

theorem findReg_timOffsetLo : ∃ d k, findReg Reg.TIM_OFFSET_LO = some (d, k) ∧ d.perFn = false ∧ d.fields = [⟨0, 32, .rw, [], .any⟩] :=
  ⟨_, _, rfl, rfl, rfl⟩

theorem findReg_timOffsetHi : ∃ d k, findReg Reg.TIM_OFFSET_HI = some (d, k) ∧ d.pair = 2 ∧
    d.fields = [⟨0, 32, .rw, [], .any⟩] :=
  ⟨_, _, rfl, rfl, rfl⟩

theorem writeAt_timRate : writeAtList (hookBlock Reg.TIM_RATE) Reg.TIM_RATE = some fun _ _ _ m s => timSetRate s m := rfl

theorem writeAt_timStep : writeAtList (hookBlock Reg.TIM_STEP) Reg.TIM_STEP = some fun _ _ v _ s => timStep s v := rfl

theorem writeAt_timOffsetHi : writeAtList (hookBlock Reg.TIM_OFFSET_HI) Reg.TIM_OFFSET_HI =
    some fun _ _ _ m s => timSetOffset s (rd s Reg.TIM_OFFSET_LO) m := rfl

theorem writeAt_timOffsetLo : writeAtList (hookBlock Reg.TIM_OFFSET_LO) Reg.TIM_OFFSET_LO = none := rfl

theorem aonAwake_taken {s : State} {w : Requester} {a : Nat} (ha : 0x20000 ≤ a ∧ a < 0x30000) (h : direct s w a = true) :
    aonAwake (taken s w) := by
  obtain ⟨hlive, hact, -⟩ := direct_live h
  rw [blockDomain_tim ha] at hlive hact
  exact aonAwake_congr (onlyRegs_taken s w).2 (by decide) ⟨hlive, hact⟩

/-- A direct write ends as the register's pair and effect leave it. -/
theorem regWrite_of_writePair {s u : State} {w : Requester} {a k : Nat} {d : RegDesc} {v : Word} (h : direct s w a = true)
    (h4 : a % 4 = 0) (hf : findReg a = some (d, k)) (hu : writePair (taken s w) w a d v = u) (hmgt : u.mgt = s.mgt) :
    regWrite s w .word a v = u := by
  obtain ⟨d', k', hf', hw⟩ := regWrite_direct v h h4
  obtain ⟨rfl, rfl⟩ : d = d' ∧ k = k' := by simpa [hf] using hf'
  obtain ⟨-, -, hlate⟩ := direct_live h
  rw [hw, hu, deliverLate_nil u (by rw [hmgt, hlate])]

theorem taken_mgt (s : State) (w : Requester) : (taken s w).mgt = s.mgt := by rw [(onlyRegs_taken s w).1]

theorem onlyRegs_timSetRate (s : State) (v : Word) :
    OnlyRegs (foldRegs ++ [Reg.TIM_RATE, Reg.TIM_PARAM_GEN]) s (timSetRate s v) :=
  onlyRegs_trans ⟨(onlyRegs_timFold s).1, (onlyRegs_timFold s).2.mono (by simp)⟩
    (onlyRegs_trans (onlyRegs_wr _ _ _ (by simp)) (onlyRegs_inc _ _ (by simp)))

theorem sameRegs_timSetRate_timFold (s : State) (v : Word) :
    SameRegsBut [Reg.TIM_RATE, Reg.TIM_PARAM_GEN] (timFold s) (timSetRate s v) :=
  (onlyRegs_trans (onlyRegs_wr _ (timFold s) v (by simp)) (onlyRegs_inc _ _ (by simp))).2

theorem timBase_timSetRate (s : State) (v : Word) : timBase (timSetRate s v) = raw s :=
  ((sameRegs_timSetRate_timFold s v).rd64_eq (by decide) (by decide)).trans (timBase_timFold s)

theorem timNow_timSetRate (s : State) (v : Word) : timNow (timSetRate s v) = timNow s := by
  have hraw := (onlyRegs_timSetRate s v).raw_eq
  refine timNow_eq_of_folded hraw ((timBase_timSetRate s v).trans hraw.symm) ?_
  exact ((sameRegs_timSetRate_timFold s v).rd64_eq (by decide) (by decide)).trans (timOffset_timFold s)

theorem rd_timSetRate_gen (s : State) (v : Word) : rd (timSetRate s v) Reg.TIM_PARAM_GEN = rd s Reg.TIM_PARAM_GEN + 1 := by
  rw [timSetRate, paramGen, rd_inc_same, rd_wr_ne _ _ (by decide), (onlyRegs_timFold s).2 _ (by decide)]

theorem rd_timSetRate_rate (s : State) (v : Word) : rd (timSetRate s v) Reg.TIM_RATE = v := by
  rw [timSetRate, paramGen, rd_inc_ne _ (by decide), rd_wr_same]

theorem exec_timRate {s : State} {w : Requester} {v : Word} (h : direct s w Reg.TIM_RATE = true) :
    exec (.timRate w v) s = done (timSetRate (taken s w) v) := by
  obtain ⟨d, k, hf, hpair, hfields⟩ := findReg_timRate
  refine congrArg done (regWrite_of_writePair h (by decide) hf ?_ ?_)
  · rw [writePair, if_neg (by simp [hpair]), if_neg (by simp [hpair]), writeReg_aon (aonAwake_taken (by decide) h) w (by decide)]
    simp only [applyWrite, writeAt_timRate, mergeReg_word w _ hfields]
  · rw [(onlyRegs_timSetRate _ v).1]
    exact taken_mgt s w

theorem timRate_ends {s : State} {w : Requester} {v : Word} (h : direct s w Reg.TIM_RATE = true) :
    Ends (.timRate w v) s fun u =>
      timNow u = timNow s ∧ timBase u = raw s ∧ rd u Reg.TIM_RATE = v ∧ rd u Reg.TIM_PARAM_GEN = rd s Reg.TIM_PARAM_GEN + 1 ∧
      OnlyRegs (foldRegs ++ [Reg.TIM_RATE, Reg.TIM_PARAM_GEN]) (taken s w) u :=
  ⟨_, done_leads (exec_timRate h), (timNow_timSetRate _ v).trans (timNow_taken s w),
    (timBase_timSetRate _ v).trans (onlyRegs_taken s w).raw_eq, rd_timSetRate_rate _ v,
    (rd_timSetRate_gen _ v).trans (by rw [rd_taken s w (by decide)]), onlyRegs_timSetRate _ v⟩

theorem feature_taken (s : State) (w : Requester) (bit : Nat) (hb : bit < 32) : feature (taken s w) 0 bit = feature s 0 bit := by
  have hreg : Reg.DRV_SWATCH (bit / 32) = 0x120 := by simp [Reg.DRV_SWATCH, Nat.div_eq_of_lt hb]
  rw [feature, feature, hreg, rd_taken s w (by decide), (onlyRegs_taken s w).2.isSet_eq (by decide)]

theorem exec_timStep {s : State} {w : Requester} {v : Word} (h : direct s w Reg.TIM_STEP = true) :
    exec (.timStep w v) s = done (timStep (taken s w) v) := by
  obtain ⟨d, k, hf, hpair, hfields⟩ := findReg_timStep
  refine congrArg done (regWrite_of_writePair h (by decide) hf ?_ ?_)
  · rw [writePair, if_neg (by simp [hpair]), if_neg (by simp [hpair]), writeReg_aon (aonAwake_taken (by decide) h) w (by decide)]
    simp only [applyWrite, writeAt_timStep, woPart_word w _ hfields]
  · unfold timStep
    split_ifs
    · exact taken_mgt s w
    · exact taken_mgt s w

theorem timStep_ends {s : State} {w : Requester} {v : Word} (h : direct s w Reg.TIM_STEP = true) (hon : feature s 0 11 = true) :
    Ends (.timStep w v) s fun u =>
      timOffset u = wrapN 64 ((timOffset s : Int) + v.toInt) ∧ rd u Reg.TIM_PARAM_GEN = rd s Reg.TIM_PARAM_GEN + 1 ∧
      OnlyRegs [Reg.TIM_OFFSET_LO, Reg.TIM_OFFSET_HI, Reg.TIM_PARAM_GEN] (taken s w) u := by
  refine ⟨_, done_leads (exec_timStep h), ?_⟩
  rw [timStep, if_pos ((feature_taken s w 11 (by decide)).trans hon), timOffset_taken]
  refine ⟨?_, ?_, onlyRegs_trans (onlyRegs_wr64 _ _ _ (by simp) (by decide)) (onlyRegs_inc _ _ (by simp))⟩
  · exact ((onlyRegs_inc [Reg.TIM_PARAM_GEN] _ (by simp)).2.rd64_eq (by decide) (by decide)).trans (rd64_wr64_of_lt _ _ (wrapN_lt _ _))
  · rw [paramGen, rd_inc_same, rd_wr64_ne _ (by decide) (by decide), rd_taken s w (by decide)]

theorem timStep_off {s : State} {w : Requester} {v : Word} (h : direct s w Reg.TIM_STEP = true) (hoff : feature s 0 11 = false) :
    Leads (.timStep w v) s (taken s w) := by
  have hstep : timStep (taken s w) v = taken s w := if_neg (by rw [feature_taken s w 11 (by decide), hoff]; exact Bool.false_ne_true)
  exact done_leads ((exec_timStep h).trans (congrArg done hstep))

/-- The low half of the pair TIM_OFFSET that a write of the high half completes (R15). -/
def offsetLow (s : State) (w : Requester) : Word :=
  (Tab.get (fun _ => none) s.holdW (holdKey w Reg.TIM_OFFSET_LO)).getD (rd s Reg.TIM_OFFSET_LO)

/-- The pair is written with the low half that is held, or with the one that stands. -/
theorem writePair_timOffsetHi {s : State} (hs : aonAwake s) (w : Requester) {d : RegDesc} (v : Word) (hpair : d.pair = 2)
    (hfields : d.fields = [⟨0, 32, .rw, [], .any⟩]) :
    ∃ t, writePair s w Reg.TIM_OFFSET_HI d v = timSetOffset t (offsetLow s w) v ∧ SameRegsBut [Reg.TIM_OFFSET_LO] s t ∧ t.mgt = s.mgt := by
  have hhi : ∀ t, aonAwake t → writeReg t w Reg.TIM_OFFSET_HI d v = timSetOffset t (rd t Reg.TIM_OFFSET_LO) v := fun t ht => by
    rw [writeReg_aon ht w (by decide)]
    simp only [applyWrite, writeAt_timOffsetHi, mergeReg_word w _ hfields]
  obtain ⟨dl, kl, hf, hper, hlo⟩ := findReg_timOffsetLo
  have hkey : Reg.TIM_OFFSET_HI - 4 = Reg.TIM_OFFSET_LO := rfl
  unfold writePair
  rw [if_neg (by simp [hpair]), if_pos hpair, hkey, hf]
  cases hold : Tab.get (fun _ => none) s.holdW (holdKey w Reg.TIM_OFFSET_LO) with
  | none => exact ⟨s, by simp [hold, hhi s hs, offsetLow], fun _ _ => rfl, rfl⟩
  | some lo =>
    simp only [hold]
    set s1 : State := { s with holdW := Tab.put (fun _ => none) s.holdW (holdKey w Reg.TIM_OFFSET_LO) none } with hs1
    have hlow : writeReg s1 w Reg.TIM_OFFSET_LO dl lo = wr s1 Reg.TIM_OFFSET_LO lo := by
      rw [writeReg_aon (s := s1) hs w (by decide)]
      simp [applyWrite, writeAt_timOffsetLo, mergeReg_word w _ hlo, hper]
    have hsame : SameRegsBut [Reg.TIM_OFFSET_LO] s (wr s1 Reg.TIM_OFFSET_LO lo) := (onlyRegs_wr _ s1 lo (by simp)).2
    refine ⟨wr s1 Reg.TIM_OFFSET_LO lo, ?_, hsame, rfl⟩
    rw [hlow, hhi _ (aonAwake_congr hsame (by decide) hs), rd_wr_same, offsetLow, hold, Option.getD_some]

theorem onlyRegs_timSetOffset (s : State) (lo hi : Word) :
    OnlyRegs [Reg.TIM_OFFSET_LO, Reg.TIM_OFFSET_HI, Reg.TIM_STATUS, Reg.TIM_PARAM_GEN] s (timSetOffset s lo hi) :=
  onlyRegs_trans (onlyRegs_wr _ _ _ (by simp)) (onlyRegs_trans (onlyRegs_wr _ _ _ (by simp))
    (onlyRegs_trans (onlyRegs_setFld _ _ _ _ (by simp)) (onlyRegs_inc _ _ (by simp))))

theorem timOffset_timSetOffset (s : State) (lo hi : Word) : timOffset (timSetOffset s lo hi) = lo.toNat + 2 ^ 32 * hi.toNat := by
  have hhi : rd (timSetOffset s lo hi) (Reg.TIM_OFFSET_LO + 4) = hi := by
    rw [timSetOffset, paramGen, rd_inc_ne _ (by decide), rd_setFld_ne _ _ _ (by decide)]
    exact rd_wr_same _ _ _
  have hlo : rd (timSetOffset s lo hi) Reg.TIM_OFFSET_LO = lo := by
    rw [timSetOffset, paramGen, rd_inc_ne _ (by decide), rd_setFld_ne _ _ _ (by decide), rd_wr_ne _ _ (by decide), rd_wr_same]
  rw [timOffset, rd64, hlo, hhi]

theorem isSet_timSetOffset (s : State) (lo hi : Word) : isSet (timSetOffset s lo hi) Reg.TIM_STATUS F.TIM_STATUS_SET = true := by
  rw [timSetOffset, paramGen, (onlyRegs_inc [Reg.TIM_PARAM_GEN] _ (by simp)).2.isSet_eq (by decide), isSet_setFld _ _ _ _ (by decide)]
  rfl

theorem rd_timSetOffset_gen (s : State) (lo hi : Word) :
    rd (timSetOffset s lo hi) Reg.TIM_PARAM_GEN = rd s Reg.TIM_PARAM_GEN + 1 := by
  rw [timSetOffset, paramGen, rd_inc_same, rd_setFld_ne _ _ _ (by decide), rd_wr_ne _ _ (by decide), rd_wr_ne _ _ (by decide)]

theorem offsetLow_taken (s : State) (w : Requester) : offsetLow (taken s w) w = offsetLow s w := by
  have hhold : (taken s w).holdW = s.holdW := by rw [(onlyRegs_taken s w).1]
  rw [offsetLow, hhold, rd_taken s w (by decide), offsetLow]

theorem timOffsetHi_ends {s : State} {w : Requester} {v : Word} (h : direct s w Reg.TIM_OFFSET_HI = true) :
    Ends (.timOffsetHi w v) s fun u =>
      timOffset u = (offsetLow s w).toNat + 2 ^ 32 * v.toNat ∧
      isSet u Reg.TIM_STATUS F.TIM_STATUS_SET = true ∧ rd u Reg.TIM_PARAM_GEN = rd s Reg.TIM_PARAM_GEN + 1 ∧
      SameRegsBut [Reg.TIM_OFFSET_LO, Reg.TIM_OFFSET_HI, Reg.TIM_STATUS, Reg.TIM_PARAM_GEN] (taken s w) u := by
  obtain ⟨d, k, hf, hpair, hfields⟩ := findReg_timOffsetHi
  obtain ⟨t, hw, hsame, hmgt⟩ := writePair_timOffsetHi (aonAwake_taken (by decide) h) w v hpair hfields
  rw [offsetLow_taken] at hw
  have hset := onlyRegs_timSetOffset t (offsetLow s w) v
  have hexec : exec (.timOffsetHi w v) s = done (timSetOffset t (offsetLow s w) v) :=
    congrArg done (regWrite_of_writePair h (by decide) hf hw (by rw [hset.1]; exact hmgt.trans (taken_mgt s w)))
  refine ⟨_, done_leads hexec, timOffset_timSetOffset _ _ _, isSet_timSetOffset _ _ _, ?_, (hsame.mono (by simp)).trans hset.2⟩
  rw [rd_timSetOffset_gen, hsame _ (by decide), rd_taken s w (by decide)]

/-! ## Reads of the registers of the time base (R15, R393, R401) -/

/-- A read that is heard is one of a register of the agent, whose requester reaches it. -/
theorem heard_reaches {s : State} {w : Requester} {a : Nat} (h : heard s w a = true) :
    reaches s w = true ∧ (∀ f, w = .fn f → vfSeen s f = s) ∧ viewOf s w a ≠ .hidden ∧ canonOff a = a ∧
      blockLive s (blockDomain a) = true ∧ domSt s (blockDomain a) ≠ 1 := by
  simp only [heard, Bool.and_eq_true, decide_eq_true_eq] at h
  obtain ⟨⟨⟨⟨⟨hr, hseen⟩, hview⟩, hcanon⟩, hlive⟩, hact⟩ := h
  refine ⟨hr, ?_, hview, hcanon, hlive, hact⟩
  rintro f rfl
  simpa using hseen

theorem answerRead_of_seen {s : State} {w : Requester} {a : Nat} {bad : Bool} (hr : reaches s w = true)
    (hseen : ∀ f, w = .fn f → vfSeen s f = s) :
    answerRead s w a bad = emit (regRead s w .word a bad).2 (.read w a (regRead s w .word a bad).1) := by
  unfold answerRead
  rw [if_neg (by simp [hr])]
  cases w with
  | fn f => simp [hseen f rfl]
  | _ => rfl

/-- A register of the time base that is no upper half answers with what it shows; a bad shadow word is none of its (R520). -/
theorem answerRead_tim {s : State} {w : Requester} {a k : Nat} {d : RegDesc} (bad : Bool) (h : heard s w a = true)
    (ha : 0x20000 ≤ a ∧ a < 0x30000) (h4 : a % 4 = 0) (hf : findReg a = some (d, k)) (hpair : d.pair ≠ 2) :
    answerRead s w a bad = emit (readEffect s w a d) (.read w a (peek s (whoCode w) (whoFn w) a)) := by
  obtain ⟨hr, hseen, hview, hcanon, hlive, hact⟩ := heard_reaches h
  rw [blockDomain_tim ha] at hlive hact
  have hread : regRead s w .word a bad = (peek s (whoCode w) (whoFn w) a, readEffect s w a d) := by
    have hgpio : a ≠ Reg.MGT_GPIO_IN := by simp only [Reg.MGT_GPIO_IN]; omega
    simp [regRead, hcanon, h4, hview, hf, readReg, hpair, blockDomain_tim ha, hlive, wakeIdle_same s hact, hgpio, shownValue]
  rw [answerRead_of_seen hr hseen, hread]

/-- A register without WO fields that is one for all functions shows what is computed for it, or what is stored. -/
theorem peek_of_findReg (s : State) (who f : Nat) {a k : Nat} {d : RegDesc} (hc : canonOff a = a) (hf : findReg a = some (d, k))
    (hper : d.perFn = false) (hwo : woMask d = 0) : peek s who f a = (liveAt (liveBlock s who f a) a (rd s a)).getD (rd s a) := by
  have hnone : ~~~(w32 0) = BitVec.allOnes 32 := by decide
  simp only [peek, hc, hf, hper, hwo, hnone, BitVec.and_allOnes, Bool.false_eq_true, if_false]

theorem liveBlock_tim (s : State) (who f : Nat) {a : Nat} (ha : 0x20000 ≤ a ∧ a < 0x30000) : liveBlock s who f a = liveTim s who := by
  rw [liveBlock, if_neg (by omega), if_neg (by omega), if_pos ha.2]

theorem liveAt_nil (a : Nat) (w : Word) : liveAt [] a w = none := rfl

theorem liveAt_one_same (a : Nat) (v : Word → Word) (rs : List LiveReg) (w : Word) : liveAt (one a v :: rs) a w = some (v w) := by
  simp [liveAt, one]

theorem liveAt_one_ne (a b : Nat) (v : Word → Word) (rs : List LiveReg) (w : Word) (h : b < a ∨ a + 4 ≤ b) :
    liveAt (one a v :: rs) b w = liveAt rs b w := by
  rw [liveAt, if_neg]
  simp only [one]
  omega

theorem liveAt_below (base stride n a : Nat) (v : Nat → Word → Word) (rs : List LiveReg) (w : Word) (h : a < base) :
    liveAt (⟨base, stride, n, v⟩ :: rs) a w = liveAt rs a w := if_neg fun ⟨hle, _⟩ => Nat.not_le.2 h hle

theorem findReg_timNowLo : ∃ d k, findReg Reg.TIM_NOW_LO = some (d, k) ∧ d.pair = 1 ∧ d.perFn = false ∧ woMask d = 0 :=
  ⟨_, _, rfl, rfl, rfl, rfl⟩

theorem findReg_timNowHi : ∃ d k, findReg Reg.TIM_NOW_HI = some (d, k) ∧ d.perFn = false ∧ woMask d = 0 :=
  ⟨_, _, rfl, rfl, rfl⟩

theorem findReg_timPpsinLo : ∃ d k, findReg Reg.TIM_PPSIN_LO = some (d, k) ∧ d.pair = 1 ∧ d.perFn = false ∧ woMask d = 0 :=
  ⟨_, _, rfl, rfl, rfl, rfl⟩

theorem findReg_timPpsinHi : ∃ d k, findReg Reg.TIM_PPSIN_HI = some (d, k) :=
  ⟨_, _, rfl⟩

theorem peek_timNowLo (s : State) (who f : Nat) : peek s who f Reg.TIM_NOW_LO = BitVec.ofNat 32 (timNow s) := by
  obtain ⟨d, k, hf, -, hper, hwo⟩ := findReg_timNowLo
  rw [peek_of_findReg s who f rfl hf hper hwo, liveBlock_tim s who f (by decide), liveTim]
  simp (disch := decide) only [liveAt_one_ne, liveAt_one_same, Option.getD_some]

theorem peek_timNowHi (s : State) (who f : Nat) : peek s who f Reg.TIM_NOW_HI = BitVec.ofNat 32 (timNow s / 2 ^ 32) := by
  obtain ⟨d, k, hf, hper, hwo⟩ := findReg_timNowHi
  rw [peek_of_findReg s who f rfl hf hper hwo, liveBlock_tim s who f (by decide), liveTim]
  simp (disch := decide) only [liveAt_one_ne, liveAt_one_same, Option.getD_some]

theorem peek_timPpsinLo (s : State) (who f : Nat) : peek s who f Reg.TIM_PPSIN_LO = rd s Reg.TIM_PPSIN_LO := by
  obtain ⟨d, k, hf, -, hper, hwo⟩ := findReg_timPpsinLo
  rw [peek_of_findReg s who f rfl hf hper hwo, liveBlock_tim s who f (by decide), liveTim]
  simp (disch := decide) only [liveAt_one_ne, liveAt_below, liveAt_nil, Option.getD_none]

/-- A read of a lower half holds the upper one for its requester. -/
def capture (s : State) (w : Requester) (a : Nat) (v : Word) : State :=
  { s with holdR := Tab.put (fun _ => none) s.holdR (holdKey w a) (some v) }

theorem readEffect_timNowLo {s : State} (hlive : blockLive s 24 = true) (w : Requester) {d : RegDesc} (hpair : d.pair = 1) :
    readEffect s w Reg.TIM_NOW_LO d =
      { capture s w Reg.TIM_NOW_HI (BitVec.ofNat 32 (timNow s / 2 ^ 32)) with
        tim := { s.tim with snap := Tab.put (fun _ => (0, false)) s.tim.snap (whoCode w) (raw s, isSet s Reg.TIM_STATUS F.TIM_STATUS_SET) } } := by
  obtain ⟨dh, kh, hf, -, -⟩ := findReg_timNowHi
  have hhi : findReg (Reg.TIM_NOW_LO + 4) = some (dh, kh) := hf
  have hshown : shownValue s w (Reg.TIM_NOW_LO + 4) dh = BitVec.ofNat 32 (timNow s / 2 ^ 32) := by
    rw [shownValue, if_pos (show blockLive s (blockDomain (Reg.TIM_NOW_LO + 4)) = true from hlive)]
    exact peek_timNowHi s _ _
  simp only [readEffect, hpair, if_true, hhi, hshown]
  rfl

theorem readEffect_timPpsinLo (s : State) (w : Requester) {d : RegDesc} (hpair : d.pair = 1) : ∃ v,
    readEffect s w Reg.TIM_PPSIN_LO d =
      if isExt w = false then setFld (capture s w Reg.TIM_PPSIN_HI v) Reg.TIM_PPSIN_STAT F.TIM_PPSIN_STAT_VALID 0
      else capture s w Reg.TIM_PPSIN_HI v := by
  obtain ⟨dh, kh, hf⟩ := findReg_timPpsinHi
  have hhi : findReg (Reg.TIM_PPSIN_LO + 4) = some (dh, kh) := hf
  refine ⟨shownValue s w (Reg.TIM_PPSIN_LO + 4) dh, ?_⟩
  simp only [readEffect, hpair, if_true, hhi, true_and]
  rfl

theorem timNowLo_ends {s : State} {w : Requester} (bad : Bool) (h : heard s w Reg.TIM_NOW_LO = true) :
    Ends (.timNowLo w bad) s fun u =>
      u.out = .read w Reg.TIM_NOW_LO (BitVec.ofNat 32 (timNow s)) :: s.out ∧
      Tab.get (fun _ => none) u.holdR (holdKey w Reg.TIM_NOW_HI) = some (BitVec.ofNat 32 (timNow s / 2 ^ 32)) ∧
      Tab.get (fun _ => (0, false)) u.tim.snap (whoCode w) = (raw s, isSet s Reg.TIM_STATUS F.TIM_STATUS_SET) ∧ SameRegsBut [] s u := by
  obtain ⟨d, k, hf, hpair, -, -⟩ := findReg_timNowLo
  obtain ⟨-, -, -, -, hlive, -⟩ := heard_reaches h
  have hexec : exec (.timNowLo w bad) s = done _ :=
    congrArg done (answerRead_tim bad h (by decide) (by decide) hf (by simp [hpair]))
  refine ⟨_, done_leads hexec, ?_⟩
  rw [readEffect_timNowLo (s := s) hlive w hpair, peek_timNowLo]
  refine ⟨rfl, ?_, ?_, fun _ _ => rfl⟩
  · simp [capture]
  · simp

theorem timPpsinLo_ends {s : State} {w : Requester} (bad : Bool) (h : heard s w Reg.TIM_PPSIN_LO = true) :
    Ends (.timPpsinLo w bad) s fun u =>
      u.out = .read w Reg.TIM_PPSIN_LO (rd s Reg.TIM_PPSIN_LO) :: s.out ∧
      (isExt w = false → isSet u Reg.TIM_PPSIN_STAT F.TIM_PPSIN_STAT_VALID = false ∧ SameRegsBut [Reg.TIM_PPSIN_STAT] s u) ∧
      (isExt w = true → SameRegsBut [] s u) := by
  obtain ⟨d, k, hf, hpair, -, -⟩ := findReg_timPpsinLo
  obtain ⟨v, heff⟩ := readEffect_timPpsinLo s w hpair
  have hexec : exec (.timPpsinLo w bad) s = done _ :=
    congrArg done (answerRead_tim bad h (by decide) (by decide) hf (by simp [hpair]))
  refine ⟨_, done_leads hexec, ?_⟩
  rw [heff, peek_timPpsinLo]
  cases hext : isExt w with
  | false =>
    refine ⟨rfl, fun _ => ⟨?_, (onlyRegs_setFld _ (capture s w _ v) _ _ (by simp)).2⟩, fun hf => absurd hf (by decide)⟩
    exact isSet_setFld _ _ _ _ (by decide)
  | true => exact ⟨rfl, fun hf => absurd hf (by decide), fun _ _ _ => rfl⟩

/-! ## Compare units (R397, R398) -/

/-- The action of a firing shows outputs and may start a pulse; it leaves everything else. -/
theorem cmpAct_frame (s : State) (n : Nat) : ∃ out e, cmpAct s n = { s with out := out, tim := { s.tim with ppsEnd := e } } := by
  unfold cmpAct ppsOut
  split
  · split_ifs
    · exact ⟨_, s.tim.ppsEnd, rfl⟩
    · exact ⟨s.out, s.tim.ppsEnd, rfl⟩
  · dsimp only
    split_ifs
    · exact ⟨_, _, rfl⟩
    · exact ⟨_, _, rfl⟩
    · exact ⟨s.out, s.tim.ppsEnd, rfl⟩
  · exact ⟨s.out, s.tim.ppsEnd, rfl⟩

theorem cmpAct_regs (s : State) (n : Nat) : (cmpAct s n).regs = s.regs := by
  obtain ⟨_, _, h⟩ := cmpAct_frame s n
  rw [h]

theorem cmpAct_mem (s : State) (n : Nat) : (cmpAct s n).mem = s.mem := by
  obtain ⟨_, _, h⟩ := cmpAct_frame s n
  rw [h]

theorem raw_cmpAct (s : State) (n : Nat) : raw (cmpAct s n) = raw s := by
  obtain ⟨_, _, h⟩ := cmpAct_frame s n
  rw [h]
  rfl

theorem rd_cmpAct (s : State) (n a : Nat) : rd (cmpAct s n) a = rd s a := by rw [rd, cmpAct_regs, rd]

theorem cmpAct_none {s : State} {n : Nat} (h : fld s (Reg.TIM_CMP_CTL n) F.TIM_CMP_CTL_ACT = 0) : cmpAct s n = s := by
  simp [cmpAct, h]

theorem cmpAct_gpio {s : State} {n : Nat} (h : fld s (Reg.TIM_CMP_CTL n) F.TIM_CMP_CTL_ACT = 1)
    (hpin : getF (rd s Reg.MGT_GPIO_FUNC) ⟨2 * n, 2⟩ = 2) : cmpAct s n = emit s (.gpioPulse n) := by
  simp only [cmpAct, h]
  exact if_pos hpin

theorem cmpAct_pps {s : State} (h : fld s (Reg.TIM_CMP_CTL 15) F.TIM_CMP_CTL_ACT = 2) (hidle : s.tim.ppsEnd = none) :
    cmpAct s 15 = emit { s with tim := { s.tim with
      ppsEnd := some (rawTotal s + fld s Reg.TIM_PPSOUT_W F.TIM_PPSOUT_W_VALUE * 128) } } (.pps true) := by
  simp [cmpAct, h, ppsOut, hidle]

/-- The event bit and the count of a firing, before its action. -/
def cmpCounted (s : State) (n : Nat) : State :=
  inc (wr s Reg.TIM_CMP_EVT (rd s Reg.TIM_CMP_EVT ||| BitVec.ofNat 32 (2 ^ n))) (Reg.TIM_CMP_FIRE_CNT n)

/-- A firing up to and with its action. -/
def cmpFired (s : State) (n : Nat) : State := cmpAct (cmpCounted s n) n

/-- The registers that a firing counts in. -/
abbrev countRegs (n : Nat) : List Nat := [Reg.TIM_CMP_EVT, Reg.TIM_CMP_FIRE_CNT n]

theorem onlyRegs_cmpCounted (s : State) (n : Nat) : OnlyRegs (countRegs n) s (cmpCounted s n) :=
  onlyRegs_trans (onlyRegs_wr _ _ _ (by simp)) (onlyRegs_inc _ _ (by simp))

theorem sameRegs_cmpFired (s : State) (n : Nat) : SameRegsBut (countRegs n) s (cmpFired s n) :=
  fun a ha => (rd_cmpAct _ n a).trans ((onlyRegs_cmpCounted s n).2 a ha)

theorem raw_cmpFired (s : State) (n : Nat) : raw (cmpFired s n) = raw s := (raw_cmpAct _ n).trans (onlyRegs_cmpCounted s n).raw_eq

theorem cmpFire_cnt_ne_evt (n : Nat) : Reg.TIM_CMP_FIRE_CNT n ≠ Reg.TIM_CMP_EVT := by
  simp only [Reg.TIM_CMP_FIRE_CNT, Reg.TIM_CMP_EVT]
  omega

theorem rd_cmpFired_cnt (s : State) (n : Nat) : rd (cmpFired s n) (Reg.TIM_CMP_FIRE_CNT n) = rd s (Reg.TIM_CMP_FIRE_CNT n) + 1 := by
  rw [cmpFired, rd_cmpAct, cmpCounted, rd_inc_same, rd_wr_ne _ _ (cmpFire_cnt_ne_evt n)]

theorem rd_cmpFired_evt (s : State) (n : Nat) : rd (cmpFired s n) Reg.TIM_CMP_EVT = rd s Reg.TIM_CMP_EVT ||| BitVec.ofNat 32 (2 ^ n) := by
  rw [cmpFired, rd_cmpAct, cmpCounted, rd_inc_ne _ (cmpFire_cnt_ne_evt n).symm, rd_wr_same]

theorem getF_or_bit (w : Word) {n : Nat} (hn : n < 32) : getF (w ||| BitVec.ofNat 32 (2 ^ n)) ⟨n, 1⟩ ≠ 0 := by
  intro h
  have hbit : (getF (w ||| BitVec.ofNat 32 (2 ^ n)) ⟨n, 1⟩).testBit 0 = true := by
    rw [getF_testBit, Nat.add_zero, BitVec.getLsbD_or, BitVec.getLsbD_ofNat, Nat.testBit_two_pow_self]
    simp [hn]
  rw [h] at hbit
  exact absurd hbit (by decide)

theorem isSet_cmpFired_evt (s : State) {n : Nat} (hn : n < 32) : isSet (cmpFired s n) Reg.TIM_CMP_EVT ⟨n, 1⟩ = true := by
  rw [isSet, fld, rd_cmpFired_evt]
  exact decide_eq_true (getF_or_bit _ hn)

/-- The registers of unit `n` that its target's move writes. -/
abbrev moveRegs (n : Nat) : List Nat := [Reg.TIM_CMP_TGT_LO n, Reg.TIM_CMP_TGT_LO n + 4, Reg.TIM_CMP_SKIP_CNT n]

theorem notMem_moveRegs (n : Nat) : Reg.TIM_CMP_EVT ∉ moveRegs n ∧ Reg.TIM_CMP_FIRE_CNT n ∉ moveRegs n ∧
    Reg.TIM_CMP_CTL n ∉ moveRegs n ∧ Reg.TIM_CMP_ADJ n ∉ moveRegs n := by
  simp only [Reg.TIM_CMP_EVT, Reg.TIM_CMP_FIRE_CNT, Reg.TIM_CMP_CTL, Reg.TIM_CMP_TGT_LO, Reg.TIM_CMP_ADJ,
    Reg.TIM_CMP_SKIP_CNT, List.mem_cons, List.not_mem_nil, or_false]
  omega

theorem skipCnt_ne (n : Nat) : Reg.TIM_CMP_SKIP_CNT n ≠ Reg.TIM_CMP_ADJ n ∧ Reg.TIM_CMP_SKIP_CNT n ≠ Reg.TIM_CMP_TGT_LO n ∧
    Reg.TIM_CMP_SKIP_CNT n ≠ Reg.TIM_CMP_TGT_LO n + 4 := by
  simp only [Reg.TIM_CMP_TGT_LO, Reg.TIM_CMP_ADJ, Reg.TIM_CMP_SKIP_CNT]
  omega

theorem adj_ne (n : Nat) : Reg.TIM_CMP_EVT ≠ Reg.TIM_CMP_ADJ n ∧ Reg.TIM_CMP_FIRE_CNT n ≠ Reg.TIM_CMP_ADJ n ∧
    Reg.TIM_CMP_CTL n ≠ Reg.TIM_CMP_ADJ n := by
  simp only [Reg.TIM_CMP_EVT, Reg.TIM_CMP_FIRE_CNT, Reg.TIM_CMP_CTL, Reg.TIM_CMP_ADJ]
  omega

theorem ctl_ne (n : Nat) : Reg.TIM_CMP_EVT ≠ Reg.TIM_CMP_CTL n ∧ Reg.TIM_CMP_FIRE_CNT n ≠ Reg.TIM_CMP_CTL n := by
  simp only [Reg.TIM_CMP_EVT, Reg.TIM_CMP_FIRE_CNT, Reg.TIM_CMP_CTL]
  omega

/-- What a firing reads stands in none of the two registers that it counts in. -/
theorem notMem_countRegs (n : Nat) : Reg.TIM_CMP_CTL n ∉ countRegs n ∧ Reg.TIM_CMP_TGT_LO n ∉ countRegs n ∧
    Reg.TIM_CMP_TGT_LO n + 4 ∉ countRegs n ∧ Reg.TIM_CMP_PERIOD n ∉ countRegs n ∧ Reg.TIM_CMP_ADJ n ∉ countRegs n ∧
    Reg.TIM_CMP_SKIP_CNT n ∉ countRegs n := by
  simp only [Reg.TIM_CMP_EVT, Reg.TIM_CMP_FIRE_CNT, Reg.TIM_CMP_CTL, Reg.TIM_CMP_TGT_LO, Reg.TIM_CMP_PERIOD, Reg.TIM_CMP_ADJ,
    Reg.TIM_CMP_SKIP_CNT, List.mem_cons, List.not_mem_nil, or_false]
  omega

theorem gpioFunc_notMem_countRegs (n : Fin 16) : Reg.MGT_GPIO_FUNC ∉ countRegs n := by
  simp only [Reg.TIM_CMP_EVT, Reg.TIM_CMP_FIRE_CNT, Reg.MGT_GPIO_FUNC, List.mem_cons, List.not_mem_nil, or_false]
  omega

/-- Periods that a target skips because it is past already: the least that bring it past the count (R398). -/
def skipCount (now tgt per : Nat) : Nat := if reached now tgt then (now + 2 ^ 48 - tgt) % 2 ^ 48 / per + 1 else 0

/-- After the skips the target lies ahead, and one skip fewer would have left it past. -/
theorem reached_skipCount {now tgt per : Nat} (hnow : now < 2 ^ 48) (htgt : tgt < 2 ^ 48) (hpos : 0 < per) (hper : per < 2 ^ 32) :
    reached now (tgt + skipCount now tgt per * per) = false ∧
    (0 < skipCount now tgt per → reached now (tgt + (skipCount now tgt per - 1) * per) = true) := by
  unfold skipCount
  split_ifs with h
  · have hmul := Nat.div_add_mod' ((now + 2 ^ 48 - tgt) % 2 ^ 48) per
    have hmod := Nat.mod_lt ((now + 2 ^ 48 - tgt) % 2 ^ 48) hpos
    rw [Nat.add_sub_cancel, Nat.succ_mul]
    simp only [reached, decide_eq_true_eq, decide_eq_false_iff_not] at h ⊢
    generalize (now + 2 ^ 48 - tgt) % 2 ^ 48 / per * per = past at hmul ⊢
    omega
  · rw [Nat.zero_mul]
    exact ⟨by simpa using h, fun h0 => absurd h0 (Nat.lt_irrefl 0)⟩

theorem nextTgt_lt (s : State) (n : Nat) : nextTgt s n < 2 ^ 48 := wrapN_lt 48 _

/-- The registers of a unit's step: the target moves and the skips are counted. -/
def moveTgt (s : State) (n tgt k : Nat) : State := addCnt (wr64 s (Reg.TIM_CMP_TGT_LO n) tgt) (Reg.TIM_CMP_SKIP_CNT n) k

theorem onlyRegs_moveTgt (s : State) (n tgt k : Nat) : OnlyRegs (moveRegs n) s (moveTgt s n tgt k) :=
  onlyRegs_trans (onlyRegs_wr64 _ _ _ (by simp) (by simp)) (onlyRegs_wr _ _ _ (by simp))

/-- A step clears ADJ and moves the target; with PERIOD 0 it also draws a free value. -/
theorem cmpStep_eq_moveTgt (s : State) (n : Nat) : ∃ fresh tgt k, cmpStep s n =
    moveTgt { setFld s (Reg.TIM_CMP_ADJ n) F.TIM_CMP_ADJ_ADJ 0 with fresh := fresh } n tgt k := by
  unfold cmpStep
  dsimp only
  by_cases h : (rd s (Reg.TIM_CMP_PERIOD n)).toNat = 0
  · simp only [if_pos h, free]
    exact ⟨_, _, _, rfl⟩
  · simp only [if_neg h]
    exact ⟨s.fresh, _, _, rfl⟩

theorem cmpStep_frame (s : State) (n : Nat) : SameRegsBut (Reg.TIM_CMP_ADJ n :: moveRegs n) s (cmpStep s n) ∧
    (cmpStep s n).out = s.out ∧ (cmpStep s n).tim = s.tim ∧ (cmpStep s n).mem = s.mem := by
  obtain ⟨fresh, tgt, k, h⟩ := cmpStep_eq_moveTgt s n
  have hadj : SameRegsBut [Reg.TIM_CMP_ADJ n] s (setFld s (Reg.TIM_CMP_ADJ n) F.TIM_CMP_ADJ_ADJ 0) := (onlyRegs_setFld _ s _ _ (by simp)).2
  have hmove := onlyRegs_moveTgt { setFld s (Reg.TIM_CMP_ADJ n) F.TIM_CMP_ADJ_ADJ 0 with fresh := fresh } n tgt k
  rw [h]
  exact ⟨(hadj.mono (by simp)).trans (hmove.2.mono (by simp)), hmove.out_eq, hmove.tim_eq, hmove.mem_eq⟩

theorem cmpStep_periodic {s : State} {n : Nat} (h : (rd s (Reg.TIM_CMP_PERIOD n)).toNat ≠ 0) :
    let per := (rd s (Reg.TIM_CMP_PERIOD n)).toNat
    let k := skipCount (raw s) (nextTgt s n) per
    cmpStep s n = moveTgt (setFld s (Reg.TIM_CMP_ADJ n) F.TIM_CMP_ADJ_ADJ 0) n ((nextTgt s n + k * per) % 2 ^ 48) k := by
  have hraw : raw (setFld s (Reg.TIM_CMP_ADJ n) F.TIM_CMP_ADJ_ADJ 0) = raw s := rfl
  unfold cmpStep skipCount nextTgt
  simp only [if_neg h, hraw, moveTgt, Bool.not_eq_true', ← Bool.not_eq_true, ite_not]

/-- Is a unit's firing due: enabled, and its target reached? -/
def cmpDue (s : State) (n : Nat) : Bool :=
  isSet s (Reg.TIM_CMP_CTL n) F.TIM_CMP_CTL_EN && reached (raw s) (rd64 s (Reg.TIM_CMP_TGT_LO n))

theorem timCmpFire_idle {s : State} {n : Nat} (h : cmpDue s n = false) : timCmpFire s n = s :=
  if_neg (by rw [← cmpDue, h]; exact Bool.false_ne_true)

theorem timCmpFire_due {s : State} {n : Nat} (h : cmpDue s n = true) : timCmpFire s n =
    if isSet s (Reg.TIM_CMP_CTL n) F.TIM_CMP_CTL_PERIODIC then cmpStep (cmpFired s n) n
    else setFld (cmpFired s n) (Reg.TIM_CMP_CTL n) F.TIM_CMP_CTL_EN 0 := by
  obtain ⟨hctl, -⟩ := notMem_countRegs n
  rw [← (sameRegs_cmpFired s n).isSet_eq hctl]
  exact if_pos h

/-- After its counts and action a firing changes only its unit's own registers. -/
theorem timCmpFire_frame {s : State} {n : Nat} (h : cmpDue s n = true) :
    (∀ f, isSet (timCmpFire s n) Reg.TIM_CMP_EVT f = isSet (cmpFired s n) Reg.TIM_CMP_EVT f) ∧
    rd (timCmpFire s n) (Reg.TIM_CMP_FIRE_CNT n) = rd (cmpFired s n) (Reg.TIM_CMP_FIRE_CNT n) ∧
    (timCmpFire s n).out = (cmpFired s n).out ∧ (timCmpFire s n).tim = (cmpFired s n).tim ∧
    (timCmpFire s n).mem = s.mem := by
  obtain ⟨hevt, hcnt, -, -⟩ := notMem_moveRegs n
  obtain ⟨hevtAdj, hcntAdj, -⟩ := adj_ne n
  obtain ⟨hevtCtl, hcntCtl⟩ := ctl_ne n
  have hfired : (cmpFired s n).mem = s.mem := (cmpAct_mem _ n).trans (onlyRegs_cmpCounted s n).mem_eq
  rw [timCmpFire_due h]
  split_ifs
  · obtain ⟨hregs, hout, htim, hmem⟩ := cmpStep_frame (cmpFired s n) n
    exact ⟨hregs.isSet_eq (List.not_mem_cons_of_ne_of_not_mem hevtAdj hevt), hregs _ (List.not_mem_cons_of_ne_of_not_mem hcntAdj hcnt),
      hout, htim, hmem.trans hfired⟩
  · have hctl := (onlyRegs_setFld [Reg.TIM_CMP_CTL n] (cmpFired s n) F.TIM_CMP_CTL_EN 0 (List.mem_singleton_self _)).2
    exact ⟨hctl.isSet_eq (by simpa using hevtCtl), hctl _ (by simpa using hcntCtl), rfl, rfl, hfired⟩

theorem act_cmpCounted {s : State} {n : Nat} :
    fld (cmpCounted s n) (Reg.TIM_CMP_CTL n) F.TIM_CMP_CTL_ACT = fld s (Reg.TIM_CMP_CTL n) F.TIM_CMP_CTL_ACT := by
  obtain ⟨hctl, -⟩ := notMem_countRegs n
  exact (onlyRegs_cmpCounted s n).2.fld_eq hctl _

theorem cmpFired_none_out {s : State} {n : Nat} (h : fld s (Reg.TIM_CMP_CTL n) F.TIM_CMP_CTL_ACT = 0) : (cmpFired s n).out = s.out := by
  rw [cmpFired, cmpAct_none (act_cmpCounted.trans h)]
  rfl

theorem cmpFired_gpio_out {s : State} {n : Fin 16} (h : fld s (Reg.TIM_CMP_CTL n) F.TIM_CMP_CTL_ACT = 1)
    (hpin : getF (rd s Reg.MGT_GPIO_FUNC) ⟨2 * n, 2⟩ = 2) : (cmpFired s n).out = .gpioPulse n :: s.out := by
  rw [← (onlyRegs_cmpCounted s n).2 _ (gpioFunc_notMem_countRegs n)] at hpin
  rw [cmpFired, cmpAct_gpio (act_cmpCounted.trans h) hpin]
  rfl

theorem cmpFired_pps {s : State} (h : fld s (Reg.TIM_CMP_CTL 15) F.TIM_CMP_CTL_ACT = 2) (hidle : s.tim.ppsEnd = none) :
    (cmpFired s 15).out = .pps true :: s.out ∧
    (cmpFired s 15).tim.ppsEnd = some (rawTotal s + fld s Reg.TIM_PPSOUT_W F.TIM_PPSOUT_W_VALUE * 128) := by
  have hc := onlyRegs_cmpCounted s 15
  have htot : rawTotal (cmpCounted s 15) = rawTotal s := by rw [rawTotal, hc.2 _ (by decide), hc.raw_eq, rawTotal]
  rw [cmpFired, cmpAct_pps (act_cmpCounted.trans h) hidle, htot, hc.2.fld_eq (by decide)]
  exact ⟨rfl, rfl⟩

theorem timCmpFire_once {s : State} {n : Nat} (h : cmpDue s n = true) (hper : isSet s (Reg.TIM_CMP_CTL n) F.TIM_CMP_CTL_PERIODIC = false) :
    isSet (timCmpFire s n) (Reg.TIM_CMP_CTL n) F.TIM_CMP_CTL_EN = false ∧
    SameRegsBut [Reg.TIM_CMP_EVT, Reg.TIM_CMP_FIRE_CNT n, Reg.TIM_CMP_CTL n] s (timCmpFire s n) := by
  rw [timCmpFire_due h, if_neg (by simp [hper]), isSet_setFld _ _ _ _ (by decide)]
  exact ⟨rfl, ((sameRegs_cmpFired s n).mono (by simp)).trans (onlyRegs_setFld _ _ _ _ (by simp)).2⟩

theorem nextTgt_cmpFired (s : State) (n : Nat) : nextTgt (cmpFired s n) n = nextTgt s n := by
  obtain ⟨-, htgt, htgt4, hper, hadj, -⟩ := notMem_countRegs n
  have hsame := sameRegs_cmpFired s n
  rw [nextTgt, hsame.rd64_eq htgt htgt4, hsame _ hper, hsame.fld_eq hadj, nextTgt]

/-- A periodic unit with a period: its new target, and what else its step leaves. -/
theorem timCmpFire_periodic {s : State} {n : Nat} (h : cmpDue s n = true)
    (hperiodic : isSet s (Reg.TIM_CMP_CTL n) F.TIM_CMP_CTL_PERIODIC = true) (hpos : rd s (Reg.TIM_CMP_PERIOD n) ≠ 0) :
    let per := (rd s (Reg.TIM_CMP_PERIOD n)).toNat
    let k := skipCount (raw s) (nextTgt s n) per
    let u := timCmpFire s n
    fld u (Reg.TIM_CMP_ADJ n) F.TIM_CMP_ADJ_ADJ = 0 ∧ isSet u (Reg.TIM_CMP_CTL n) F.TIM_CMP_CTL_EN = true ∧
    rd64 u (Reg.TIM_CMP_TGT_LO n) = (nextTgt s n + k * per) % 2 ^ 48 ∧
    rd u (Reg.TIM_CMP_SKIP_CNT n) = rd s (Reg.TIM_CMP_SKIP_CNT n) + BitVec.ofNat 32 k := by
  intro per k u
  obtain ⟨hctl, -, -, hper, -, hskip⟩ := notMem_countRegs n
  obtain ⟨-, -, hctlMove, hadjMove⟩ := notMem_moveRegs n
  obtain ⟨-, -, hctlAdj⟩ := adj_ne n
  obtain ⟨hskipAdj, hskipTgt, hskipTgt4⟩ := skipCnt_ne n
  have hfired := sameRegs_cmpFired s n
  have hstep : u = moveTgt (setFld (cmpFired s n) (Reg.TIM_CMP_ADJ n) F.TIM_CMP_ADJ_ADJ 0) n ((nextTgt s n + k * per) % 2 ^ 48) k := by
    have hne : (rd (cmpFired s n) (Reg.TIM_CMP_PERIOD n)).toNat ≠ 0 := by
      rw [hfired _ hper]
      exact fun h0 => hpos (BitVec.eq_of_toNat_eq h0)
    have heq := cmpStep_periodic hne
    rw [hfired _ hper, nextTgt_cmpFired, raw_cmpFired] at heq
    exact (timCmpFire_due h).trans ((if_pos hperiodic).trans heq)
  have hmove := (onlyRegs_moveTgt (setFld (cmpFired s n) (Reg.TIM_CMP_ADJ n) F.TIM_CMP_ADJ_ADJ 0) n ((nextTgt s n + k * per) % 2 ^ 48) k).2
  have hen : isSet s (Reg.TIM_CMP_CTL n) F.TIM_CMP_CTL_EN = true := (Bool.and_eq_true_iff.1 h).1
  rw [hstep]
  refine ⟨?_, ?_, ?_, ?_⟩
  · rw [hmove.fld_eq hadjMove, fld_setFld _ _ _ _ (by decide), Nat.zero_mod]
  · rw [hmove.isSet_eq hctlMove, isSet, fld_setFld_reg _ _ _ _ hctlAdj, ← isSet, hfired.isSet_eq hctl, hen]
  · rw [moveTgt, rd64, rd_addCnt_ne _ _ hskipTgt.symm, rd_addCnt_ne _ _ hskipTgt4.symm]
    exact rd64_wr64_of_lt _ _ ((Nat.mod_lt _ (by decide)).trans (by decide))
  · rw [moveTgt, rd_addCnt_same, rd_wr64_ne _ hskipTgt hskipTgt4, rd_setFld_ne _ _ _ hskipAdj, hfired _ hskip]

/-! ## PPS (R400, R401) -/

theorem ppsPulseEnd_due {s : State} {t : Nat} (h : s.tim.ppsEnd = some t) (ht : t ≤ rawTotal s) :
    ppsPulseEnd s = emit { s with tim := { s.tim with ppsEnd := none } } (.pps false) := by
  simp [ppsPulseEnd, h, ht]

theorem ppsPulseEnd_idle {s : State} (h : s.tim.ppsEnd = none) : ppsPulseEnd s = s := by
  simp [ppsPulseEnd, h]

/-- The state in which the stamp of an edge is taken: the last stamp, if nobody has read it, is counted as overrun. -/
def ppsOverrun (s : State) : State :=
  if isSet s Reg.TIM_PPSIN_STAT F.TIM_PPSIN_STAT_VALID then inc s Reg.TIM_PPSIN_OVR_CNT else s

/-- The stamp of an edge `sub` Tc/64 after the count, less the input's latency. -/
def ppsStamp (s : State) (sub : Nat) : Nat :=
  wrapN 54 ((raw s * 64 + sub : Int) - fld s Reg.TIM_PPSIN_LAT F.TIM_PPSIN_LAT_VALUE)

/-- The registers that a stamp is shown in. -/
def ppsShown (s : State) (sub : Nat) : State :=
  incFld (setFld (wr64 (ppsOverrun s) Reg.TIM_PPSIN_LO (ppsStamp s sub)) Reg.TIM_PPSIN_STAT F.TIM_PPSIN_STAT_VALID 1)
    Reg.TIM_PPSIN_STAT F.TIM_PPSIN_STAT_COUNT

/-- The state that a taken edge leaves, its event set. -/
def ppsStamped (s : State) (sub : Nat) : State :=
  evt { ppsShown s sub with tim := { (ppsShown s sub).tim with lastPps := some (rawTotal (ppsShown s sub)) } } Reg.TIM_EVT F.TIM_EVT_PPSIN

theorem ppsIn_eq (s : State) (rising : Bool) (sub : Nat) : ppsIn s rising sub = if ppsTaken s rising then ppsStamped s sub else s := by
  have hcond : ∀ en same masked : Bool, (!en || same || masked) = !(en && !same && !masked) := by decide
  unfold ppsIn ppsTaken ppsStamped ppsShown ppsOverrun ppsStamp
  cases s.tim.lastPps with
  | none => simp only [hcond, bne, Bool.not_eq_true', ← Bool.not_eq_true, ite_not, Bool.not_false]
  | some t => simp only [hcond, bne, Bool.not_eq_true', ← Bool.not_eq_true, ite_not, ← decide_not, Nat.not_le]

theorem onlyRegs_ppsOverrun (s : State) : OnlyRegs [Reg.TIM_PPSIN_OVR_CNT] s (ppsOverrun s) := by
  unfold ppsOverrun
  split_ifs
  · exact onlyRegs_inc _ _ (by simp)
  · exact onlyRegs_refl _ _

theorem rd_ppsOverrun (s : State) : rd (ppsOverrun s) Reg.TIM_PPSIN_OVR_CNT =
    rd s Reg.TIM_PPSIN_OVR_CNT + (if isSet s Reg.TIM_PPSIN_STAT F.TIM_PPSIN_STAT_VALID = true then 1 else 0) := by
  unfold ppsOverrun
  split_ifs
  · exact rd_inc_same _ _
  · exact (BitVec.add_zero _).symm

theorem onlyRegs_ppsShown (s : State) (sub : Nat) :
    OnlyRegs [Reg.TIM_PPSIN_LO, Reg.TIM_PPSIN_HI, Reg.TIM_PPSIN_STAT] (ppsOverrun s) (ppsShown s sub) :=
  onlyRegs_trans (onlyRegs_wr64 _ _ _ (by simp) (by decide))
    (onlyRegs_trans (onlyRegs_setFld _ _ _ _ (by simp)) (onlyRegs_setFld _ _ _ _ (by simp)))

theorem rawTotal_ppsShown (s : State) (sub : Nat) : rawTotal (ppsShown s sub) = rawTotal s := by
  have hshown := onlyRegs_ppsShown s sub
  have hover := onlyRegs_ppsOverrun s
  rw [rawTotal, hshown.2 _ (by decide), hover.2 _ (by decide), hshown.raw_eq, hover.raw_eq, rawTotal]

theorem ppsIn_ends {s : State} {rising : Bool} (sub : Fin 64) (h : ppsTaken s rising = true) :
    Ends (.ppsIn rising sub) s fun u =>
      rd64 u Reg.TIM_PPSIN_LO = ppsStamp s sub ∧ isSet u Reg.TIM_PPSIN_STAT F.TIM_PPSIN_STAT_VALID = true ∧
      fld u Reg.TIM_PPSIN_STAT F.TIM_PPSIN_STAT_COUNT = (fld s Reg.TIM_PPSIN_STAT F.TIM_PPSIN_STAT_COUNT + 1) % 2 ^ 16 ∧
      rd u Reg.TIM_PPSIN_OVR_CNT = rd s Reg.TIM_PPSIN_OVR_CNT + (if isSet s Reg.TIM_PPSIN_STAT F.TIM_PPSIN_STAT_VALID = true then 1 else 0) ∧
      isSet u Reg.TIM_EVT F.TIM_EVT_PPSIN = true ∧ u.tim = { s.tim with lastPps := some (rawTotal s) } ∧ u.mem = s.mem := by
  have hover := onlyRegs_ppsOverrun s
  have hshown := onlyRegs_ppsShown s sub
  refine ⟨ppsIn s rising sub, done_leads rfl, ?_⟩
  rw [ppsIn_eq, if_pos h, ppsStamped, rawTotal_ppsShown]
  set t : State := { ppsShown s sub with tim := { (ppsShown s sub).tim with lastPps := some (rawTotal s) } } with ht
  have hevt : SameRegsBut [Reg.TIM_EVT] (ppsShown s sub) (evt t Reg.TIM_EVT F.TIM_EVT_PPSIN) :=
    (sameRegs_withTim _ _ _).trans (onlyRegs_evt _ t _ (by simp)).2
  refine ⟨?_, ?_, ?_, ?_, ?_, ?_, ?_⟩
  · have hstat : SameRegsBut [Reg.TIM_PPSIN_STAT] (wr64 (ppsOverrun s) Reg.TIM_PPSIN_LO (ppsStamp s sub)) (ppsShown s sub) :=
      (onlyRegs_trans (onlyRegs_setFld _ _ _ _ (by simp)) (onlyRegs_setFld _ _ _ _ (by simp))).2
    rw [hevt.rd64_eq (by decide) (by decide), hstat.rd64_eq (by decide) (by decide)]
    exact rd64_wr64_of_lt _ _ ((wrapN_lt _ _).trans (by decide))
  · rw [hevt.isSet_eq (by decide), isSet, ppsShown, incFld, fld_setFld_ne _ _ _ _ _ (by decide) (by decide), fld_setFld _ _ _ _ (by decide)]
    rfl
  · rw [hevt.fld_eq (by decide), ppsShown, incFld, fld_setFld _ _ _ _ (by decide), fld_setFld_ne _ _ _ _ _ (by decide) (by decide),
      (onlyRegs_wr64 [Reg.TIM_PPSIN_LO, Reg.TIM_PPSIN_HI] _ _ (by simp) (by decide)).2.fld_eq (by decide), hover.2.fld_eq (by decide)]
    rfl
  · rw [hevt _ (by decide), hshown.2 _ (by decide), rd_ppsOverrun]
  · rw [evt, isSet_setFld _ _ _ _ (by decide)]
    rfl
  · rw [evt_tim, ht, hshown.tim_eq, hover.tim_eq]
  · rw [evt_mem]
    exact hshown.mem_eq.trans hover.mem_eq

/-! ## The statement -/

/-- Settles O43: a fold sets RAW_BASE to the count, so that the correction starts again from 0 where OFFSET takes it; a periodic unit's
skips are the least that bring its target past the count. -/
theorem timeBase : Obligations.TimeBase := by
  unfold Obligations.TimeBase
  refine ⟨fun s => ?_, fun s w v => ?_, fun s w bad => ⟨timNowLo_ends bad, timPpsinLo_ends bad⟩, fun s n => ?_, fun s => ?_,
    fun s rising sub => ?_⟩
  · refine ⟨fun h => done_leads (congrArg done (pllLocked_of_locked h)), aonPllLock_ends,
      fun h => done_leads (congrArg done (aonPllLoss_of_unlocked h)), aonPllLoss_ends, done_leads rfl,
      fun h => done_leads (congrArg done (timWrap_idle h)), timWrap_ends, fun h => done_leads (congrArg done ?_), timRebase_ends⟩
    exact if_neg (Nat.not_le.2 h)
  · exact ⟨timRate_ends, timStep_ends, timStep_off, timOffsetHi_ends⟩
  · refine ⟨fun h => done_leads (congrArg done (timCmpFire_idle h)), fun h => ?_⟩
    obtain ⟨hevt, hcnt, hout, htim, hmem⟩ := timCmpFire_frame h
    refine ⟨timCmpFire s n, done_leads rfl, (hevt _).trans (isSet_cmpFired_evt s (by omega)), hcnt.trans (rd_cmpFired_cnt s n), hmem,
      fun h0 => hout.trans (cmpFired_none_out h0), fun h1 hpin => hout.trans (cmpFired_gpio_out h1 hpin), ?_, timCmpFire_once h,
      fun hperiodic hpos => ?_⟩
    · rintro h2 rfl hidle
      obtain ⟨hpulse, hend⟩ := cmpFired_pps h2 hidle
      exact ⟨hout.trans hpulse, (congrArg TimS.ppsEnd htim).trans hend⟩
    · obtain ⟨hadj, hen, htgt, hskip⟩ := timCmpFire_periodic h hperiodic hpos
      have hper : 0 < (rd s (Reg.TIM_CMP_PERIOD n)).toNat := Nat.pos_of_ne_zero fun h0 => hpos (BitVec.eq_of_toNat_eq h0)
      exact ⟨hadj, hen, _, htgt, hskip, reached_skipCount (raw_lt s) (nextTgt_lt s n) hper (BitVec.isLt _)⟩
  · exact ⟨fun t h ht => done_leads (congrArg done (ppsPulseEnd_due h ht)), fun h => done_leads (congrArg done (ppsPulseEnd_idle h))⟩
  · exact ⟨fun h => done_leads (congrArg done ((ppsIn_eq s rising sub).trans (if_neg (by simp [h])))), ppsIn_ends sub⟩

end Sys2Proof.Machine

namespace Sys2Proof.Machine

/-! ## Thermal limits (R475) -/

theorem blockDomain_aon {a : Nat} (ha : 0x20000 ≤ a ∧ a < 0x100000) : blockDomain a = 24 := by
  rw [blockDomain, if_neg (by omega), if_neg (by omega), if_pos (by omega)]

/-- A direct write of an unpaired register of the always-on domain is applied to its block at once. -/
theorem regWrite_aon {s u : State} {w : Requester} {a k : Nat} {d : RegDesc} {v : Word} (h : direct s w a = true)
    (ha : 0x20000 ≤ a ∧ a < 0x100000) (h4 : a % 4 = 0) (hf : findReg a = some (d, k)) (hpair : d.pair = 0)
    (hu : applyWrite (taken s w) w (whoFn w) a d v = u) (hmgt : u.mgt = s.mgt) : regWrite s w .word a v = u := by
  obtain ⟨hlive, hact, -⟩ := direct_live h
  rw [blockDomain_aon ha] at hlive hact
  obtain ⟨hlive', hact'⟩ : aonAwake (taken s w) := aonAwake_congr (onlyRegs_taken s w).2 (by decide) ⟨hlive, hact⟩
  refine regWrite_of_writePair h h4 hf ?_ hmgt
  rw [writePair, if_neg (by simp [hpair]), if_neg (by simp [hpair]), writeReg, blockDomain_aon ha, keepLane_of_lt _ w (by omega),
    if_pos hlive', wakeIdle_same _ hact', hu]

/-- The limits that a write may lower, with their defaults. -/
abbrev thmLimits : List (Nat × Int) := [(Reg.THM_WARN, 0x5F0), (Reg.THM_THROTTLE, 0x640)]

/-- A statement about the two limits, one by one. -/
theorem forall_thmLimits {p : Nat × Int → Prop} (hwarn : p (Reg.THM_WARN, 0x5F0)) (hthrottle : p (Reg.THM_THROTTLE, 0x640)) :
    ∀ r ∈ thmLimits, p r := by
  simpa using ⟨hwarn, hthrottle⟩

/-- A limit's register is aligned and belongs to the always-on domain. -/
theorem thmLimits_place : ∀ r ∈ thmLimits, (0x20000 ≤ r.1 ∧ r.1 < 0x100000) ∧ r.1 % 4 = 0 ∧ r.1 < 2 ^ 25 := by decide

theorem toNat_thmLimits : ∀ r ∈ thmLimits, (r.2.toNat : Int) = r.2 := by decide

theorem thmLimits_ne_extStat : ∀ r ∈ thmLimits, r.1 ≠ Reg.MGT_EXT_STAT := by decide

theorem findReg_thmLimits : ∀ r ∈ thmLimits, ∃ d k, findReg r.1 = some (d, k) ∧ d.pair = 0 ∧ d.perFn = false ∧
    d.fields = [⟨0, 16, .rw, [], .any⟩] :=
  forall_thmLimits ⟨_, _, rfl, rfl, rfl, rfl⟩ ⟨_, _, rfl, rfl, rfl, rfl⟩

theorem findReg_thmCrit : ∃ d k, findReg Reg.THM_CRIT = some (d, k) ∧ d.pair = 0 ∧ d.perFn = false ∧
    d.fields = [⟨0, 16, .ro, [], .any⟩] :=
  ⟨_, _, rfl, rfl, rfl, rfl⟩

theorem writeAt_thmLimits : ∀ r ∈ thmLimits, writeAtList (hookBlock r.1) r.1 = some fun _ _ _ m s => limitWrite s r.1 r.2.toNat m :=
  forall_thmLimits rfl rfl

theorem writeAt_thmCrit : writeAtList (hookBlock Reg.THM_CRIT) Reg.THM_CRIT = none := rfl

/-- A register whose low half is one RW field takes the low half of the word that is written. -/
theorem mergeReg_low16 (w : Requester) (a : Nat) {d : RegDesc} (hd : d.fields = [⟨0, 16, .rw, [], .any⟩]) (old v : Word) :
    mergeReg w a d old v = putF old ⟨0, 16⟩ (getF v ⟨0, 16⟩) := by
  simp [mergeReg, hd, mergeField, mayWrite, encOk]

/-- A register of one RO field keeps what it holds. -/
theorem mergeReg_ro (w : Requester) (a : Nat) {d : RegDesc} {n : Nat} (hd : d.fields = [⟨0, n, .ro, [], .any⟩]) (old v : Word) :
    mergeReg w a d old v = old := by
  simp [mergeReg, hd, mergeField]

theorem getF_low16 (v : Word) : getF v ⟨0, 16⟩ = v.toNat % 2 ^ 16 := by simp [getF]

/-- A temperature is told by the low half of its word. -/
theorem temp16_congr {m v : Word} (h : getF m ⟨0, 16⟩ = v.toNat % 2 ^ 16) : temp16 m.toNat = temp16 v.toNat := by
  rw [getF_low16] at h
  rw [temp16, temp16, sgn, sgn, h]

theorem limitWrite_of_le {s : State} {a dflt : Nat} {m : Word} (h : temp16 m.toNat ≤ dflt) : limitWrite s a dflt m = wr s a m := if_pos h

theorem limitWrite_of_lt {s : State} {a dflt : Nat} {m : Word} (h : (dflt : Int) < temp16 m.toNat) : limitWrite s a dflt m = s :=
  if_neg (not_le.2 h)

theorem onlyRegs_limitWrite (s : State) (a dflt : Nat) (m : Word) : OnlyRegs [a] s (limitWrite s a dflt m) := by
  rcases le_or_gt (temp16 m.toNat) dflt with h | h
  · rw [limitWrite_of_le h]
    exact onlyRegs_wr _ s m (by simp)
  · rw [limitWrite_of_lt h]
    exact onlyRegs_refl _ s

/-- A register written with what it holds stands as it was, and so do all others. -/
theorem onlyRegs_wr_rd (s : State) (a : Nat) : OnlyRegs [] s (wr s a (rd s a)) := by
  refine ⟨rfl, fun b _ => ?_⟩
  rw [rd_wr]
  split_ifs with hb
  · rw [hb]
  · rfl

/-- The word that a write to a limit's register offers it: the low half is new, the rest stands. -/
def limitWord (s : State) (a : Nat) (v : Word) : Word := putF (rd s a) ⟨0, 16⟩ (getF v ⟨0, 16⟩)

theorem getF_limitWord (s : State) (a : Nat) (v : Word) : getF (limitWord s a v) ⟨0, 16⟩ = v.toNat % 2 ^ 16 := by
  rw [limitWord, getF_putF _ _ _ (by decide), getF_low16, Nat.mod_mod]

theorem temp16_limitWord (s : State) (a : Nat) (v : Word) : temp16 (limitWord s a v).toNat = temp16 v.toNat :=
  temp16_congr (getF_limitWord s a v)

theorem exec_registerWrite {s u : State} {w : Requester} {a : Nat} {v : Word} (ha : a < 2 ^ 25) (h : regWrite s w .word a v = u) :
    exec (.registerWrite w .word (BitVec.ofNat 25 a) v) s = done u := by
  have hoff : (BitVec.ofNat 25 a).toNat = a := Nat.mod_eq_of_lt ha
  exact congrArg done ((congrArg (regWrite s w .word · v) hoff).trans h)

theorem exec_thmLimit {s : State} {w : Requester} {r : Nat × Int} {v : Word} (hr : r ∈ thmLimits) (h : direct s w r.1 = true) :
    exec (.registerWrite w .word (BitVec.ofNat 25 r.1) v) s = done (limitWrite (taken s w) r.1 r.2.toNat (limitWord (taken s w) r.1 v)) := by
  obtain ⟨hblock, h4, hlt⟩ := thmLimits_place r hr
  obtain ⟨d, k, hf, hpair, hper, hfields⟩ := findReg_thmLimits r hr
  refine exec_registerWrite hlt (regWrite_aon h hblock h4 hf hpair ?_ ?_)
  · simp [applyWrite, writeAt_thmLimits r hr, hper, mergeReg_low16 w _ hfields, limitWord]
  · rw [(onlyRegs_limitWrite _ _ _ _).1]
    exact taken_mgt s w

theorem exec_thmCrit {s : State} {w : Requester} {v : Word} (h : direct s w Reg.THM_CRIT = true) :
    exec (.registerWrite w .word (BitVec.ofNat 25 Reg.THM_CRIT) v) s =
      done (wr (taken s w) Reg.THM_CRIT (rd (taken s w) Reg.THM_CRIT)) := by
  obtain ⟨d, k, hf, hpair, hper, hfields⟩ := findReg_thmCrit
  refine exec_registerWrite (by decide) (regWrite_aon h (by decide) (by decide) hf hpair ?_ (taken_mgt s w))
  simp [applyWrite, writeAt_thmCrit, hper, mergeReg_ro w _ hfields]

/-- A limit takes a value up to its default and keeps what it holds at a higher one. -/
theorem thmLimit_ends {s : State} {w : Requester} {r : Nat × Int} {v : Word} (hr : r ∈ thmLimits) (h : direct s w r.1 = true) :
    Ends (.registerWrite w .word (BitVec.ofNat 25 r.1) v) s fun u => OnlyRegs [r.1] (taken s w) u ∧
      (temp16 v.toNat ≤ r.2 → fld u r.1 ⟨0, 16⟩ = v.toNat % 2 ^ 16) ∧
      (r.2 < temp16 v.toNat → rd u r.1 = rd s r.1) := by
  have htemp := temp16_limitWord (taken s w) r.1 v
  have hdflt := toNat_thmLimits r hr
  refine ⟨_, done_leads (exec_thmLimit hr h), onlyRegs_limitWrite _ _ _ _, fun hle => ?_, fun hlt => ?_⟩
  · rw [limitWrite_of_le (by rwa [htemp, hdflt]), fld, rd_wr_same, getF_limitWord]
  · rw [limitWrite_of_lt (by rwa [htemp, hdflt]), rd_taken s w (thmLimits_ne_extStat r hr)]

theorem thmCrit_ends {s : State} {w : Requester} {v : Word} (h : direct s w Reg.THM_CRIT = true) :
    Ends (.registerWrite w .word (BitVec.ofNat 25 Reg.THM_CRIT) v) s fun u => OnlyRegs [] (taken s w) u :=
  ⟨_, done_leads (exec_thmCrit h), onlyRegs_wr_rd _ _⟩

/-- Settles O58: the hook of each limit compares the low half of the word with the default, and a write to the RO field of THM_CRIT
puts back what it holds. -/
theorem thermalLimits : Obligations.ThermalLimits := by
  unfold Obligations.ThermalLimits
  exact fun s w v => ⟨fun r hr h => thmLimit_ends hr h, thmCrit_ends⟩

end Sys2Proof.Machine

namespace Sys2Proof.Machine

/-! ## Fields and registers that stand -/

theorem OnlyRegs.mono {ks ls : List Nat} {s t : State} (h : OnlyRegs ks s t) (hl : ks ⊆ ls) : OnlyRegs ls s t := ⟨h.1, h.2.mono hl⟩

theorem OnlyRegs.ras_eq {ks : List Nat} {s t : State} (h : OnlyRegs ks s t) : t.ras = s.ras := by rw [h.1]

theorem OnlyRegs.flash_eq {ks : List Nat} {s t : State} (h : OnlyRegs ks s t) : t.flash = s.flash := by rw [h.1]

theorem OnlyRegs.mgt_eq {ks : List Nat} {s t : State} (h : OnlyRegs ks s t) : t.mgt = s.mgt := by rw [h.1]

theorem sameRegs_withRas (ks : List Nat) (s : State) (ras : RasS) : SameRegsBut ks s { s with ras := ras } := fun _ _ => rfl

theorem getF_or (v w : Word) (f : Fld) : getF (v ||| w) f = getF v f ||| getF w f := by
  apply Nat.eq_of_testBit_eq
  intro i
  simp only [Nat.testBit_lor, getF_testBit, BitVec.getLsbD_or, Bool.and_or_distrib_left]

/-- A field that is put as it stands leaves its word as it was. -/
theorem putF_getF (w : Word) (f : Fld) : putF w f (getF w f) = w := by
  apply BitVec.eq_of_getLsbD_eq
  intro i hi
  rw [putF_getLsbD _ _ _ _ hi]
  split_ifs with h
  · have hin : i - f.lo < f.width := by omega
    have hpos : f.lo + (i - f.lo) = i := by omega
    rw [getF_testBit, hpos, decide_eq_true hin, Bool.true_and]
  · rfl

/-- Fields that are set as they stand leave every register as it was. -/
theorem onlyRegs_foldl_setFld {a : Nat} {v : Word} {fs : List Fld} {s : State} (h : ∀ f ∈ fs, getF v f = fld s a f) :
    OnlyRegs [] s (fs.foldl (fun s f => setFld s a f (getF v f)) s) := by
  induction fs generalizing s with
  | nil => exact onlyRegs_refl _ _
  | cons f fs ih =>
    rw [List.forall_mem_cons] at h
    obtain ⟨hf, hfs⟩ := h
    have hset : OnlyRegs [] s (setFld s a f (getF v f)) := by
      rw [hf, setFld, fld, putF_getF]
      exact onlyRegs_wr_rd s a
    exact onlyRegs_trans hset (ih fun g hg => (hfs g hg).trans (hset.2.fld_eq List.not_mem_nil g).symm)

/-- A word with some of its fields as in another. -/
def putFields (fs : List Fld) (old v : Word) : Word := fs.foldl (fun w f => putF w f (getF v f)) old

/-- A field apart from all that are put stands as it was. -/
theorem getF_putFields_ne {fs : List Fld} {g : Fld} (hg : g.lo + g.width ≤ 32)
    (h : ∀ f ∈ fs, g.lo + g.width ≤ f.lo ∨ f.lo + f.width ≤ g.lo) (old v : Word) : getF (putFields fs old v) g = getF old g := by
  induction fs generalizing old with
  | nil => rfl
  | cons f fs ih =>
    rw [List.forall_mem_cons] at h
    obtain ⟨hf, hfs⟩ := h
    exact (ih hfs _).trans (getF_putF_ne _ _ _ _ hg hf)

/-- Of fields apart from one another each is as in the other word. -/
theorem getF_putFields {fs : List Fld} (hfs : ∀ f ∈ fs, f.lo + f.width ≤ 32)
    (hapart : fs.Pairwise fun f g => f.lo + f.width ≤ g.lo) (old v : Word) {g : Fld} (hg : g ∈ fs) :
    getF (putFields fs old v) g = getF v g := by
  induction fs generalizing old with
  | nil => exact absurd hg List.not_mem_nil
  | cons f fs ih =>
    rw [List.forall_mem_cons] at hfs
    rw [List.pairwise_cons] at hapart
    obtain ⟨hf, hrest⟩ := hfs
    obtain ⟨hnext, hpair⟩ := hapart
    rcases List.mem_cons.1 hg with rfl | hmem
    · refine (getF_putFields_ne hf (fun f hm => .inl (hnext f hm)) _ _).trans ?_
      rw [getF_putF _ _ _ hf, Nat.mod_eq_of_lt (getF_lt v g)]
    · exact ih hrest hpair _ hmem

/-! ## Events that reach the recorder (R507, R508) -/

/-- An event is queued or dropped as R507 and R508 say. -/
theorem recorded_sep (s : State) (type unit code arg : Nat) :
    Recorded s (sep s type unit code arg) (sepMake s type unit code arg) := by
  refine ⟨sameRegs_sep s type unit code arg, fun hshut => ?_, fun hopen hroom => ?_, fun hopen hfull => ?_⟩
  · have hsep : sep s type unit code arg = inc s Reg.SEP_DROP_CNT := if_pos hshut
    rw [hsep]
    exact ⟨rfl, rd_inc_same s _⟩
  · have hsep : sep s type unit code arg = { s with ras := { s.ras with queue := s.ras.queue ++ [sepMake s type unit code arg] } } :=
      (if_neg (by simp [hopen])).trans (if_pos (of_decide_eq_true hroom))
    rw [hsep]
    exact ⟨rfl, rfl⟩
  · have hsep : sep s type unit code arg = { inc s Reg.SEP_DROP_CNT with ras := { s.ras with dropSince := s.ras.dropSince + 1 } } :=
      (if_neg (by simp [hopen])).trans (if_neg (of_decide_eq_false hfull))
    rw [hsep]
    exact ⟨rfl, rd_inc_same s _⟩

/-- An event is made of the count, its wraps and the records of the units. -/
theorem sepMake_congr {ks : List Nat} {s t : State} (h : OnlyRegs ks s t) (hwrap : Reg.TIM_WRAP_CNT ∉ ks) (type unit code arg : Nat) :
    sepMake t type unit code arg = sepMake s type unit code arg := by
  rw [sepMake, h.raw_eq, h.2 _ hwrap, h.ras_eq, sepMake]

theorem sep_mgt (s : State) (type unit code arg : Nat) : (sep s type unit code arg).mgt = s.mgt := by
  rcases sep_cases s type unit code arg with h | h | h <;> rw [h] <;> rfl

/-- What an event does in a state it does from every state with the same registers. -/
theorem Recorded.of_onlyRegs {s t u : State} {e : SepEvent} (h : OnlyRegs [] s t) (hr : Recorded t u e) : Recorded s u e := by
  have hrd : ∀ a, rd t a = rd s a := fun a => h.2 a List.not_mem_nil
  unfold Recorded at hr ⊢
  simp only [isSet, fld, hrd, h.ras_eq] at hr ⊢
  obtain ⟨hregs, hrest⟩ := hr
  exact ⟨(h.2.mono (List.nil_subset _)).trans hregs, hrest⟩

/-! ## The start of a dump (R509) -/

theorem sepDumpStart_running {s : State} (h : fld s Reg.SEP_STAT F.SEP_STAT_DUMP = 1) (cause stamp : Nat) :
    sepDumpStart s cause stamp = s := if_pos h

theorem sepDumpStart_idle {s : State} (h : fld s Reg.SEP_STAT F.SEP_STAT_DUMP ≠ 1) (cause stamp : Nat) :
    sepDumpStart s cause stamp =
      setFld { s with ras := { s.ras with dumpCause := cause, dumpStamp := stamp } } Reg.SEP_STAT F.SEP_STAT_DUMP 1 := if_neg h

/-- State `u` is state `s` but for the DUMP field of SEP_STAT, above its other fields, and what the header of a dump tells of its start. -/
def DumpFrame (s u : State) : Prop :=
  SameRegsBut [Reg.SEP_STAT] s u ∧ (∀ f : Fld, f.lo + f.width ≤ 4 → fld u Reg.SEP_STAT f = fld s Reg.SEP_STAT f) ∧
  ∃ cause stamp, u = { s with regs := u.regs, ras := { s.ras with dumpCause := cause, dumpStamp := stamp } }

theorem dumpFrame_refl (s : State) : DumpFrame s s := ⟨fun _ _ => rfl, fun _ _ => rfl, _, _, rfl⟩

theorem dumpFrame_sepDumpStart (s : State) (cause stamp : Nat) : DumpFrame s (sepDumpStart s cause stamp) := by
  unfold sepDumpStart
  split_ifs
  · exact dumpFrame_refl s
  · exact ⟨(sameRegs_withRas _ s _).trans (onlyRegs_setFld _ _ _ _ (by simp)).2,
      fun f hf => fld_setFld_ne _ _ _ _ _ (by omega) (.inl hf), cause, stamp, rfl⟩

theorem DumpFrame.kept {s u : State} (h : DumpFrame s u) :
    u.ras.queue = s.ras.queue ∧ u.ras.entries = s.ras.entries ∧ u.mem = s.mem ∧ u.flash = s.flash ∧ u.mgt = s.mgt := by
  obtain ⟨-, -, _, _, hframe⟩ := h
  rw [hframe]
  exact ⟨rfl, rfl, rfl, rfl, rfl⟩

/-- Whether one was running or not, a dump runs. -/
theorem fld_sepDumpStart (s : State) (cause stamp : Nat) : fld (sepDumpStart s cause stamp) Reg.SEP_STAT F.SEP_STAT_DUMP = 1 := by
  unfold sepDumpStart
  split_ifs with h
  · exact h
  · exact fld_setFld _ _ _ _ (by decide)

/-! ## SEPIA_WRITE (R504, R507, R508) -/

/-- The event at the head of the queue stands in the entry that SEP_COUNT names, and is counted. -/
def sepWritten (s : State) (e : SepEvent) (q : List SepEvent) : State :=
  inc { s with ras := { s.ras with
    queue := q
    entries := Tab.put (fun _ => (0, 0, 0, 0)) s.ras.entries ((rd s Reg.SEP_COUNT).toNat % 8192) (sepWords e)
    badEntries := Tab.put (fun _ => false) s.ras.badEntries ((rd s Reg.SEP_COUNT).toNat % 8192) false } } Reg.SEP_COUNT

/-- The DROP event of R507 joins the queue once it has room. -/
def dropNoted (s : State) : State :=
  if s.ras.dropSince ≠ 0 ∧ s.ras.queue.length < 60 then
    { s with ras := { s.ras with queue := s.ras.queue ++ [sepMake s 0x12 0 0 s.ras.dropSince], dropSince := 0 } }
  else s

/-- What a freeze shows in registers: the cause, the stamp, and the events dropped with it. -/
def freezeShown (s : State) (e : SepEvent) : State :=
  addCnt (wr64 (setFld (setFld s Reg.SEP_STAT F.SEP_STAT_FROZEN 1) Reg.SEP_STAT F.SEP_STAT_CAUSE e.code) Reg.SEP_FREEZE_LO e.time)
    Reg.SEP_DROP_CNT s.ras.queue.length

/-- The freeze of R508 before the dump that it may start. -/
def sepFrozen (s : State) (e : SepEvent) : State := { freezeShown s e with ras := { s.ras with queue := [], dropSince := 0 } }

theorem sepiaWrite_nil {s : State} (h : s.ras.queue = []) : sepiaWrite s = s := by simp only [sepiaWrite, h]

theorem sepiaWrite_cons {s : State} {e : SepEvent} {q : List SepEvent} (h : s.ras.queue = e :: q) :
    sepiaWrite s = if e.type = 0x13 then sepFreeze (sepWritten s e q) e else dropNoted (sepWritten s e q) := by
  simp only [sepiaWrite, h]
  rfl

theorem sepEntry_congr {s t : State} (h : t.ras.entries = s.ras.entries) (i : Nat) : sepEntry t i = sepEntry s i := by
  rw [sepEntry, h, sepEntry]

theorem sepEntry_sepWritten (s : State) (e : SepEvent) (q : List SepEvent) (j : Nat) : sepEntry (sepWritten s e q) j =
    if j = (rd s Reg.SEP_COUNT).toNat % 8192 then sepWords e else sepEntry s j := Tab.get_put _ _ _ _ _

theorem sameRegs_sepWritten (s : State) (e : SepEvent) (q : List SepEvent) : SameRegsBut [Reg.SEP_COUNT] s (sepWritten s e q) :=
  (sameRegs_withRas _ s _).trans (onlyRegs_inc _ _ (by simp)).2

theorem rd_sepWritten_count (s : State) (e : SepEvent) (q : List SepEvent) :
    rd (sepWritten s e q) Reg.SEP_COUNT = rd s Reg.SEP_COUNT + 1 := rd_inc_same _ _

theorem sepMake_sepWritten (s : State) (e : SepEvent) (q : List SepEvent) (type unit code arg : Nat) :
    sepMake (sepWritten s e q) type unit code arg = sepMake s type unit code arg := by
  rw [sepMake, sameRegs_sepWritten s e q _ (by decide), sepMake]
  rfl

theorem sepWritten_mem (s : State) (e : SepEvent) (q : List SepEvent) : (sepWritten s e q).mem = s.mem := rfl

/-- A DROP event changes nothing but the queue. -/
theorem dropNoted_frame (s : State) : ∃ q n, dropNoted s = { s with ras := { s.ras with queue := q, dropSince := n } } := by
  unfold dropNoted
  split_ifs
  · exact ⟨_, _, rfl⟩
  · exact ⟨_, _, rfl⟩

/-- The registers of a freeze. -/
abbrev freezeRegs : List Nat := [Reg.SEP_STAT, Reg.SEP_FREEZE_LO, Reg.SEP_FREEZE_LO + 4, Reg.SEP_DROP_CNT]

theorem onlyRegs_freezeShown (s : State) (e : SepEvent) : OnlyRegs freezeRegs s (freezeShown s e) :=
  onlyRegs_trans (onlyRegs_trans (onlyRegs_setFld _ _ _ _ (by simp)) (onlyRegs_setFld _ _ _ _ (by simp)))
    (onlyRegs_trans (onlyRegs_wr64 _ _ _ (by simp) (by simp)) (onlyRegs_wr _ _ _ (by simp)))

theorem sameRegs_sepFrozen (s : State) (e : SepEvent) : SameRegsBut freezeRegs s (sepFrozen s e) :=
  (onlyRegs_freezeShown s e).2.trans (sameRegs_withRas _ _ _)

theorem sepFrozen_ras (s : State) (e : SepEvent) : (sepFrozen s e).ras = { s.ras with queue := [], dropSince := 0 } := rfl

theorem sepFrozen_mem (s : State) (e : SepEvent) : (sepFrozen s e).mem = s.mem := by
  rw [sepFrozen]
  exact (onlyRegs_freezeShown s e).mem_eq

theorem rd_sepFrozen (s : State) (e : SepEvent) (a : Nat) : rd (sepFrozen s e) a = rd (freezeShown s e) a := rfl

theorem rd_sepFrozen_stat (s : State) (e : SepEvent) : rd (sepFrozen s e) Reg.SEP_STAT =
    putF (putF (rd s Reg.SEP_STAT) F.SEP_STAT_FROZEN 1) F.SEP_STAT_CAUSE e.code := by
  rw [rd_sepFrozen, freezeShown, rd_addCnt_ne _ _ (by decide), rd_wr64_ne _ (by decide) (by decide), rd_setFld_same, rd_setFld_same]

theorem rd64_sepFrozen (s : State) (e : SepEvent) : rd64 (sepFrozen s e) Reg.SEP_FREEZE_LO = e.time % 2 ^ 64 := by
  rw [rd64, rd_sepFrozen, rd_sepFrozen, freezeShown, rd_addCnt_ne _ _ (by decide), rd_addCnt_ne _ _ (by decide)]
  exact rd64_wr64 _ _ _

theorem rd_sepFrozen_drop (s : State) (e : SepEvent) :
    rd (sepFrozen s e) Reg.SEP_DROP_CNT = rd s Reg.SEP_DROP_CNT + BitVec.ofNat 32 s.ras.queue.length := by
  rw [rd_sepFrozen, freezeShown, rd_addCnt_same, rd_wr64_ne _ (by decide) (by decide), rd_setFld_ne _ _ _ (by decide),
    rd_setFld_ne _ _ _ (by decide)]

theorem fld_sepFrozen_dump (s : State) (e : SepEvent) :
    fld (sepFrozen s e) Reg.SEP_STAT F.SEP_STAT_DUMP = fld s Reg.SEP_STAT F.SEP_STAT_DUMP := by
  rw [fld, rd_sepFrozen_stat, getF_putF_ne _ _ _ _ (by decide) (by decide), getF_putF_ne _ _ _ _ (by decide) (by decide), fld]

/-- A freeze starts a dump when DUMP_EN is set, and none otherwise. -/
theorem sepFreeze_eq (s : State) (e : SepEvent) : sepFreeze s e =
    if isSet s Reg.SEP_CTL F.SEP_CTL_DUMP_EN then sepDumpStart (sepFrozen s e) e.code e.time else sepFrozen s e := by
  rw [← (sameRegs_sepFrozen s e).isSet_eq (by decide)]
  rfl

theorem dumpFrame_sepFreeze (s : State) (e : SepEvent) : DumpFrame (sepFrozen s e) (sepFreeze s e) := by
  rw [sepFreeze_eq]
  split_ifs
  · exact dumpFrame_sepDumpStart _ _ _
  · exact dumpFrame_refl _

/-- After a freeze the recorder shows it, with its cause and its stamp, and what was queued is counted as dropped. -/
theorem sepFreeze_frozen (s : State) (e : SepEvent) :
    let u := sepFreeze s e
    isSet u Reg.SEP_STAT F.SEP_STAT_FROZEN = true ∧ fld u Reg.SEP_STAT F.SEP_STAT_CAUSE = e.code % 8 ∧
    rd64 u Reg.SEP_FREEZE_LO = e.time % 2 ^ 64 ∧ u.ras.queue = [] ∧
    rd u Reg.SEP_DROP_CNT = rd s Reg.SEP_DROP_CNT + BitVec.ofNat 32 s.ras.queue.length := by
  have hframe := dumpFrame_sepFreeze s e
  obtain ⟨hqueue, -⟩ := hframe.kept
  obtain ⟨hregs, hlow, -⟩ := hframe
  refine ⟨?_, ?_, ?_, ?_, ?_⟩
  · rw [isSet, hlow _ (by decide), fld, rd_sepFrozen_stat, getF_putF_ne _ _ _ _ (by decide) (by decide), getF_putF _ _ _ (by decide)]
    rfl
  · rw [hlow _ (by decide), fld, rd_sepFrozen_stat, getF_putF _ _ _ (by decide)]
    rfl
  · rw [hregs.rd64_eq (by decide) (by decide), rd64_sepFrozen]
  · rw [hqueue, sepFrozen_ras]
  · rw [hregs _ (by decide), rd_sepFrozen_drop]

theorem sepFreeze_dumps {s : State} (e : SepEvent) (hen : isSet s Reg.SEP_CTL F.SEP_CTL_DUMP_EN = true)
    (hidle : fld s Reg.SEP_STAT F.SEP_STAT_DUMP ≠ 1) :
    let u := sepFreeze s e
    fld u Reg.SEP_STAT F.SEP_STAT_DUMP = 1 ∧ u.ras.dumpCause = e.code ∧ u.ras.dumpStamp = e.time := by
  rw [← fld_sepFrozen_dump s e] at hidle
  rw [sepFreeze_eq, if_pos hen]
  refine ⟨fld_sepDumpStart _ _ _, ?_⟩
  rw [sepDumpStart_idle hidle]
  exact ⟨rfl, rfl⟩

/-- Without DUMP_EN no dump starts, and one that is running goes on. -/
theorem sepFreeze_quiet {s : State} (e : SepEvent)
    (h : isSet s Reg.SEP_CTL F.SEP_CTL_DUMP_EN = false ∨ fld s Reg.SEP_STAT F.SEP_STAT_DUMP = 1) :
    fld (sepFreeze s e) Reg.SEP_STAT F.SEP_STAT_DUMP = fld s Reg.SEP_STAT F.SEP_STAT_DUMP := by
  rw [sepFreeze_eq]
  split_ifs with hen
  · have hrun : fld s Reg.SEP_STAT F.SEP_STAT_DUMP = 1 := h.resolve_left (by simp [hen])
    rw [fld_sepDumpStart, hrun]
  · exact fld_sepFrozen_dump s e

/-- Whatever its type, an event that is written stands in its entry, is counted, and changes no other entry. -/
theorem sepiaWrite_writes {s : State} {e : SepEvent} {q : List SepEvent} (h : s.ras.queue = e :: q) :
    (∀ j, sepEntry (sepiaWrite s) j = if j = (rd s Reg.SEP_COUNT).toNat % 8192 then sepWords e else sepEntry s j) ∧
    rd (sepiaWrite s) Reg.SEP_COUNT = rd s Reg.SEP_COUNT + 1 ∧ (sepiaWrite s).mem = s.mem := by
  have hafter : (sepiaWrite s).ras.entries = (sepWritten s e q).ras.entries ∧ (sepiaWrite s).mem = s.mem ∧
      rd (sepiaWrite s) Reg.SEP_COUNT = rd (sepWritten s e q) Reg.SEP_COUNT := by
    rw [sepiaWrite_cons h]
    split_ifs
    · have hframe := dumpFrame_sepFreeze (sepWritten s e q) e
      obtain ⟨-, hentries, hmem, -⟩ := hframe.kept
      refine ⟨?_, ?_, (hframe.1 _ (by decide)).trans (sameRegs_sepFrozen _ e _ (by decide))⟩
      · rw [hentries, sepFrozen_ras]
      · rw [hmem, sepFrozen_mem, sepWritten_mem]
    · obtain ⟨_, _, hframe⟩ := dropNoted_frame (sepWritten s e q)
      rw [hframe]
      exact ⟨rfl, rfl, rfl⟩
  obtain ⟨hentries, hmem, hcount⟩ := hafter
  exact ⟨fun j => (sepEntry_congr hentries j).trans (sepEntry_sepWritten s e q j), hcount.trans (rd_sepWritten_count s e q), hmem⟩

/-- An event that is not FATAL leaves the queue to the next, and a DROP event if one is due and has room. -/
theorem sepiaWrite_queue {s : State} {e : SepEvent} {q : List SepEvent} (h : s.ras.queue = e :: q) (he : e.type ≠ 0x13) :
    let u := sepiaWrite s
    SameRegsBut [Reg.SEP_COUNT] s u ∧
    (s.ras.dropSince = 0 ∨ 60 ≤ q.length → u.ras.queue = q ∧ u.ras.dropSince = s.ras.dropSince) ∧
    (s.ras.dropSince ≠ 0 → q.length < 60 → u.ras.queue = q ++ [sepMake s 0x12 0 0 s.ras.dropSince] ∧ u.ras.dropSince = 0) := by
  rw [sepiaWrite_cons h, if_neg he]
  refine ⟨?_, fun hno => ?_, fun hdrop hroom => ?_⟩
  · obtain ⟨_, _, hframe⟩ := dropNoted_frame (sepWritten s e q)
    rw [hframe]
    exact (sameRegs_sepWritten s e q).trans (sameRegs_withRas _ _ _)
  · have hnote : dropNoted (sepWritten s e q) = sepWritten s e q := if_neg fun ⟨hd, hr⟩ => hno.elim hd (Nat.not_le.2 hr)
    rw [hnote]
    exact ⟨rfl, rfl⟩
  · have hnote : (dropNoted (sepWritten s e q)).ras =
        { (sepWritten s e q).ras with queue := q ++ [sepMake (sepWritten s e q) 0x12 0 0 s.ras.dropSince], dropSince := 0 } :=
      congrArg State.ras (if_pos ⟨hdrop, hroom⟩)
    rw [hnote, sepMake_sepWritten]
    exact ⟨rfl, rfl⟩

theorem sepiaWrite_freezes {s : State} {e : SepEvent} {q : List SepEvent} (h : s.ras.queue = e :: q) (he : e.type = 0x13) :
    let u := sepiaWrite s
    let dump := fld s Reg.SEP_STAT F.SEP_STAT_DUMP
    isSet u Reg.SEP_STAT F.SEP_STAT_FROZEN = true ∧ fld u Reg.SEP_STAT F.SEP_STAT_CAUSE = e.code % 8 ∧
    rd64 u Reg.SEP_FREEZE_LO = e.time % 2 ^ 64 ∧ u.ras.queue = [] ∧
    rd u Reg.SEP_DROP_CNT = rd s Reg.SEP_DROP_CNT + BitVec.ofNat 32 q.length ∧
    (isSet s Reg.SEP_CTL F.SEP_CTL_DUMP_EN = true → dump ≠ 1 → fld u Reg.SEP_STAT F.SEP_STAT_DUMP = 1 ∧ u.ras.dumpCause = e.code ∧
      u.ras.dumpStamp = e.time) ∧
    (isSet s Reg.SEP_CTL F.SEP_CTL_DUMP_EN = false ∨ dump = 1 → fld u Reg.SEP_STAT F.SEP_STAT_DUMP = dump) := by
  have hw := sameRegs_sepWritten s e q
  rw [sepiaWrite_cons h, if_pos he, ← hw.isSet_eq (by decide), ← hw.fld_eq (by decide), ← hw Reg.SEP_DROP_CNT (by decide)]
  obtain ⟨hset, hcause, hstamp, hempty, hdrop⟩ := sepFreeze_frozen (sepWritten s e q) e
  exact ⟨hset, hcause, hstamp, hempty, hdrop, sepFreeze_dumps e, sepFreeze_quiet e⟩

/-! ## Writes of SEP_CTL (R508, R509, R514) -/

/-- The modes of SEP_CTL, which it holds. -/
abbrev ctlModes : List Fld := [F.SEP_CTL_EN, F.SEP_CTL_MISS_ALL, F.SEP_CTL_DUMP_EN, F.SEP_CTL_MON_FATAL]

/-- The actions of SEP_CTL, which it does not hold. -/
abbrev ctlActions : List Fld := [F.SEP_CTL_FREEZE, F.SEP_CTL_UNFREEZE, F.SEP_CTL_DUMP]

/-- The fields of SEP_CTL in its descriptor: the modes are RW, the actions WO. -/
abbrev ctlFields : List RField :=
  (ctlModes.map fun f => ⟨f.lo, f.width, .rw, [], .any⟩) ++ ctlActions.map fun f => ⟨f.lo, f.width, .wo, [], .any⟩

theorem findReg_sepCtl : ∃ d k, findReg Reg.SEP_CTL = some (d, k) ∧ d.pair = 0 ∧ d.perFn = false ∧ d.fields = ctlFields :=
  ⟨_, _, rfl, rfl, rfl, rfl⟩

theorem writeAt_sepCtl : writeAtList (hookBlock Reg.SEP_CTL) Reg.SEP_CTL = some fun w _ v m s => sepCtlWrite s (m ||| v) (isMc w) := rfl

theorem mergeReg_sepCtl (w : Requester) (a : Nat) {d : RegDesc} (hd : d.fields = ctlFields) (old v : Word) :
    mergeReg w a d old v = putFields ctlModes old v := by
  simp [mergeReg, hd, mergeField, mayWrite, encOk, putFields]

theorem woPart_sepCtl (w : Requester) (a : Nat) {d : RegDesc} (hd : d.fields = ctlFields) (v : Word) :
    woPart w a d v = putFields ctlActions 0 v := by
  simp [woPart, hd, mayWrite, putFields]

/-- SEP_CTL with the modes of a write in it. -/
def ctlWritten (s : State) (v : Word) : State := ctlModes.foldl (fun s f => setFld s Reg.SEP_CTL f (getF v f)) s

/-- The word that a write brings to SEP_CTL's effect: what the register holds with the modes of the write, and the actions it asks for. -/
def ctlWord (s : State) (v : Word) : Word := putFields ctlModes (rd s Reg.SEP_CTL) v ||| putFields ctlActions 0 v

theorem getF_ctlWord_mode (s : State) (v : Word) : ∀ f ∈ ctlModes, getF (ctlWord s v) f = getF v f := by
  intro f hf
  have hfit : f.lo + f.width ≤ 32 := by revert f; decide
  have hapart : ∀ g ∈ ctlActions, f.lo + f.width ≤ g.lo ∨ g.lo + g.width ≤ f.lo := by revert f; decide
  have hzero : getF 0 f = 0 := by simp [getF]
  rw [ctlWord, getF_or, getF_putFields (by decide) (by decide) _ _ hf, getF_putFields_ne hfit hapart, hzero, Nat.or_zero]

theorem getF_ctlWord_action (s : State) (v : Word) : ∀ f ∈ ctlActions, getF (ctlWord s v) f = fld s Reg.SEP_CTL f ||| getF v f := by
  intro f hf
  have hfit : f.lo + f.width ≤ 32 := by revert f; decide
  have hapart : ∀ g ∈ ctlModes, f.lo + f.width ≤ g.lo ∨ g.lo + g.width ≤ f.lo := by revert f; decide
  rw [ctlWord, getF_or, getF_putFields (by decide) (by decide) _ _ hf, getF_putFields_ne hfit hapart, fld]

/-- The word that asks for one action and keeps the modes. -/
def askWord (s : State) (f : Fld) : Word := putF (rd s Reg.SEP_CTL) f 1

theorem ctlPlain_fld {s : State} (h : ctlPlain s = true) : ∀ f ∈ ctlActions, fld s Reg.SEP_CTL f = 0 := by
  obtain ⟨hfreeze, hunfreeze, hdump⟩ := of_decide_eq_true h
  simp [hfreeze, hunfreeze, hdump]

/-- A word asks for one action and no other. -/
def CtlAsks (v : Word) (f : Fld) : Prop := ∀ g ∈ ctlActions, getF v g = if g = f then 1 else 0

/-- The fields other than the one asked for stand. -/
theorem getF_askWord_ne (s : State) {f g : Fld} (hf : f ∈ ctlActions) (hg : g ∈ ctlModes ++ ctlActions) (hne : g ≠ f) :
    getF (askWord s f) g = fld s Reg.SEP_CTL g := by
  have hfit : ∀ g ∈ ctlModes ++ ctlActions, g.lo + g.width ≤ 32 := by decide
  have hapart : ∀ f ∈ ctlActions, ∀ g ∈ ctlModes ++ ctlActions, g = f ∨ g.lo + g.width ≤ f.lo ∨ f.lo + f.width ≤ g.lo := by
    decide
  exact getF_putF_ne _ _ _ _ (hfit g hg) ((hapart f hf g hg).resolve_left hne)

theorem getF_askWord_mode (s : State) {f : Fld} (hf : f ∈ ctlActions) : ∀ g ∈ ctlModes, getF (askWord s f) g = fld s Reg.SEP_CTL g := by
  have hmode : ∀ f ∈ ctlActions, f ∉ ctlModes := by decide
  exact fun g hg => getF_askWord_ne s hf (List.mem_append_left _ hg) fun h => hmode f hf (h ▸ hg)

theorem ctlAsks_askWord {s : State} (hplain : ctlPlain s = true) {f : Fld} (hf : f ∈ ctlActions) : CtlAsks (askWord s f) f := by
  intro g hg
  split_ifs with h
  · subst h
    have hone : ∀ g ∈ ctlActions, g.lo + g.width ≤ 32 ∧ 1 % 2 ^ g.width = 1 := by decide
    obtain ⟨hfit, hwidth⟩ := hone g hg
    exact (getF_putF _ _ _ hfit).trans hwidth
  · exact (getF_askWord_ne s hf (List.mem_append_right _ hg) h).trans (ctlPlain_fld hplain g hg)

theorem sepCtlWrite_freeze {v : Word} (h : CtlAsks v F.SEP_CTL_FREEZE) (s : State) (mc : Bool) :
    sepCtlWrite s v mc = fatal (ctlWritten s v) 5 := by
  have hfreeze : getF v F.SEP_CTL_FREEZE = 1 := h _ (by decide)
  have hunfreeze : getF v F.SEP_CTL_UNFREEZE = 0 := h _ (by decide)
  have hdump : getF v F.SEP_CTL_DUMP = 0 := h _ (by decide)
  simp [sepCtlWrite, ctlWritten, hfreeze, hunfreeze, hdump]

theorem sepCtlWrite_unfreeze {v : Word} (h : CtlAsks v F.SEP_CTL_UNFREEZE) (s : State) (mc : Bool) :
    sepCtlWrite s v mc = if mc then sepUnfreeze (ctlWritten s v) else ctlWritten s v := by
  have hfreeze : getF v F.SEP_CTL_FREEZE = 0 := h _ (by decide)
  have hunfreeze : getF v F.SEP_CTL_UNFREEZE = 1 := h _ (by decide)
  have hdump : getF v F.SEP_CTL_DUMP = 0 := h _ (by decide)
  simp [sepCtlWrite, ctlWritten, hfreeze, hunfreeze, hdump]

theorem sepCtlWrite_dump {v : Word} (h : CtlAsks v F.SEP_CTL_DUMP) (s : State) (mc : Bool) :
    sepCtlWrite s v mc = sepDumpStart (ctlWritten s v) (fld (ctlWritten s v) Reg.SEP_STAT F.SEP_STAT_CAUSE) (raw (ctlWritten s v)) := by
  have hfreeze : getF v F.SEP_CTL_FREEZE = 0 := h _ (by decide)
  have hunfreeze : getF v F.SEP_CTL_UNFREEZE = 0 := h _ (by decide)
  have hdump : getF v F.SEP_CTL_DUMP = 1 := h _ (by decide)
  simp [sepCtlWrite, ctlWritten, hfreeze, hunfreeze, hdump]

/-- The word that reaches SEP_CTL's effect when a requester asks for one action. -/
def ctlAsk (s : State) (w : Requester) (f : Fld) : Word := ctlWord (taken s w) (askWord (taken s w) f)

/-- The state in which the action that a requester asks for is taken. -/
def ctlKept (s : State) (w : Requester) (f : Fld) : State := ctlWritten (taken s w) (ctlAsk s w f)

theorem onlyRegs_ctlKept (s : State) (w : Requester) {f : Fld} (hf : f ∈ ctlActions) : OnlyRegs [] (taken s w) (ctlKept s w f) :=
  onlyRegs_foldl_setFld fun g hg => (getF_ctlWord_mode _ _ g hg).trans (getF_askWord_mode _ hf g hg)

theorem onlyRegs_ctlKept_ext (s : State) (w : Requester) {f : Fld} (hf : f ∈ ctlActions) :
    OnlyRegs [Reg.MGT_EXT_STAT] s (ctlKept s w f) :=
  onlyRegs_trans (onlyRegs_taken s w) ((onlyRegs_ctlKept s w hf).mono (List.nil_subset _))

theorem ctlAsks_ctlAsk {s : State} (w : Requester) (hplain : ctlPlain s = true) {f : Fld} (hf : f ∈ ctlActions) :
    CtlAsks (ctlAsk s w f) f := by
  have htaken : ctlPlain (taken s w) = true := by
    simpa only [ctlPlain, (onlyRegs_taken s w).2.fld_eq (by decide : Reg.SEP_CTL ∉ _)] using hplain
  intro g hg
  rw [ctlAsk, getF_ctlWord_action _ _ g hg, ctlPlain_fld htaken g hg, Nat.zero_or, ctlAsks_askWord htaken hf g hg]

/-- A direct write of one action ends as the register's effect leaves it. -/
theorem writeField_sepCtl {s u : State} {w : Requester} {f : Fld} (h : direct s w Reg.SEP_CTL = true)
    (hu : sepCtlWrite (taken s w) (ctlAsk s w f) (isMc w) = u) (hmgt : u.mgt = s.mgt) : writeField s w Reg.SEP_CTL f 1 = u := by
  obtain ⟨d, k, hfind, hpair, hper, hfields⟩ := findReg_sepCtl
  obtain ⟨-, -, hlate⟩ := direct_live h
  have hword : fieldWord s w Reg.SEP_CTL f 1 = askWord (taken s w) f := by
    rw [askWord, rd_taken s w (by decide)]
    simp [fieldWord, hfind, hper, shadowRd, lateOf, hlate]
  rw [writeField, hword]
  refine regWrite_aon h (by decide) (by decide) hfind hpair ?_ hmgt
  rw [ctlAsk, ctlWord] at hu
  simpa [applyWrite, writeAt_sepCtl, hper, mergeReg_sepCtl w _ hfields, woPart_sepCtl w _ hfields] using hu

theorem sepCtlFreeze_ends {s : State} {w : Requester} (h : direct s w Reg.SEP_CTL = true) (hplain : ctlPlain s = true) :
    Ends (.sepCtlFreeze w) s fun u => Recorded (taken s w) u (fatalEvent s 5) ∧ u.mem = s.mem := by
  have hf : F.SEP_CTL_FREEZE ∈ ctlActions := by decide
  have hext := onlyRegs_ctlKept_ext s w hf
  have hwrite : writeField s w Reg.SEP_CTL F.SEP_CTL_FREEZE 1 = fatal (ctlKept s w F.SEP_CTL_FREEZE) 5 :=
    writeField_sepCtl h (sepCtlWrite_freeze (ctlAsks_ctlAsk w hplain hf) _ _) ((sep_mgt _ _ _ _ _).trans hext.mgt_eq)
  refine ⟨_, done_leads (congrArg done hwrite), ?_, (sep_mem _ _ _ _ _).trans hext.mem_eq⟩
  rw [fatalEvent, ← sepMake_congr hext (by decide)]
  exact (recorded_sep _ _ _ _ _).of_onlyRegs (onlyRegs_ctlKept s w hf)

theorem onlyRegs_sepUnfreeze (s : State) : OnlyRegs [Reg.SEP_STAT] s (sepUnfreeze s) :=
  onlyRegs_trans (onlyRegs_setFld _ _ _ _ (by simp)) (onlyRegs_setFld _ _ _ _ (by simp))

theorem isSet_sepUnfreeze (s : State) : isSet (sepUnfreeze s) Reg.SEP_STAT F.SEP_STAT_FROZEN = false := by
  rw [isSet, sepUnfreeze, fld_setFld_ne _ _ _ _ _ (by decide) (by decide), fld_setFld _ _ _ _ (by decide)]
  rfl

theorem fld_sepUnfreeze_cause (s : State) : fld (sepUnfreeze s) Reg.SEP_STAT F.SEP_STAT_CAUSE = 0 := fld_setFld _ _ _ _ (by decide)

theorem sepCtlUnfreeze_ends {s : State} {w : Requester} (h : direct s w Reg.SEP_CTL = true) (hplain : ctlPlain s = true) :
    Ends (.sepCtlUnfreeze w) s fun u => u.ras = s.ras ∧ u.mem = s.mem ∧
      (isMc w = true → isSet u Reg.SEP_STAT F.SEP_STAT_FROZEN = false ∧ fld u Reg.SEP_STAT F.SEP_STAT_CAUSE = 0 ∧
        SameRegsBut [Reg.SEP_STAT] (taken s w) u) ∧
      (isMc w = false → SameRegsBut [] (taken s w) u) := by
  have hf : F.SEP_CTL_UNFREEZE ∈ ctlActions := by decide
  have hkept := onlyRegs_ctlKept s w hf
  have hext := onlyRegs_ctlKept_ext s w hf
  have hwrite := sepCtlWrite_unfreeze (ctlAsks_ctlAsk w hplain hf) (taken s w) (isMc w)
  cases hmc : isMc w with
  | true =>
    have hfrozen := onlyRegs_sepUnfreeze (ctlKept s w F.SEP_CTL_UNFREEZE)
    rw [if_pos hmc] at hwrite
    exact ⟨_, done_leads (congrArg done (writeField_sepCtl h hwrite (hfrozen.mgt_eq.trans hext.mgt_eq))),
      hfrozen.ras_eq.trans hext.ras_eq, hfrozen.mem_eq.trans hext.mem_eq,
      fun _ => ⟨isSet_sepUnfreeze _, fld_sepUnfreeze_cause _, (hkept.2.mono (List.nil_subset _)).trans hfrozen.2⟩, nofun⟩
  | false =>
    rw [if_neg (by simp [hmc])] at hwrite
    exact ⟨_, done_leads (congrArg done (writeField_sepCtl h hwrite hext.mgt_eq)), hext.ras_eq, hext.mem_eq, nofun,
      fun _ => hkept.2⟩

theorem sepCtlDump_ends {s : State} {w : Requester} (h : direct s w Reg.SEP_CTL = true) (hplain : ctlPlain s = true) :
    let dump := fld s Reg.SEP_STAT F.SEP_STAT_DUMP
    Ends (.sepCtlDump w) s fun u => SameRegsBut [Reg.SEP_STAT] (taken s w) u ∧ u.mem = s.mem ∧ u.flash = s.flash ∧
      fld u Reg.SEP_STAT F.SEP_STAT_DUMP = 1 ∧
      (dump = 1 → u.ras = s.ras) ∧
      (dump ≠ 1 → u.ras = { s.ras with dumpCause := fld s Reg.SEP_STAT F.SEP_STAT_CAUSE, dumpStamp := raw s }) := by
  have hf : F.SEP_CTL_DUMP ∈ ctlActions := by decide
  have hkept := onlyRegs_ctlKept s w hf
  have hext := onlyRegs_ctlKept_ext s w hf
  have hstat : ∀ f, fld (ctlKept s w F.SEP_CTL_DUMP) Reg.SEP_STAT f = fld s Reg.SEP_STAT f := hext.2.fld_eq (by decide)
  have hwrite := sepCtlWrite_dump (ctlAsks_ctlAsk w hplain hf) (taken s w) (isMc w)
  rw [← ctlKept, hstat, hext.raw_eq] at hwrite
  have hframe := dumpFrame_sepDumpStart (ctlKept s w F.SEP_CTL_DUMP) (fld s Reg.SEP_STAT F.SEP_STAT_CAUSE) (raw s)
  obtain ⟨-, -, hmem, hflash, hmgt⟩ := hframe.kept
  refine ⟨_, done_leads (congrArg done (writeField_sepCtl h hwrite (hmgt.trans hext.mgt_eq))),
    (hkept.2.mono (List.nil_subset _)).trans hframe.1, hmem.trans hext.mem_eq, hflash.trans hext.flash_eq, fld_sepDumpStart _ _ _,
    fun hrun => ?_, fun hidle => ?_⟩
  · rw [sepDumpStart_running ((hstat _).trans hrun), hext.ras_eq]
  · rw [sepDumpStart_idle (by rwa [hstat]), setFld_ras, hext.ras_eq]

/-! ## The end of a dump (R509) -/

theorem nextCmd_of_allStarted {s : State} (h : allStarted s = true) (f q : Nat) : nextCmd s f q = none := by
  have hnone : (s.hif.cmds.find? fun c => decide (c.f = f ∧ c.q = q ∧ c.started = false)) = none := by
    rw [List.find?_eq_none]
    intro c hc
    simp [List.all_eq_true.1 h c hc]
  simp only [nextCmd, hnone]

theorem autoStarts_of_allStarted {s : State} (h : allStarted s = true) : autoStarts s = s := by
  have hnone : ∀ n f q, autoStart n s f q = s := by
    intro n f q
    cases n with
    | zero => rfl
    | succ n => simp only [autoStart, nextCmd_of_allStarted h]
  exact List.foldl_fixed' (fun k => hnone 256 k.1 k.2) _

theorem answerWaiting_of_noMail {s : State} (h : s.hif.mail = []) (u acode : Nat) : answerWaiting s u acode = s := by
  simp [answerWaiting, h]

/-- The entries as a dump writes them. -/
def dumpBody (s : State) : List Byte := (upto 8192).flatMap fun i => entryBytes (sepEntry s i)

/-- The boot flash once a dump has written its entries and its header. -/
def dumpFlash (s : State) : Tab Byte :=
  memPutN s.flash ((rd s Reg.SEP_DUMP_ADDR).toNat / 2 ^ 16 * 2 ^ 16)
    (dumpHead s ++ leBytes 4 (crcOf 6 (dumpHead s ++ dumpBody s)) ++ dumpBody s)

theorem sepDumpDone_failed {s : State} (h : fld s Reg.SEP_STAT F.SEP_STAT_DUMP = 1) :
    sepDumpDone s false = setFld s Reg.SEP_STAT F.SEP_STAT_DUMP 3 := if_neg (not_not.2 h)

theorem sepDumpDone_written {s : State} (h : fld s Reg.SEP_STAT F.SEP_STAT_DUMP = 1) :
    sepDumpDone s true = setFld { s with flash := dumpFlash s } Reg.SEP_STAT F.SEP_STAT_DUMP 2 := if_neg (not_not.2 h)

theorem execSepiaDumpDone_idle {s : State} (h : fld s Reg.SEP_STAT F.SEP_STAT_DUMP ≠ 1) (ok : Bool) :
    execSepiaDumpDone ok s = done s := congrArg done (if_pos h)

/-- With no request in the mailbox and every command started, nothing follows the end of a dump. -/
theorem execSepiaDumpDone_running {s : State} (h : fld s Reg.SEP_STAT F.SEP_STAT_DUMP = 1) (hmail : s.hif.mail = [])
    (hstarted : allStarted s = true) (ok : Bool) : execSepiaDumpDone ok s = done (sepDumpDone s ok) := by
  have hhif : (sepDumpDone s ok).hif = s.hif := by
    cases ok with
    | true => rw [sepDumpDone_written h, setFld_hif]
    | false => rw [sepDumpDone_failed h, setFld_hif]
  refine congrArg done ((if_neg (not_not.2 h)).trans ?_)
  rw [answerWaiting_of_noMail (by rw [hhif, hmail]), autoStarts_of_allStarted (by rw [allStarted, hhif]; exact hstarted)]

/-- A new content of the boot flash and DUMP done change nothing else. -/
theorem flashed_spec (s : State) (m : Tab Byte) :
    let u := setFld { s with flash := m } Reg.SEP_STAT F.SEP_STAT_DUMP 2
    fld u Reg.SEP_STAT F.SEP_STAT_DUMP = 2 ∧ u.mem = s.mem ∧ SameRegsBut [Reg.SEP_STAT] s u ∧ u.flash = m :=
  ⟨fld_setFld _ _ _ _ (by decide), rfl, fun _ ha => (onlyRegs_setFld [Reg.SEP_STAT] { s with flash := m } _ _ (by simp)).2 _ ha, rfl⟩

theorem sepiaDumpDone_failed {s : State} (h : fld s Reg.SEP_STAT F.SEP_STAT_DUMP = 1) (hmail : s.hif.mail = [])
    (hstarted : allStarted s = true) :
    Ends (.sepiaDumpDone false) s fun u => OnlyRegs [Reg.SEP_STAT] s u ∧ fld u Reg.SEP_STAT F.SEP_STAT_DUMP = 3 :=
  ⟨_, done_leads ((execSepiaDumpDone_running h hmail hstarted false).trans (congrArg done (sepDumpDone_failed h))),
    onlyRegs_setFld _ _ _ _ (by simp), fld_setFld _ _ _ _ (by decide)⟩

theorem sepiaDumpDone_written {s : State} (h : fld s Reg.SEP_STAT F.SEP_STAT_DUMP = 1) (hmail : s.hif.mail = [])
    (hstarted : allStarted s = true) :
    Ends (.sepiaDumpDone true) s fun u => fld u Reg.SEP_STAT F.SEP_STAT_DUMP = 2 ∧ u.mem = s.mem ∧ SameRegsBut [Reg.SEP_STAT] s u ∧
      u.flash = dumpFlash s :=
  ⟨_, done_leads ((execSepiaDumpDone_running h hmail hstarted true).trans (congrArg done (sepDumpDone_written h))),
    flashed_spec s (dumpFlash s)⟩

/-! ## MARK and captures (R510, R514) -/

theorem findReg_sepMark : ∃ d k, findReg Reg.SEP_MARK = some (d, k) ∧ d.pair = 0 ∧ d.fields = [⟨0, 32, .wo, [], .any⟩] :=
  ⟨_, _, rfl, rfl, rfl⟩

theorem findReg_sepRdSel : ∃ d k, findReg Reg.SEP_RD_SEL = some (d, k) ∧ d.pair = 0 ∧ d.perFn = false ∧
    d.fields = [⟨0, 32, .rw, [], .any⟩] :=
  ⟨_, _, rfl, rfl, rfl, rfl⟩

theorem writeAt_sepMark : writeAtList (hookBlock Reg.SEP_MARK) Reg.SEP_MARK =
    some fun _ _ v _ s => sepMark s (fld s Reg.SEP_MARK_CODE F.SEP_MARK_CODE_CODE) v := rfl

theorem writeAt_sepRdSel : writeAtList (hookBlock Reg.SEP_RD_SEL) Reg.SEP_RD_SEL =
    some fun w _ _ m s => sepCapture (wr s Reg.SEP_RD_SEL m) (whoCode w) m.toNat := rfl

theorem regWrite_sepMark {s : State} {w : Requester} {v : Word} (h : direct s w Reg.SEP_MARK = true) :
    regWrite s w .word Reg.SEP_MARK v = sepMark (taken s w) (fld s Reg.SEP_MARK_CODE F.SEP_MARK_CODE_CODE) v := by
  obtain ⟨d, k, hfind, hpair, hfields⟩ := findReg_sepMark
  refine regWrite_aon h (by decide) (by decide) hfind hpair ?_ ((sep_mgt _ _ _ _ _).trans (taken_mgt s w))
  simp [applyWrite, writeAt_sepMark, woPart_word w _ hfields, (onlyRegs_taken s w).2.fld_eq (by decide : Reg.SEP_MARK_CODE ∉ _)]

/-- What a capture of a serial number shows (R510). -/
def sepCapOfSerial (s : State) (n : Nat) : SepCap :=
  if sepHeld s n then
    { valid := true, gone := false, perr := Tab.get (fun _ => false) s.ras.badEntries (n % 8192), words := sepEntry s (n % 8192) }
  else { gone := true }

theorem sepCapture_frame (s : State) (who n : Nat) : ∃ caps, sepCapture s who n = { s with ras := { s.ras with rdcap := caps } } :=
  ⟨_, rfl⟩

theorem sepCapOf_sepCapture (s : State) (who n k : Nat) :
    sepCapOf (sepCapture s who n) k = if k = who then sepCapOfSerial s n else sepCapOf s k := Tab.get_put _ _ _ _ _

theorem regWrite_sepRdSel {s : State} {w : Requester} {v : Word} (h : direct s w Reg.SEP_RD_SEL = true) :
    regWrite s w .word Reg.SEP_RD_SEL v = sepCapture (wr (taken s w) Reg.SEP_RD_SEL v) (whoCode w) v.toNat := by
  obtain ⟨d, k, hfind, hpair, hper, hfields⟩ := findReg_sepRdSel
  obtain ⟨_, hframe⟩ := sepCapture_frame (wr (taken s w) Reg.SEP_RD_SEL v) (whoCode w) v.toNat
  refine regWrite_aon h (by decide) (by decide) hfind hpair ?_ (by rw [hframe, wr_mgt, taken_mgt])
  simp [applyWrite, writeAt_sepRdSel, mergeReg_word w _ hfields]

/-- The distance of a serial number back from the newest, as R510 takes it. -/
theorem sepHeld_eq (s : State) (v : Word) : sepHeld s v.toNat =
    decide ((rd s Reg.SEP_COUNT - 1 - v).toNat < min (rd s Reg.SEP_COUNT).toNat 8192) := by
  have hback : (rd s Reg.SEP_COUNT - 1 - v).toNat = ((rd s Reg.SEP_COUNT).toNat + 2 ^ 32 - 1 - v.toNat % 2 ^ 32) % 2 ^ 32 := by
    bv_omega
  rw [sepHeld, hback]

theorem sepMarkRegister_ends {s : State} {w : Requester} (v : Word) (h : direct s w Reg.SEP_MARK = true) :
    Ends (.sepMarkRegister w v) s fun u =>
      Recorded (taken s w) u (sepMake s 0x11 0 (fld s Reg.SEP_MARK_CODE F.SEP_MARK_CODE_CODE) v.toNat) ∧ u.mem = s.mem := by
  have htaken := onlyRegs_taken s w
  refine ⟨_, done_leads (congrArg done (regWrite_sepMark h)), ?_, (sep_mem _ _ _ _ _).trans htaken.mem_eq⟩
  rw [← sepMake_congr htaken (by decide)]
  exact recorded_sep _ _ _ _ _

theorem sepRdSel_ends {s : State} {w : Requester} (v : Word) (h : direct s w Reg.SEP_RD_SEL = true) :
    Ends (.sepRdSel w v) s fun u =>
      rd u Reg.SEP_RD_SEL = v ∧ SameRegsBut [Reg.SEP_RD_SEL] (taken s w) u ∧ u.mem = s.mem ∧
      (∀ k, k ≠ whoCode w → sepCapOf u k = sepCapOf s k) ∧ sepCapOf u (whoCode w) = sepCapOfSerial s v.toNat := by
  have hsel := onlyRegs_wr [Reg.SEP_RD_SEL] (taken s w) v (List.mem_singleton_self _)
  have hras : (wr (taken s w) Reg.SEP_RD_SEL v).ras = s.ras := hsel.ras_eq.trans (onlyRegs_taken s w).ras_eq
  obtain ⟨_, hframe⟩ := sepCapture_frame (wr (taken s w) Reg.SEP_RD_SEL v) (whoCode w) v.toNat
  refine ⟨_, done_leads (congrArg done (regWrite_sepRdSel h)), ?_, ?_, ?_, fun k hk => ?_, ?_⟩
  · rw [hframe]
    exact rd_wr_same _ _ _
  · rw [hframe]
    exact hsel.2.trans (sameRegs_withRas _ _ _)
  · rw [hframe]
    exact hsel.mem_eq.trans (onlyRegs_taken s w).mem_eq
  · rw [sepCapOf_sepCapture, if_neg hk, sepCapOf, hras, sepCapOf]
  · have hcount : rd (wr (taken s w) Reg.SEP_RD_SEL v) Reg.SEP_COUNT = rd s Reg.SEP_COUNT :=
      (rd_wr_ne _ _ (by decide)).trans (rd_taken s w (by decide))
    rw [sepCapOf_sepCapture, if_pos rfl, sepCapOfSerial, sepHeld, hcount, hras, sepEntry, hras, sepCapOfSerial, sepHeld, sepEntry]

/-! ## The statement -/

/-- Settles O53: a freeze is its registers and then the start of a dump, which touches only DUMP and the cause and stamp of its header; a
write of one action of SEP_CTL puts the modes back as they stand; the newest serial lies 1 behind SEP_COUNT. -/
theorem recorder : Obligations.Recorder := by
  unfold Obligations.Recorder
  refine ⟨fun s => ⟨fun h => done_leads (congrArg done (sepiaWrite_nil h)), fun e q h => ?_⟩, fun s w h hplain => ?_,
    fun s good => ?_, fun s w v => ?_⟩
  · obtain ⟨hentry, hcount, hmem⟩ := sepiaWrite_writes h
    exact ⟨sepiaWrite s, done_leads rfl, (hentry _).trans (if_pos rfl), fun j hj => (hentry j).trans (if_neg hj), hcount, hmem,
      sepiaWrite_queue h, sepiaWrite_freezes h⟩
  · exact ⟨sepCtlFreeze_ends h hplain, sepCtlUnfreeze_ends h hplain, sepCtlDump_ends h hplain⟩
  · refine ⟨fun h => done_leads (execSepiaDumpDone_idle h good), ?_, ?_⟩
    · rintro h rfl
      exact sepiaDumpDone_failed h
    · rintro h rfl
      exact sepiaDumpDone_written h
  · refine ⟨sepMarkRegister_ends v, fun h => ?_⟩
    have hends := sepRdSel_ends v h
    rw [sepCapOfSerial, sepHeld_eq] at hends
    exact hends

end Sys2Proof.Machine
